-- ==== Sys2Proof/Word.lean ====
section
/-!
DEFINITION. The word types of the module and their plainest arithmetic (00 R5, R6).
-/
namespace Sys2Proof

/-- A byte of memory, of a message or of a record. -/
abbrev Byte := BitVec 8

/-- A 32-bit word: an accumulator word, a tile element, most registers. -/
abbrev Word := BitVec 32

/-- A 64-bit word. -/
abbrev DWord := BitVec 64

/-- A register as the uniform register file holds it: the widest register of the manual has 256 bits (SEQ_DROP, SEC_MEAS). -/
abbrev RegVal := BitVec 256

end Sys2Proof
end

