-- ==== Sys2Proof/Config.lean ====
section
/-!
DEFINITION. What an implementation fixes, and the free values: opaque constants without a body, so that no proof can see
what they are (the manual leaves the value open; each is named in the assumption log).
-/
namespace Sys2Proof

/-- The shank counter of a die at the n-th moment the model takes it (a time; log entry 3). -/
opaque Config.shankCount : Nat → Nat → DWord

/-- The bit of a gatherer group that the firmware gives an event of groups 0 to 14 (R491: "the meaning of each bit of groups
0 to 14 belongs to the firmware"; log entry 4). The argument numbers the kind of event. -/
opaque Config.evgBit : Nat → Fin 32

/-- 32 bytes from the entropy source (R510, R528; log entry 6), for the n-th draw. -/
opaque Config.entropy : Nat → BitVec 256

/-- SLH-DSA-SHA2-256s verification (FIPS 205, R510): public key, message, signature (log entry 7). -/
opaque Config.slhVerify256s : List Byte → List Byte → List Byte → Bool

/-- SLH-DSA-SHA2-128f signing (FIPS 205, R510): key seeds, message; a signature of 17,088 bytes (log entry 7). -/
opaque Config.slhSign128f : List Byte → List Byte → List Byte

/-- SLH-DSA-SHA2-128f public key of key seeds (log entry 7). -/
opaque Config.slhPublic128f : List Byte → List Byte

/-- The public key of a vendor key index that a firmware image brings for the check of R514 stage 3: the manual gives the
manifest only the index, and no place of the key in the image (log entry 8). -/
opaque Config.imageKey : List Byte → List Byte

/-- The X.509 identity certificate written at manufacture (R524), and the alias certificate signed for an alias public key
(R526); their DER bytes are not given (log entry 9). -/
opaque Config.identityCert : List Byte
opaque Config.aliasCert : List Byte → List Byte

/-- What section 0x0001 of an image holds (R513 lists the contents and no layout; log entry 10): module-role overrides as
(die, edge, memory modules, eyelet modules), seat allow-list as (vendor, device), WLT_HB_CFG, unlock-key hashes. -/
opaque Config.bootRoles : List Byte → List (Nat × Nat × Nat × Nat)
opaque Config.bootSeats : List Byte → List (Nat × Nat)
opaque Config.bootHb : List Byte → Nat
opaque Config.bootUnlock : List Byte → List (BitVec 256)

/-- SHA-256 of the boot ROM of a kind of die (R518; the ROM's contents are not given; log entry 11). -/
opaque Config.romDigest : Nat → List Byte

/-- The summary payload of QUERY_STATE class 0 (R476 names "the module summary" and no layout; log entry 12). -/
opaque Config.summary : Nat → List Byte

/-- Which of the results that R144 allows a special function returns: the distance, in units of the last place, from the
nearest result, by function (0 RCP, 1 RSQRT, 3 EXP2, 4 LOG2, 5 TANH, 6 ERF) and operand (log entry 16). -/
opaque Config.sfuPick : Nat → BitVec 32 → Int

/-- Spare rows a bank of a stack has before its first repair (R237 counts them down and gives no number; log entry 15). The
argument is the bank's number `pc * 64 + bank`. -/
opaque Config.spareRows : Nat → Fin 16

/-- Which of the 8,192 entries of a full flow-context cache a miss evicts (R337 gives no rule; log entry 43). -/
opaque Config.cacheVictim : Nat → Fin 8192

/-- What the I3C target answers to GETPID (6 bytes), GETBCR, GETDCR and GETSTATUS (R574 names the commands and no values; log entry 78); GETSTATUS at the n-th moment. -/
opaque Config.i3cPid : BitVec 48
opaque Config.i3cBcr : BitVec 8
opaque Config.i3cDcr : BitVec 8
opaque Config.i3cStatus : Nat → BitVec 16

/-- The module power in mW to which the capper is limited while a die's core rail permits no higher point than the given one (R405: the load that the live
phases carry, of which the manual gives no figure; log entry 60). -/
opaque Config.railLoad : Nat → Nat → Nat

/-- The payload of a CTRL flit, by its kind and the two numbers it carries: the manual names what it holds and not where (R302, R316, R320; log entry 45). -/
opaque Config.ctrlPay : Nat → Nat → Nat → BitVec 1888

/-- The bytes that a transaction with a fenced die carries when it is completed with poison (R37 gives no payload; log entry 150), by physical byte address of HBM, or above
2^40 by cluster and insole byte. -/
opaque Config.lostByte : Nat → BitVec 8

end Sys2Proof
end

