-- ==== Sys2Proof/Machine/Names.lean ====
section
/-!
DEFINITION. The names the manual gives its registers (00 R10), as one inductive, and the blocks that hold them.
-/
namespace Sys2Proof.Machine

/-- The register blocks of 00 R10, by their prefixes. -/
inductive RegBlk where
  | ident | mbx | dbl | evg | pwr | clk | awl | wit | fin | sec | recorder | sth | gth | lay | seq | hbm | eye | lac | wlt
deriving DecidableEq, Repr

/-- What one copy of a register belongs to: the package, a die (position code), a cluster (package-wide number
0 to 35), a core (5 * cluster + core), an eyelet (0 to 47), a PCIe function (0 physical, 1 to 8 virtual) or a port
of the event gatherer. -/
inductive Scope where
  | package | die | cluster | core | eyelet | function | port
deriving DecidableEq, Repr

/-- Every register of the register tables of 01 to 17, but the mailbox buffers, which State holds on their own.
EVG_MSIX_TABLE and EVG_MSIX_PEND are the "MSI-X table" and "MSI-X pending bits" of R509; EVG_MSIX_CTL is the Message
Control word of the MSI-X capability of R505 (PRESUMED from PCI Express: bit 15 enable, bit 14 function mask; log entry 5). A letter index of the manual (FIN_..., WLT_ROUTE_p) is the `idx` of a `RegRef`. -/
inductive RegName where
  | IDENT_PART | IDENT_PRESENT | IDENT_MASTER | IDENT_FEATURE_EFF | IDENT_ERRATA_EFF | IDENT_SEAT_UCIE
  | IDENT_DIE | WLT_MOD_STATE | WLT_ROUTE | WLT_HB_CFG | WLT_FENCE | WLT_UNFENCE
  | WLT_REJOIN_CFG | WLT_LOSS_TIME | WLT_LOSS_POS | WLT_RETRY_CNT | WLT_REPAIR_CNT | WLT_SEAT_REJECT
  | SEQ_ARR_STATE | SEQ_ARR_FAULT | SEQ_ARR_DRY | SEQ_ARR_STAT_WAIT | SEQ_ARR_DRAIN_WAIT | SEQ_ARR_BUBBLE
  | SEQ_ARR_ACC_CE | SEQ_ARR_DESC_CNT | FIN_LSCALE | FIN_LSCALE_CFG | FIN_UF_CFG | FIN_UF_FLUSHED
  | FIN_UF_WRITTEN | FIN_GH_CFG | FIN_GH_STAT | WIT_TOL_CFG | SEQ_VEC_STATE | SEQ_VEC_FLAGS
  | SEQ_VEC_TRAP_EN | SEQ_VEC_WAIT_LIMIT | SEQ_VEC_FAULT | SEQ_VEC_INSTR_CNT | SEQ_VEC_BANK_WAIT | SEQ_VEC_DEP_STALL
  | SEQ_VEC_TILE_CE | SEQ_VEC_DESC_CNT | FIN_STATE | STH_STATE | GTH_STATE | LAY_STATE
  | FIN_ERR | STH_ERR | GTH_ERR | LAY_ERR | FIN_STEP_COUNT | FIN_UPDATE_CNT
  | FIN_UNIT_CNT | FIN_SKIP_CNT | STH_SLOT | STH_FALLBACK_CNT | STH_RECOMP_CNT | GTH_ROW_CNT
  | GTH_OOR_CNT | LAY_ELEM_CNT | LAY_SAT_CNT | WIT_CFG | WIT_STAT | WIT_SAMPLED
  | WIT_SKIPPED | WIT_ABANDONED | WIT_HOLD | WIT_MISMATCH | SEQ_DMA_ERR | SEQ_DMA_BLK_CNT
  | SEQ_DMA_AGLET_CNT | SEQ_RNG_KEY | SEQ_RNG_STEP | SEQ_RNG_RECOMP | SEQ_RNG_STALL | SEQ_INS_CE
  | SEQ_INS_UE | SEQ_INS_MAPOUT | HBM_STACK_STATE | HBM_PC_OUT | HBM_PC_PEND | HBM_CAP
  | HBM_RELAY_CTL | HBM_RELAY_STAT | HBM_PRIO_CFG | HBM_SCRUB_CFG | HBM_SCRUB_STAT | HBM_ROWTRK_CFG
  | HBM_ERR_LAST | HBM_REPAIR_LAST | HBM_CE_CNT | HBM_UE_CNT | HBM_ODECC_CNT | HBM_PAR_RETRY_CNT
  | HBM_REPAIR_CNT | HBM_LC_DEMOTE_CNT | HBM_BAR2_DROP | HBM_SCRUB_POISON_CNT | SEQ_STATE | SEQ_STEP_CFG
  | SEQ_CLOSE_TMO | SEQ_CLOSE_LOCAL | SEQ_CLOSE_RESULT | SEQ_DROP | SEQ_SB_STATE | SEQ_REPLAY_CNT
  | SEQ_DROP_MB_CNT | SEQ_SKIP_CNT | SEQ_STEP_DONE_CNT | SEQ_FEED_WAIT | SEQ_Q | SEQ_CTR
  | EYE_STATE | EYE_CFG | EYE_VC_WEIGHT | EYE_PEER_ID | EYE_PAUSE | EYE_TMO_CFG
  | EYE_COAST_STAT | EYE_LANE_CE | EYE_FEC_CE_CNT | EYE_FLIT_ERR_CNT | EYE_NAK_CNT | EYE_REPLAY_CNT
  | EYE_RETRAIN_CNT | EYE_HB_MISS_CNT | EYE_CREDIT_ERR | EYE_PAUSE_TMO_CNT | EYE_TX_FLITS | EYE_RX_FLITS
  | LAC_STATE | LAC_CFG | LAC_EPOCH | LAC_STEP | LAC_RNG_KEY | LAC_RNG_STEP
  | LAC_CACHE_STAT | LAC_MISWIRED | LAC_ERR | LAC_CHUNK_TX_CNT | LAC_CHUNK_RX_CNT | LAC_STALE_CHUNK_CNT
  | LAC_EPOCH_ERR_CNT | LAC_AGLET_ERR_CNT | LAC_A2A_OVF_CNT | LAC_ORDER_TMO_CNT | LAC_TIMEOUT_CNT | LAC_RELAY_CNT
  | LAC_RESEND_CNT | LAC_CACHE_MISS_CNT | LAC_INGRESS_CNT | AWL_STATE | AWL_CFG | AWL_CMD
  | AWL_LAST | AWL_PASS_CNT | AWL_FAIL_CNT | AWL_DEFER_CNT | AWL_HANDOVER_CNT | AWL_DISAGREE_CNT
  | AWL_SUSPECT_CNT | AWL_PATH_CNT | AWL_REPAIR_CNT | AWL_UNIT | PWR_STATE | PWR_CAP
  | PWR_CAP_CFG | PWR_DROOP_CFG | PWR_THERM_CFG | PWR_THERM_STAT | PWR_PHASES | PWR_CAP_P
  | PWR_ATTR | PWR_ENERGY | PWR_DROOP_CNT | PWR_CAP_CNT | PWR_TRIM_CNT | CLK_STATE
  | CLK_OP | CLK_RAMP_CFG | CLK_GATE_CFG | CLK_GATED | CLK_CHANGE_CNT | CLK_FREEZE_CNT
  | CLK_WAKE_CNT | CLK_BARRIER_CNT | PWR_MIR_INPUT | PWR_MIR_CAP | PWR_MIR_STATE | PWR_MIR_TEMP
  | PWR_MIR_ENERGY | MBX_STATUS | MBX_TMO | MBX_LOCK | MBX_LOCK_BREAK | DBL_C2H
  | DBL_C2H_MASK | DBL_FEED_PROD | EVG_Q_BASE | EVG_Q_CFG | EVG_Q_PROD | EVG_Q_CONS
  | EVG_COAL_CFG | EVG_TOP_PENDING | EVG_COMPLETE | EVG_STRAY_CNT | EVG_OVERSERVE_CNT | EVG_QFULL_CNT
  | EVG_GRP_CFG | EVG_MASK | EVG_PEND | EVG_COUNT | SEC_STATE | SEC_BOOT_CNT
  | SEC_SVN | SEC_UNLOCK_LEFT | SEC_DBG_DENY_CNT | SEC_FAILED_CLEAR | SEC_UNLOCK_FAIL | SEC_MEAS
  | REC_STATE | REC_NEXT_SEQ | REC_OLDEST_SEQ | REC_CLEARED_UPTO | REC_OVERWRITE_CNT | REC_REPAIR_CNT
  | REC_LATE_CNT | IDENT_START | DBL_RESET | DBL_BAR2_BASE | PWR_I3C_ID | PWR_I3C_INPUT
  | PWR_I3C_STATE | PWR_I3C_TEMP | PWR_I3C_ENERGY | PWR_I3C_PHASES
  | EVG_MSIX_TABLE | EVG_MSIX_PEND | EVG_MSIX_CTL
deriving DecidableEq, Repr

/-- One register: its name, which copy of it (`at_`, by the name's `Scope`), and the index of a register array. -/
structure RegRef where
  name : RegName
  at_  : Nat := 0
  idx  : Nat := 0
deriving DecidableEq, Repr

end Sys2Proof.Machine
end

