-- ==== Sys2Proof/Machine/Regs.lean ====
section
/-!
DEFINITION. The register tables of the manual: offset, width, access masks and reset value of each register
(00 R7 to R10 and the register tables of 01 to 17), and the fields of the field tables.
-/
namespace Sys2Proof.Machine

/-- One row of a register table. `rw`, `wo`, `w1c`, `w1s` and `rcl` are the bits with that access code (00 R7); a bit in
none of them is RO or reserved (00 R8) and ignores writes. -/
structure RegRow where
  blk    : RegBlk
  scope  : Scope
  off    : Nat
  stride : Nat := 0
  count  : Nat := 1
  width  : Nat
  rw     : RegVal := 0
  wo     : RegVal := 0
  w1c    : RegVal := 0
  w1s    : RegVal := 0
  rcl    : RegVal := 0
  reset  : RegVal := 0
deriving DecidableEq, Repr

/-- The register tables: IDENT_ R43, 16 table of IDENT_START; WLT_ 01; SEQ_ARR R83; numeric watch R129; SEQ_VEC R165;
engines R209, R210; HBM_ R243; SEQ_ R297; EYE_ R330; LAC_ R374; AWL_ R407; PWR_ R456; CLK_ R457; mirror R458;
mailboxes R467; EVG_ R509; SEC_ R541; REC_ R542; DBL_RESET R559; BAR2 R573; I3C R575. -/
def RegName.row : RegName → RegRow
  | .IDENT_PART => { blk := .ident, scope := .package, off := 0x0, width := 64 }
  | .IDENT_PRESENT => { blk := .ident, scope := .package, off := 0x8, width := 32 }
  | .IDENT_MASTER => { blk := .ident, scope := .package, off := 0x10, width := 32, reset := 0x4 }
  | .IDENT_FEATURE_EFF => { blk := .ident, scope := .package, off := 0x18, width := 32 }
  | .IDENT_ERRATA_EFF => { blk := .ident, scope := .package, off := 0x20, width := 64 }
  | .IDENT_SEAT_UCIE => { blk := .ident, scope := .package, off := 0x28, width := 64 }
  | .IDENT_DIE => { blk := .ident, scope := .package, off := 0x40, stride := 16, count := 10, width := 128 }
  | .WLT_MOD_STATE => { blk := .wlt, scope := .die, off := 0x0, stride := 4, count := 64, width := 32, reset := 0x3C0 }
  | .WLT_ROUTE => { blk := .wlt, scope := .die, off := 0x100, stride := 4, count := 10, width := 32, rw := 0x7F, reset := 0xF }
  | .WLT_HB_CFG => { blk := .wlt, scope := .die, off := 0x140, width := 32, rw := 0xFFF, reset := 0x532 }
  | .WLT_FENCE => { blk := .wlt, scope := .die, off := 0x144, width := 32, w1s := 0x7FF }
  | .WLT_UNFENCE => { blk := .wlt, scope := .die, off := 0x148, width := 32, w1c := 0x7FF }
  | .WLT_REJOIN_CFG => { blk := .wlt, scope := .die, off := 0x14C, width := 32, rw := 0xFFFF, reset := 0xC8 }
  | .WLT_LOSS_TIME => { blk := .wlt, scope := .die, off := 0x150, width := 64 }
  | .WLT_LOSS_POS => { blk := .wlt, scope := .die, off := 0x158, width := 32, reset := 0xF }
  | .WLT_RETRY_CNT => { blk := .wlt, scope := .die, off := 0x160, width := 32, rcl := 0xFFFFFFFF }
  | .WLT_REPAIR_CNT => { blk := .wlt, scope := .die, off := 0x164, width := 32, rcl := 0xFFFFFFFF }
  | .WLT_SEAT_REJECT => { blk := .wlt, scope := .die, off := 0x168, width := 32, rcl := 0xFFFFFFFF }
  | .SEQ_ARR_STATE => { blk := .seq, scope := .core, off := 0x0, width := 32 }
  | .SEQ_ARR_FAULT => { blk := .seq, scope := .core, off := 0x8, width := 64 }
  | .SEQ_ARR_DRY => { blk := .seq, scope := .core, off := 0x10, width := 32, rcl := 0xFFFFFFFF }
  | .SEQ_ARR_STAT_WAIT => { blk := .seq, scope := .core, off := 0x14, width := 32, rcl := 0xFFFFFFFF }
  | .SEQ_ARR_DRAIN_WAIT => { blk := .seq, scope := .core, off := 0x18, width := 32, rcl := 0xFFFFFFFF }
  | .SEQ_ARR_BUBBLE => { blk := .seq, scope := .core, off := 0x1C, width := 32, rcl := 0xFFFFFFFF }
  | .SEQ_ARR_ACC_CE => { blk := .seq, scope := .core, off := 0x20, width := 32, rcl := 0xFFFFFFFF }
  | .SEQ_ARR_DESC_CNT => { blk := .seq, scope := .core, off := 0x24, width := 32, rcl := 0xFFFFFFFF }
  | .FIN_LSCALE => { blk := .fin, scope := .cluster, off := 0x800, width := 32, rw := 0xFFFF00FF, reset := 0x10 }
  | .FIN_LSCALE_CFG => { blk := .fin, scope := .cluster, off := 0x804, width := 32, rw := 0xFFFFFFFF, reset := 0x807D010 }
  | .FIN_UF_CFG => { blk := .fin, scope := .cluster, off := 0x808, width := 32, rw := 0x3F, reset := 0xA }
  | .FIN_UF_FLUSHED => { blk := .fin, scope := .cluster, off := 0x810, width := 64, rcl := 0xFFFFFFFFFFFFFFFF }
  | .FIN_UF_WRITTEN => { blk := .fin, scope := .cluster, off := 0x818, width := 64, rcl := 0xFFFFFFFFFFFFFFFF }
  | .FIN_GH_CFG => { blk := .fin, scope := .cluster, off := 0x820, width := 32, rw := 0x1FFFF, reset := 0x10100 }
  | .FIN_GH_STAT => { blk := .fin, scope := .cluster, off := 0x824, width := 32 }
  | .WIT_TOL_CFG => { blk := .wit, scope := .cluster, off := 0x100, width := 32, rw := 0xFFF }
  | .SEQ_VEC_STATE => { blk := .seq, scope := .core, off := 0x0, width := 32 }
  | .SEQ_VEC_FLAGS => { blk := .seq, scope := .core, off := 0x4, width := 32, w1c := 0xFF }
  | .SEQ_VEC_TRAP_EN => { blk := .seq, scope := .core, off := 0x8, width := 32, rw := 0xFB }
  | .SEQ_VEC_WAIT_LIMIT => { blk := .seq, scope := .core, off := 0xC, width := 32, rw := 0xFFFF, reset := 0x4000 }
  | .SEQ_VEC_FAULT => { blk := .seq, scope := .core, off := 0x10, width := 128 }
  | .SEQ_VEC_INSTR_CNT => { blk := .seq, scope := .core, off := 0x20, width := 32, rcl := 0xFFFFFFFF }
  | .SEQ_VEC_BANK_WAIT => { blk := .seq, scope := .core, off := 0x24, width := 32, rcl := 0xFFFFFFFF }
  | .SEQ_VEC_DEP_STALL => { blk := .seq, scope := .core, off := 0x28, width := 32, rcl := 0xFFFFFFFF }
  | .SEQ_VEC_TILE_CE => { blk := .seq, scope := .core, off := 0x2C, width := 32, rcl := 0xFFFFFFFF }
  | .SEQ_VEC_DESC_CNT => { blk := .seq, scope := .core, off := 0x30, width := 32, rcl := 0xFFFFFFFF }
  | .FIN_STATE => { blk := .fin, scope := .cluster, off := 0x0, width := 32 }
  | .STH_STATE => { blk := .sth, scope := .cluster, off := 0x0, width := 32 }
  | .GTH_STATE => { blk := .gth, scope := .cluster, off := 0x0, width := 32 }
  | .LAY_STATE => { blk := .lay, scope := .cluster, off := 0x0, width := 32 }
  | .FIN_ERR => { blk := .fin, scope := .cluster, off := 0x10, width := 128 }
  | .STH_ERR => { blk := .sth, scope := .cluster, off := 0x10, width := 128 }
  | .GTH_ERR => { blk := .gth, scope := .cluster, off := 0x10, width := 128 }
  | .LAY_ERR => { blk := .lay, scope := .cluster, off := 0x10, width := 128 }
  | .FIN_STEP_COUNT => { blk := .fin, scope := .cluster, off := 0x20, width := 32, rw := 0xFFFFFFFF }
  | .FIN_UPDATE_CNT => { blk := .fin, scope := .cluster, off := 0x24, width := 32, rw := 0xFFFFFFFF }
  | .FIN_UNIT_CNT => { blk := .fin, scope := .cluster, off := 0x28, width := 32, rcl := 0xFFFFFFFF }
  | .FIN_SKIP_CNT => { blk := .fin, scope := .cluster, off := 0x2C, width := 32, rcl := 0xFFFFFFFF }
  | .STH_SLOT => { blk := .sth, scope := .cluster, off := 0x100, stride := 16, count := 16, width := 128, rw := 0xFFFFFFFFFFFFFFFF07FFFFFF07FFFFFF }
  | .STH_FALLBACK_CNT => { blk := .sth, scope := .cluster, off := 0x20, width := 32, rcl := 0xFFFFFFFF }
  | .STH_RECOMP_CNT => { blk := .sth, scope := .cluster, off := 0x24, width := 32, rcl := 0xFFFFFFFF }
  | .GTH_ROW_CNT => { blk := .gth, scope := .cluster, off := 0x20, width := 32, rcl := 0xFFFFFFFF }
  | .GTH_OOR_CNT => { blk := .gth, scope := .cluster, off := 0x24, width := 32, rcl := 0xFFFFFFFF }
  | .LAY_ELEM_CNT => { blk := .lay, scope := .cluster, off := 0x20, width := 32, rcl := 0xFFFFFFFF }
  | .LAY_SAT_CNT => { blk := .lay, scope := .cluster, off := 0x24, width := 32, rcl := 0xFFFFFFFF }
  | .WIT_CFG => { blk := .wit, scope := .cluster, off := 0x0, width := 32, rw := 0x3F, reset := 0xC }
  | .WIT_STAT => { blk := .wit, scope := .cluster, off := 0x4, width := 32 }
  | .WIT_SAMPLED => { blk := .wit, scope := .cluster, off := 0x10, width := 32, rcl := 0xFFFFFFFF }
  | .WIT_SKIPPED => { blk := .wit, scope := .cluster, off := 0x14, width := 32, rcl := 0xFFFFFFFF }
  | .WIT_ABANDONED => { blk := .wit, scope := .cluster, off := 0x18, width := 32, rcl := 0xFFFFFFFF }
  | .WIT_HOLD => { blk := .wit, scope := .cluster, off := 0x1C, width := 32, rcl := 0xFFFFFFFF }
  | .WIT_MISMATCH => { blk := .wit, scope := .cluster, off := 0x20, width := 32, rcl := 0xFFFFFFFF }
  | .SEQ_DMA_ERR => { blk := .seq, scope := .cluster, off := 0x2800, width := 128 }
  | .SEQ_DMA_BLK_CNT => { blk := .seq, scope := .cluster, off := 0x2810, width := 32, rcl := 0xFFFFFFFF }
  | .SEQ_DMA_AGLET_CNT => { blk := .seq, scope := .cluster, off := 0x2814, width := 32, rcl := 0xFFFFFFFF }
  | .SEQ_RNG_KEY => { blk := .seq, scope := .cluster, off := 0x2A00, width := 64, wo := 0xFFFFFFFFFFFFFFFF }
  | .SEQ_RNG_STEP => { blk := .seq, scope := .cluster, off := 0x2A08, width := 32, rw := 0xFFFFFFFF }
  | .SEQ_RNG_RECOMP => { blk := .seq, scope := .cluster, off := 0x2A0C, width := 32, rcl := 0xFFFFFFFF }
  | .SEQ_RNG_STALL => { blk := .seq, scope := .cluster, off := 0x2A10, width := 32, rcl := 0xFFFFFFFF }
  | .SEQ_INS_CE => { blk := .seq, scope := .cluster, off := 0x2C00, width := 32, rcl := 0xFFFFFFFF }
  | .SEQ_INS_UE => { blk := .seq, scope := .cluster, off := 0x2C04, width := 32, rcl := 0xFFFFFFFF }
  | .SEQ_INS_MAPOUT => { blk := .seq, scope := .cluster, off := 0x2C08, width := 64 }
  | .HBM_STACK_STATE => { blk := .hbm, scope := .die, off := 0x0, stride := 4, count := 4, width := 32 }
  | .HBM_PC_OUT => { blk := .hbm, scope := .die, off := 0x20, stride := 8, count := 4, width := 64 }
  | .HBM_PC_PEND => { blk := .hbm, scope := .die, off := 0x40, stride := 8, count := 4, width := 64 }
  | .HBM_CAP => { blk := .hbm, scope := .die, off := 0x60, width := 64 }
  | .HBM_RELAY_CTL => { blk := .hbm, scope := .die, off := 0x68, width := 32, wo := 0x1 }
  | .HBM_RELAY_STAT => { blk := .hbm, scope := .die, off := 0x6C, width := 32 }
  | .HBM_PRIO_CFG => { blk := .hbm, scope := .die, off := 0x70, width := 32, rw := 0xFFF, reset := 0x402 }
  | .HBM_SCRUB_CFG => { blk := .hbm, scope := .die, off := 0x74, width := 32, rw := 0x1FF, reset := 0x10C }
  | .HBM_SCRUB_STAT => { blk := .hbm, scope := .die, off := 0x78, width := 32 }
  | .HBM_ROWTRK_CFG => { blk := .hbm, scope := .die, off := 0x7C, width := 32, rw := 0xFFFF, reset := 0x1808 }
  | .HBM_ERR_LAST => { blk := .hbm, scope := .die, off := 0x80, width := 128 }
  | .HBM_REPAIR_LAST => { blk := .hbm, scope := .die, off := 0x90, width := 128 }
  | .HBM_CE_CNT => { blk := .hbm, scope := .die, off := 0xA0, width := 32, rcl := 0xFFFFFFFF }
  | .HBM_UE_CNT => { blk := .hbm, scope := .die, off := 0xA4, width := 32, rcl := 0xFFFFFFFF }
  | .HBM_ODECC_CNT => { blk := .hbm, scope := .die, off := 0xA8, width := 32, rcl := 0xFFFFFFFF }
  | .HBM_PAR_RETRY_CNT => { blk := .hbm, scope := .die, off := 0xAC, width := 32, rcl := 0xFFFFFFFF }
  | .HBM_REPAIR_CNT => { blk := .hbm, scope := .die, off := 0xB0, width := 32, rcl := 0xFFFFFFFF }
  | .HBM_LC_DEMOTE_CNT => { blk := .hbm, scope := .die, off := 0xB4, width := 32, rcl := 0xFFFFFFFF }
  | .HBM_BAR2_DROP => { blk := .hbm, scope := .die, off := 0xB8, width := 32, rcl := 0xFFFFFFFF }
  | .HBM_SCRUB_POISON_CNT => { blk := .hbm, scope := .die, off := 0xBC, width := 32, rcl := 0xFFFFFFFF }
  | .SEQ_STATE => { blk := .seq, scope := .cluster, off := 0x0, width := 32 }
  | .SEQ_STEP_CFG => { blk := .seq, scope := .cluster, off := 0x4, width := 32, rw := 0xFF0F0F, reset := 0x400402 }
  | .SEQ_CLOSE_TMO => { blk := .seq, scope := .cluster, off := 0x8, width := 32, rw := 0xFFFFFFFF, reset := 0x7530 }
  | .SEQ_CLOSE_LOCAL => { blk := .seq, scope := .cluster, off := 0x10, width := 64 }
  | .SEQ_CLOSE_RESULT => { blk := .seq, scope := .cluster, off := 0x18, width := 64 }
  | .SEQ_DROP => { blk := .seq, scope := .cluster, off := 0x40, width := 256 }
  | .SEQ_SB_STATE => { blk := .seq, scope := .cluster, off := 0x60, width := 32 }
  | .SEQ_REPLAY_CNT => { blk := .seq, scope := .cluster, off := 0x64, width := 32, rcl := 0xFFFFFFFF }
  | .SEQ_DROP_MB_CNT => { blk := .seq, scope := .cluster, off := 0x68, width := 32, rcl := 0xFFFFFFFF }
  | .SEQ_SKIP_CNT => { blk := .seq, scope := .cluster, off := 0x6C, width := 32, rcl := 0xFFFFFFFF }
  | .SEQ_STEP_DONE_CNT => { blk := .seq, scope := .cluster, off := 0x70, width := 32, rcl := 0xFFFFFFFF }
  | .SEQ_FEED_WAIT => { blk := .seq, scope := .cluster, off := 0x74, width := 32, rcl := 0xFFFFFFFF }
  | .SEQ_Q => { blk := .seq, scope := .cluster, off := 0x80, stride := 16, count := 16, width := 128, rw := 0x1FF07FFFFFF07FFFFFF }
  | .SEQ_CTR => { blk := .seq, scope := .cluster, off := 0x1000, stride := 4, count := 256, width := 32, rw := 0xFFFFFFFF }
  | .EYE_STATE => { blk := .eye, scope := .eyelet, off := 0x0, width := 32 }
  | .EYE_CFG => { blk := .eye, scope := .eyelet, off := 0x4, width := 32, rw := 0xFFF7, reset := 0x1001 }
  | .EYE_VC_WEIGHT => { blk := .eye, scope := .eyelet, off := 0x8, width := 64, rw := 0xFFFFFFFFFFFFFF00, reset := 0x820202020404000 }
  | .EYE_PEER_ID => { blk := .eye, scope := .eyelet, off := 0x10, width := 128 }
  | .EYE_PAUSE => { blk := .eye, scope := .eyelet, off := 0x20, width := 32, rw := 0xFF, wo := 0x10000 }
  | .EYE_TMO_CFG => { blk := .eye, scope := .eyelet, off := 0x24, width := 32, rw := 0xFFFFFFF, reset := 0x6430A }
  | .EYE_COAST_STAT => { blk := .eye, scope := .eyelet, off := 0x28, width := 32 }
  | .EYE_LANE_CE => { blk := .eye, scope := .eyelet, off := 0x30, width := 64, rcl := 0xFFFFFFFFFFFFFFFF }
  | .EYE_FEC_CE_CNT => { blk := .eye, scope := .eyelet, off := 0x40, width := 32, rcl := 0xFFFFFFFF }
  | .EYE_FLIT_ERR_CNT => { blk := .eye, scope := .eyelet, off := 0x44, width := 32, rcl := 0xFFFFFFFF }
  | .EYE_NAK_CNT => { blk := .eye, scope := .eyelet, off := 0x48, width := 32, rcl := 0xFFFFFFFF }
  | .EYE_REPLAY_CNT => { blk := .eye, scope := .eyelet, off := 0x4C, width := 32, rcl := 0xFFFFFFFF }
  | .EYE_RETRAIN_CNT => { blk := .eye, scope := .eyelet, off := 0x50, width := 32, rcl := 0xFFFFFFFF }
  | .EYE_HB_MISS_CNT => { blk := .eye, scope := .eyelet, off := 0x54, width := 32, rcl := 0xFFFFFFFF }
  | .EYE_CREDIT_ERR => { blk := .eye, scope := .eyelet, off := 0x58, width := 32, rcl := 0xFFFFFFFF }
  | .EYE_PAUSE_TMO_CNT => { blk := .eye, scope := .eyelet, off := 0x5C, width := 32, rcl := 0xFFFFFFFF }
  | .EYE_TX_FLITS => { blk := .eye, scope := .eyelet, off := 0x60, width := 64, rcl := 0xFFFFFFFFFFFFFFFF }
  | .EYE_RX_FLITS => { blk := .eye, scope := .eyelet, off := 0x68, width := 64, rcl := 0xFFFFFFFFFFFFFFFF }
  | .LAC_STATE => { blk := .lac, scope := .die, off := 0x0, width := 32 }
  | .LAC_CFG => { blk := .lac, scope := .die, off := 0x4, width := 32, rw := 0xFFFFF, reset := 0x21E1E }
  | .LAC_EPOCH => { blk := .lac, scope := .die, off := 0x8, width := 32 }
  | .LAC_STEP => { blk := .lac, scope := .die, off := 0xC, width := 32 }
  | .LAC_RNG_KEY => { blk := .lac, scope := .die, off := 0x10, width := 64, wo := 0xFFFFFFFFFFFFFFFF }
  | .LAC_RNG_STEP => { blk := .lac, scope := .die, off := 0x18, width := 32, rw := 0xFFFFFFFF }
  | .LAC_CACHE_STAT => { blk := .lac, scope := .die, off := 0x1C, width := 32 }
  | .LAC_MISWIRED => { blk := .lac, scope := .die, off := 0x20, width := 64 }
  | .LAC_ERR => { blk := .lac, scope := .die, off := 0x30, width := 128 }
  | .LAC_CHUNK_TX_CNT => { blk := .lac, scope := .die, off := 0x40, width := 32, rcl := 0xFFFFFFFF }
  | .LAC_CHUNK_RX_CNT => { blk := .lac, scope := .die, off := 0x44, width := 32, rcl := 0xFFFFFFFF }
  | .LAC_STALE_CHUNK_CNT => { blk := .lac, scope := .die, off := 0x48, width := 32, rcl := 0xFFFFFFFF }
  | .LAC_EPOCH_ERR_CNT => { blk := .lac, scope := .die, off := 0x4C, width := 32, rcl := 0xFFFFFFFF }
  | .LAC_AGLET_ERR_CNT => { blk := .lac, scope := .die, off := 0x50, width := 32, rcl := 0xFFFFFFFF }
  | .LAC_A2A_OVF_CNT => { blk := .lac, scope := .die, off := 0x54, width := 32, rcl := 0xFFFFFFFF }
  | .LAC_ORDER_TMO_CNT => { blk := .lac, scope := .die, off := 0x58, width := 32, rcl := 0xFFFFFFFF }
  | .LAC_TIMEOUT_CNT => { blk := .lac, scope := .die, off := 0x5C, width := 32, rcl := 0xFFFFFFFF }
  | .LAC_RELAY_CNT => { blk := .lac, scope := .die, off := 0x60, width := 32, rcl := 0xFFFFFFFF }
  | .LAC_RESEND_CNT => { blk := .lac, scope := .die, off := 0x64, width := 32, rcl := 0xFFFFFFFF }
  | .LAC_CACHE_MISS_CNT => { blk := .lac, scope := .die, off := 0x68, width := 32, rcl := 0xFFFFFFFF }
  | .LAC_INGRESS_CNT => { blk := .lac, scope := .die, off := 0x6C, width := 32, rcl := 0xFFFFFFFF }
  | .AWL_STATE => { blk := .awl, scope := .die, off := 0x0, width := 32 }
  | .AWL_CFG => { blk := .awl, scope := .die, off := 0x4, width := 32, rw := 0xFFFFFF, reset := 0x3E8183 }
  | .AWL_CMD => { blk := .awl, scope := .die, off := 0x8, width := 32, wo := 0x7FF }
  | .AWL_LAST => { blk := .awl, scope := .die, off := 0x10, width := 128 }
  | .AWL_PASS_CNT => { blk := .awl, scope := .die, off := 0x20, width := 32, rcl := 0xFFFFFFFF }
  | .AWL_FAIL_CNT => { blk := .awl, scope := .die, off := 0x24, width := 32, rcl := 0xFFFFFFFF }
  | .AWL_DEFER_CNT => { blk := .awl, scope := .die, off := 0x28, width := 32, rcl := 0xFFFFFFFF }
  | .AWL_HANDOVER_CNT => { blk := .awl, scope := .die, off := 0x2C, width := 32, rcl := 0xFFFFFFFF }
  | .AWL_DISAGREE_CNT => { blk := .awl, scope := .die, off := 0x30, width := 32, rcl := 0xFFFFFFFF }
  | .AWL_SUSPECT_CNT => { blk := .awl, scope := .die, off := 0x34, width := 32, rcl := 0xFFFFFFFF }
  | .AWL_PATH_CNT => { blk := .awl, scope := .die, off := 0x38, width := 32, rcl := 0xFFFFFFFF }
  | .AWL_REPAIR_CNT => { blk := .awl, scope := .die, off := 0x3C, width := 32, rcl := 0xFFFFFFFF }
  | .AWL_UNIT => { blk := .awl, scope := .die, off := 0x100, stride := 4, count := 144, width := 32, reset := 0x6 }
  | .PWR_STATE => { blk := .pwr, scope := .die, off := 0x0, width := 32 }
  | .PWR_CAP => { blk := .pwr, scope := .die, off := 0x4, width := 32, rw := 0xFFFF }
  | .PWR_CAP_CFG => { blk := .pwr, scope := .die, off := 0x8, width := 32, rw := 0xFF, reset := 0x90 }
  | .PWR_DROOP_CFG => { blk := .pwr, scope := .die, off := 0xC, width := 32, rw := 0xF, reset := 0x5 }
  | .PWR_THERM_CFG => { blk := .pwr, scope := .die, off := 0x10, width := 32, rw := 0xFFFFFFFF, reset := 0x695F7369 }
  | .PWR_THERM_STAT => { blk := .pwr, scope := .die, off := 0x14, width := 32 }
  | .PWR_PHASES => { blk := .pwr, scope := .die, off := 0x18, width := 32 }
  | .PWR_CAP_P => { blk := .pwr, scope := .die, off := 0x20, stride := 4, count := 8, width := 32, rw := 0xFFFF }
  | .PWR_ATTR => { blk := .pwr, scope := .die, off := 0x40, stride := 8, count := 8, width := 64, rcl := 0xFFFFFFFFFFFFFFFF }
  | .PWR_ENERGY => { blk := .pwr, scope := .die, off := 0x80, width := 64, rcl := 0xFFFFFFFFFFFFFFFF }
  | .PWR_DROOP_CNT => { blk := .pwr, scope := .die, off := 0x88, width := 32, rcl := 0xFFFFFFFF }
  | .PWR_CAP_CNT => { blk := .pwr, scope := .die, off := 0x8C, width := 32, rcl := 0xFFFFFFFF }
  | .PWR_TRIM_CNT => { blk := .pwr, scope := .die, off := 0x90, width := 32, rcl := 0xFFFFFFFF }
  | .CLK_STATE => { blk := .clk, scope := .die, off := 0x0, width := 32 }
  | .CLK_OP => { blk := .clk, scope := .die, off := 0x4, width := 32, rw := 0x7 }
  | .CLK_RAMP_CFG => { blk := .clk, scope := .die, off := 0x8, width := 32, rw := 0x1, reset := 0x3501 }
  | .CLK_GATE_CFG => { blk := .clk, scope := .die, off := 0xC, width := 32, rw := 0x1FF, reset := 0x132 }
  | .CLK_GATED => { blk := .clk, scope := .die, off := 0x10, width := 32 }
  | .CLK_CHANGE_CNT => { blk := .clk, scope := .die, off := 0x14, width := 32, rcl := 0xFFFFFFFF }
  | .CLK_FREEZE_CNT => { blk := .clk, scope := .die, off := 0x18, width := 32, rcl := 0xFFFFFFFF }
  | .CLK_WAKE_CNT => { blk := .clk, scope := .die, off := 0x1C, width := 32, rcl := 0xFFFFFFFF }
  | .CLK_BARRIER_CNT => { blk := .clk, scope := .die, off := 0x20, width := 32, rcl := 0xFFFFFFFF }
  | .PWR_MIR_INPUT => { blk := .pwr, scope := .package, off := 0x40000, width := 32 }
  | .PWR_MIR_CAP => { blk := .pwr, scope := .package, off := 0x40004, width := 32 }
  | .PWR_MIR_STATE => { blk := .pwr, scope := .package, off := 0x40008, width := 32 }
  | .PWR_MIR_TEMP => { blk := .pwr, scope := .package, off := 0x4000C, width := 32 }
  | .PWR_MIR_ENERGY => { blk := .pwr, scope := .package, off := 0x40010, width := 64 }
  | .MBX_STATUS => { blk := .mbx, scope := .function, off := 0x10200, stride := 4096, count := 16, width := 32, w1c := 0x20C }
  | .MBX_TMO => { blk := .mbx, scope := .function, off := 0x10204, stride := 4096, count := 16, width := 32, rw := 0xFFFF, reset := 0x3E8 }
  | .MBX_LOCK => { blk := .mbx, scope := .function, off := 0x20000, stride := 4, count := 16, width := 32, rw := 0xFFFF }
  | .MBX_LOCK_BREAK => { blk := .mbx, scope := .function, off := 0x20040, width := 32, wo := 0xFFFF }
  | .DBL_C2H => { blk := .dbl, scope := .function, off := 0x20100, width := 32, w1c := 0x7FFFF }
  | .DBL_C2H_MASK => { blk := .dbl, scope := .function, off := 0x20104, width := 32, rw := 0x7FFFF }
  | .DBL_FEED_PROD => { blk := .dbl, scope := .function, off := 0x20140, stride := 4, count := 8, width := 32, rw := 0xFFFFFFFF }
  | .EVG_Q_BASE => { blk := .evg, scope := .port, off := 0x0, width := 64, rw := 0xFFFFFFFFFFFFF000 }
  | .EVG_Q_CFG => { blk := .evg, scope := .port, off := 0x8, width := 32, rw := 0x3F, reset := 0x4 }
  | .EVG_Q_PROD => { blk := .evg, scope := .port, off := 0xC, width := 32 }
  | .EVG_Q_CONS => { blk := .evg, scope := .port, off := 0x10, width := 32, rw := 0xFFFF }
  | .EVG_COAL_CFG => { blk := .evg, scope := .port, off := 0x14, width := 32, rw := 0xFFFFFF, reset := 0x2008 }
  | .EVG_TOP_PENDING => { blk := .evg, scope := .port, off := 0x18, width := 32 }
  | .EVG_COMPLETE => { blk := .evg, scope := .port, off := 0x1C, width := 32, wo := 0xFF07FF }
  | .EVG_STRAY_CNT => { blk := .evg, scope := .port, off := 0x20, width := 32, rcl := 0xFFFFFFFF }
  | .EVG_OVERSERVE_CNT => { blk := .evg, scope := .port, off := 0x24, width := 32, rcl := 0xFFFFFFFF }
  | .EVG_QFULL_CNT => { blk := .evg, scope := .port, off := 0x28, width := 32, rcl := 0xFFFFFFFF }
  | .EVG_GRP_CFG => { blk := .evg, scope := .port, off := 0x100, stride := 4, count := 64, width := 32, rw := 0x3FF }
  | .EVG_MASK => { blk := .evg, scope := .port, off := 0x200, stride := 4, count := 64, width := 32, rw := 0xFFFFFFFF, reset := 0xFFFFFFFF }
  | .EVG_PEND => { blk := .evg, scope := .port, off := 0x300, stride := 4, count := 64, width := 32 }
  | .EVG_COUNT => { blk := .evg, scope := .port, off := 0x1000, stride := 1, count := 2048, width := 8 }
  | .SEC_STATE => { blk := .sec, scope := .die, off := 0x0, width := 32, reset := 0xFF }
  | .SEC_BOOT_CNT => { blk := .sec, scope := .die, off := 0x4, width := 32 }
  | .SEC_SVN => { blk := .sec, scope := .die, off := 0x8, width := 64 }
  | .SEC_UNLOCK_LEFT => { blk := .sec, scope := .die, off := 0x10, width := 32 }
  | .SEC_DBG_DENY_CNT => { blk := .sec, scope := .die, off := 0x14, width := 32, rcl := 0xFFFFFFFF }
  | .SEC_FAILED_CLEAR => { blk := .sec, scope := .die, off := 0x18, width := 32, wo := 0xFFFFFFFF }
  | .SEC_UNLOCK_FAIL => { blk := .sec, scope := .die, off := 0x1C, width := 32 }
  | .SEC_MEAS => { blk := .sec, scope := .die, off := 0x100, stride := 32, count := 8, width := 256 }
  | .REC_STATE => { blk := .recorder, scope := .die, off := 0x0, width := 32 }
  | .REC_NEXT_SEQ => { blk := .recorder, scope := .die, off := 0x8, width := 64 }
  | .REC_OLDEST_SEQ => { blk := .recorder, scope := .die, off := 0x10, width := 64 }
  | .REC_CLEARED_UPTO => { blk := .recorder, scope := .die, off := 0x18, width := 64 }
  | .REC_OVERWRITE_CNT => { blk := .recorder, scope := .die, off := 0x20, width := 32, rcl := 0xFFFFFFFF }
  | .REC_REPAIR_CNT => { blk := .recorder, scope := .die, off := 0x24, width := 32, rcl := 0xFFFFFFFF }
  | .REC_LATE_CNT => { blk := .recorder, scope := .die, off := 0x28, width := 32, rcl := 0xFFFFFFFF }
  | .IDENT_START => { blk := .ident, scope := .package, off := 0x30, width := 32 }
  | .DBL_RESET => { blk := .dbl, scope := .package, off := 0x20180, width := 32, wo := 0xFFFF0007 }
  | .DBL_BAR2_BASE => { blk := .dbl, scope := .package, off := 0x20200, width := 64, rw := 0xFFFFFFFFFFF }
  | .PWR_I3C_ID => { blk := .pwr, scope := .package, off := 0x0, width := 32 }
  | .PWR_I3C_INPUT => { blk := .pwr, scope := .package, off := 0x4, width := 32 }
  | .PWR_I3C_STATE => { blk := .pwr, scope := .package, off := 0x8, width := 32, reset := 0x70 }
  | .PWR_I3C_TEMP => { blk := .pwr, scope := .package, off := 0xC, width := 32 }
  | .PWR_I3C_ENERGY => { blk := .pwr, scope := .package, off := 0x10, width := 64 }
  | .PWR_I3C_PHASES => { blk := .pwr, scope := .package, off := 0x18, width := 32 }
  | .EVG_MSIX_TABLE => { blk := .evg, scope := .port, off := 0x4000, width := 128, rw := 0x1FFFFFFFFFFFFFFFFFFFFFFFC, reset := 0x1000000000000000000000000 }
  | .EVG_MSIX_PEND => { blk := .evg, scope := .port, off := 0x4800, width := 64 }
  | .EVG_MSIX_CTL => { blk := .evg, scope := .port, off := 0x4FF0, width := 16, rw := 0xC000 }

/-- A register's reset value. Three registers have a reset that depends on the copy: PWR_PHASES (the phases fitted to the
die's rails, R404 and R456), EVG_GRP_CFG (the TARGET of R509's field table), and registers whose reset is fused or kept
in MRAM, which `State.reset` lists. -/
def RegRef.reset (r : RegRef) : RegVal :=
  match r.name with
  | .PWR_PHASES =>
    if r.at_ < 4 then 12
    else if r.at_ = 4 then 0xA45
    else 0x245
  | .EVG_GRP_CFG => if r.idx ≤ 14 then 0 else if r.idx = 48 then 0x400 else 0x3C00
  | n => n.row.reset

/-- The register's key in the register file. -/
def RegRef.key (r : RegRef) : Nat :=
  (r.name.ctorIdx * 4096 + r.at_) * 2048 + r.idx

/-- The bits the register has. -/
def RegRow.mask (w : RegRow) : RegVal := BitVec.ofNat 256 (2 ^ w.width - 1)

/-- A field of a register or of a message: its lowest bit and its width (00 R5). -/
structure Fld where
  lo : Nat
  w  : Nat
deriving DecidableEq, Repr

/-- The field's value. -/
def Fld.get (f : Fld) (v : RegVal) : Nat := (v.toNat / 2 ^ f.lo) % 2 ^ f.w

/-- The register with the field replaced. A value that does not fit keeps its low bits. -/
def Fld.set (f : Fld) (v : RegVal) (x : Nat) : RegVal :=
  let m : RegVal := BitVec.ofNat 256 ((2 ^ f.w - 1) * 2 ^ f.lo)
  (v &&& ~~~ m) ||| BitVec.ofNat 256 ((x % 2 ^ f.w) * 2 ^ f.lo)

/-- A field as a two's complement number. -/
def Fld.getInt (f : Fld) (v : RegVal) : Int :=
  let x := f.get v
  if x < 2 ^ (f.w - 1) then (x : Int) else (x : Int) - (2 ^ f.w : Nat)

namespace Fld
def IDENT_PART_CDS : Fld := ⟨0, 8⟩
def IDENT_PART_STACKS : Fld := ⟨8, 8⟩
def IDENT_PART_SUFFIX : Fld := ⟨16, 8⟩
def IDENT_PART_GEN : Fld := ⟨24, 8⟩
def IDENT_PRESENT_PRESENT : Fld := ⟨0, 10⟩
def IDENT_PRESENT_SEAT : Fld := ⟨10, 1⟩
def IDENT_PRESENT_FENCED : Fld := ⟨20, 10⟩
def IDENT_PRESENT_DEGRADED : Fld := ⟨30, 1⟩
def IDENT_PRESENT_MGMT_ONLY : Fld := ⟨31, 1⟩
def IDENT_MASTER_POSITION : Fld := ⟨0, 4⟩
def IDENT_MASTER_TAKEOVERS : Fld := ⟨16, 8⟩
def IDENT_SEAT_UCIE_VENDOR : Fld := ⟨0, 16⟩
def IDENT_SEAT_UCIE_DEVICE : Fld := ⟨16, 16⟩
def IDENT_SEAT_UCIE_RATE : Fld := ⟨32, 4⟩
def IDENT_SEAT_UCIE_MODULES : Fld := ⟨36, 6⟩
def WLT_MOD_STATE_ROLE : Fld := ⟨0, 3⟩
def WLT_MOD_STATE_STATE : Fld := ⟨3, 3⟩
def WLT_MOD_STATE_FACING : Fld := ⟨6, 4⟩
def WLT_MOD_STATE_REPAIRED_TX : Fld := ⟨10, 3⟩
def WLT_MOD_STATE_REPAIRED_RX : Fld := ⟨13, 3⟩
def WLT_MOD_STATE_RATE : Fld := ⟨16, 4⟩
def WLT_ROUTE_NEXT : Fld := ⟨0, 4⟩
def WLT_ROUTE_HOPS : Fld := ⟨4, 3⟩
def WLT_HB_CFG_INTERVAL : Fld := ⟨0, 8⟩
def WLT_HB_CFG_MISSES : Fld := ⟨8, 4⟩
def WLT_FENCE_POS : Fld := ⟨0, 10⟩
def WLT_FENCE_SEAT : Fld := ⟨10, 1⟩
def WLT_UNFENCE_POS : Fld := ⟨0, 10⟩
def WLT_UNFENCE_SEAT : Fld := ⟨10, 1⟩
def WLT_REJOIN_CFG_DEADLINE_MS : Fld := ⟨0, 16⟩
def SEQ_ARR_STATE_BUSY : Fld := ⟨0, 4⟩
def SEQ_ARR_STATE_SPLIT : Fld := ⟨4, 4⟩
def SEQ_ARR_STATE_BANK_VEC : Fld := ⟨8, 8⟩
def SEQ_ARR_STATE_FENCE_W : Fld := ⟨16, 4⟩
def SEQ_ARR_STATE_FENCE_E : Fld := ⟨20, 4⟩
def SEQ_ARR_FAULT_ARRAY : Fld := ⟨0, 2⟩
def SEQ_ARR_FAULT_SCOPE : Fld := ⟨2, 2⟩
def SEQ_ARR_FAULT_CHECK : Fld := ⟨4, 4⟩
def SEQ_ARR_FAULT_OP_TAG : Fld := ⟨8, 16⟩
def SEQ_ARR_FAULT_SHANK : Fld := ⟨24, 40⟩
def FIN_LSCALE_EXP : Fld := ⟨0, 8⟩
def FIN_LSCALE_FLOOR_RUN : Fld := ⟨8, 8⟩
def FIN_LSCALE_CLEAN : Fld := ⟨16, 16⟩
def FIN_LSCALE_CFG_INIT_EXP : Fld := ⟨0, 8⟩
def FIN_LSCALE_CFG_GROW_STEPS : Fld := ⟨8, 16⟩
def FIN_LSCALE_CFG_FLOOR_SKIPS : Fld := ⟨24, 8⟩
def FIN_UF_CFG_THRESH_LOG2 : Fld := ⟨0, 5⟩
def FIN_UF_CFG_ENABLE : Fld := ⟨5, 1⟩
def FIN_GH_CFG_THRESH : Fld := ⟨0, 16⟩
def FIN_GH_CFG_AWL_ON_ALARM : Fld := ⟨16, 1⟩
def FIN_GH_STAT_TAG : Fld := ⟨0, 16⟩
def FIN_GH_STAT_RUN : Fld := ⟨16, 16⟩
def WIT_TOL_CFG_NATIVE : Fld := ⟨0, 4⟩
def WIT_TOL_CFG_MIOMEL : Fld := ⟨4, 4⟩
def WIT_TOL_CFG_BENIUM : Fld := ⟨8, 4⟩
def SEQ_VEC_STATE_BUSY : Fld := ⟨0, 1⟩
def SEQ_VEC_STATE_WAIT_BANK : Fld := ⟨1, 1⟩
def SEQ_VEC_STATE_TRAPPED : Fld := ⟨2, 1⟩
def SEQ_VEC_STATE_FENCED : Fld := ⟨3, 1⟩
def SEQ_VEC_STATE_PVL_M1 : Fld := ⟨4, 7⟩
def SEQ_VEC_STATE_PRC_M1 : Fld := ⟨11, 4⟩
def SEQ_VEC_STATE_PC : Fld := ⟨15, 10⟩
def SEQ_VEC_FLAGS_FLAGS : Fld := ⟨0, 8⟩
def SEQ_VEC_TRAP_EN_FLAGS : Fld := ⟨0, 8⟩
def SEQ_VEC_WAIT_LIMIT_LIMIT : Fld := ⟨0, 16⟩
def SEQ_VEC_FAULT_KIND : Fld := ⟨0, 4⟩
def SEQ_VEC_FAULT_FLAG : Fld := ⟨4, 4⟩
def SEQ_VEC_FAULT_INSTR : Fld := ⟨8, 10⟩
def SEQ_VEC_FAULT_ITER : Fld := ⟨18, 16⟩
def SEQ_VEC_FAULT_ROW : Fld := ⟨34, 4⟩
def SEQ_VEC_FAULT_LANE : Fld := ⟨38, 7⟩
def SEQ_VEC_FAULT_OP_TAG : Fld := ⟨64, 16⟩
def SEQ_VEC_FAULT_SHANK : Fld := ⟨80, 40⟩
def FIN_STATE_BUSY : Fld := ⟨0, 1⟩
def FIN_STATE_FENCED : Fld := ⟨1, 1⟩
def FIN_STATE_INFLIGHT : Fld := ⟨2, 3⟩
def STH_STATE_BUSY : Fld := ⟨0, 1⟩
def STH_STATE_FENCED : Fld := ⟨1, 1⟩
def STH_STATE_INFLIGHT : Fld := ⟨2, 3⟩
def GTH_STATE_BUSY : Fld := ⟨0, 1⟩
def GTH_STATE_FENCED : Fld := ⟨1, 1⟩
def GTH_STATE_INFLIGHT : Fld := ⟨2, 3⟩
def LAY_STATE_BUSY : Fld := ⟨0, 1⟩
def LAY_STATE_FENCED : Fld := ⟨1, 1⟩
def LAY_STATE_INFLIGHT : Fld := ⟨2, 3⟩
def FIN_ERR_STATUS : Fld := ⟨0, 8⟩
def FIN_ERR_QUEUE : Fld := ⟨8, 8⟩
def FIN_ERR_OP_TAG : Fld := ⟨16, 16⟩
def FIN_ERR_INDEX : Fld := ⟨32, 32⟩
def FIN_ERR_SHANK : Fld := ⟨64, 40⟩
def STH_ERR_STATUS : Fld := ⟨0, 8⟩
def STH_ERR_QUEUE : Fld := ⟨8, 8⟩
def STH_ERR_OP_TAG : Fld := ⟨16, 16⟩
def STH_ERR_INDEX : Fld := ⟨32, 32⟩
def STH_ERR_SHANK : Fld := ⟨64, 40⟩
def GTH_ERR_STATUS : Fld := ⟨0, 8⟩
def GTH_ERR_QUEUE : Fld := ⟨8, 8⟩
def GTH_ERR_OP_TAG : Fld := ⟨16, 16⟩
def GTH_ERR_INDEX : Fld := ⟨32, 32⟩
def GTH_ERR_SHANK : Fld := ⟨64, 40⟩
def LAY_ERR_STATUS : Fld := ⟨0, 8⟩
def LAY_ERR_QUEUE : Fld := ⟨8, 8⟩
def LAY_ERR_OP_TAG : Fld := ⟨16, 16⟩
def LAY_ERR_INDEX : Fld := ⟨32, 32⟩
def LAY_ERR_SHANK : Fld := ⟨64, 40⟩
def STH_SLOT_INS_BASE : Fld := ⟨0, 27⟩
def STH_SLOT_INS_SIZE : Fld := ⟨32, 27⟩
def STH_SLOT_HBM_BASE : Fld := ⟨64, 44⟩
def STH_SLOT_HBM_BLOCKS : Fld := ⟨108, 20⟩
def WIT_CFG_RATE_LOG2 : Fld := ⟨0, 5⟩
def WIT_CFG_DISABLE : Fld := ⟨5, 1⟩
def WIT_STAT_MODE : Fld := ⟨0, 2⟩
def WIT_STAT_CORE : Fld := ⟨2, 3⟩
def WIT_STAT_ARRAY : Fld := ⟨5, 2⟩
def WIT_STAT_HALF : Fld := ⟨7, 1⟩
def SEQ_DMA_ERR_STATUS : Fld := ⟨0, 8⟩
def SEQ_DMA_ERR_QUEUE : Fld := ⟨8, 8⟩
def SEQ_DMA_ERR_OP_TAG : Fld := ⟨16, 16⟩
def SEQ_DMA_ERR_INDEX : Fld := ⟨32, 32⟩
def SEQ_DMA_ERR_SHANK : Fld := ⟨64, 40⟩
def HBM_STACK_STATE_STATE : Fld := ⟨0, 3⟩
def HBM_STACK_STATE_CH_FAILED : Fld := ⟨3, 5⟩
def HBM_STACK_STATE_TEMP : Fld := ⟨8, 8⟩
def HBM_STACK_STATE_REF_2X : Fld := ⟨16, 1⟩
def HBM_CAP_BLOCKS : Fld := ⟨0, 32⟩
def HBM_CAP_PCS : Fld := ⟨32, 11⟩
def HBM_CAP_PENDING : Fld := ⟨43, 1⟩
def HBM_CAP_HELD_HIGH : Fld := ⟨44, 1⟩
def HBM_RELAY_CTL_START : Fld := ⟨0, 1⟩
def HBM_RELAY_STAT_STATE : Fld := ⟨0, 2⟩
def HBM_RELAY_STAT_PERCENT : Fld := ⟨2, 6⟩
def HBM_RELAY_STAT_POISONED : Fld := ⟨8, 24⟩
def HBM_PRIO_CFG_LC_SHARE : Fld := ⟨0, 4⟩
def HBM_PRIO_CFG_AGE_US : Fld := ⟨4, 8⟩
def HBM_SCRUB_CFG_PERIOD_H : Fld := ⟨0, 8⟩
def HBM_SCRUB_CFG_ENABLE : Fld := ⟨8, 1⟩
def HBM_ROWTRK_CFG_CE_THRESH : Fld := ⟨0, 8⟩
def HBM_ROWTRK_CFG_WINDOW_H : Fld := ⟨8, 8⟩
def HBM_ERR_LAST_CLASS : Fld := ⟨0, 8⟩
def HBM_ERR_LAST_SOURCE : Fld := ⟨8, 2⟩
def HBM_ERR_LAST_STACK : Fld := ⟨10, 2⟩
def HBM_ERR_LAST_CHANNEL : Fld := ⟨12, 5⟩
def HBM_ERR_LAST_PC : Fld := ⟨17, 1⟩
def HBM_ERR_LAST_BANK : Fld := ⟨18, 6⟩
def HBM_ERR_LAST_ROW : Fld := ⟨24, 18⟩
def HBM_ERR_LAST_SHANK : Fld := ⟨64, 40⟩
def HBM_REPAIR_LAST_STACK : Fld := ⟨0, 2⟩
def HBM_REPAIR_LAST_CHANNEL : Fld := ⟨2, 5⟩
def HBM_REPAIR_LAST_PC : Fld := ⟨7, 1⟩
def HBM_REPAIR_LAST_BANK : Fld := ⟨8, 6⟩
def HBM_REPAIR_LAST_ROW : Fld := ⟨14, 18⟩
def HBM_REPAIR_LAST_ACTION : Fld := ⟨32, 2⟩
def HBM_REPAIR_LAST_SPARES : Fld := ⟨34, 4⟩
def HBM_REPAIR_LAST_SHANK : Fld := ⟨64, 40⟩
def SEQ_STATE_STEP : Fld := ⟨0, 3⟩
def SEQ_STATE_ATTEMPT : Fld := ⟨3, 4⟩
def SEQ_STATE_OUTCOME : Fld := ⟨7, 3⟩
def SEQ_STATE_REASON : Fld := ⟨10, 4⟩
def SEQ_STATE_REPLAY_SET : Fld := ⟨14, 1⟩
def SEQ_STATE_VARIANT_VALID : Fld := ⟨15, 1⟩
def SEQ_STATE_VARIANT : Fld := ⟨16, 2⟩
def SEQ_STEP_CFG_REPLAY_BUDGET : Fld := ⟨0, 4⟩
def SEQ_STEP_CFG_ATTEMPT_MAX : Fld := ⟨8, 4⟩
def SEQ_STEP_CFG_DIGEST_DEPTH : Fld := ⟨16, 8⟩
def SEQ_SB_STATE_CLUSTER : Fld := ⟨0, 8⟩
def SEQ_SB_STATE_DIE : Fld := ⟨8, 11⟩
def SEQ_Q_BASE : Fld := ⟨0, 27⟩
def SEQ_Q_LENGTH : Fld := ⟨32, 27⟩
def SEQ_Q_BIND : Fld := ⟨64, 8⟩
def SEQ_Q_LATENCY : Fld := ⟨72, 1⟩
def SEQ_Q_QSTATE : Fld := ⟨73, 3⟩
def SEQ_Q_POS : Fld := ⟨80, 27⟩
def SEQ_CTR_VALUE : Fld := ⟨0, 16⟩
def SEQ_CTR_RELOAD : Fld := ⟨16, 16⟩
def EYE_STATE_STATE : Fld := ⟨0, 4⟩
def EYE_STATE_RATE : Fld := ⟨4, 2⟩
def EYE_STATE_TX_LANES : Fld := ⟨6, 4⟩
def EYE_STATE_RX_LANES : Fld := ⟨10, 4⟩
def EYE_STATE_REV : Fld := ⟨14, 2⟩
def EYE_STATE_PAUSING : Fld := ⟨16, 1⟩
def EYE_STATE_PAUSED : Fld := ⟨17, 1⟩
def EYE_STATE_QUIESCED : Fld := ⟨18, 1⟩
def EYE_STATE_PAUSE_TMO : Fld := ⟨19, 1⟩
def EYE_STATE_HOLD_SENT : Fld := ⟨20, 1⟩
def EYE_STATE_RETRAINS : Fld := ⟨24, 8⟩
def EYE_CFG_ENABLE : Fld := ⟨0, 1⟩
def EYE_CFG_RATE_CAP : Fld := ⟨1, 2⟩
def EYE_CFG_LANE_OFF : Fld := ⟨4, 4⟩
def EYE_CFG_LANE_CE_LIMIT : Fld := ⟨8, 8⟩
def EYE_VC_WEIGHT_W_VC1 : Fld := ⟨8, 8⟩
def EYE_VC_WEIGHT_W_VC2 : Fld := ⟨16, 8⟩
def EYE_VC_WEIGHT_W_VC3 : Fld := ⟨24, 8⟩
def EYE_VC_WEIGHT_W_VC4 : Fld := ⟨32, 8⟩
def EYE_VC_WEIGHT_W_VC5 : Fld := ⟨40, 8⟩
def EYE_VC_WEIGHT_W_VC6 : Fld := ⟨48, 8⟩
def EYE_VC_WEIGHT_W_VC7 : Fld := ⟨56, 8⟩
def EYE_PEER_ID_REV : Fld := ⟨0, 4⟩
def EYE_PEER_ID_MAX_RATE : Fld := ⟨4, 4⟩
def EYE_PEER_ID_LANES : Fld := ⟨8, 4⟩
def EYE_PEER_ID_EYELET : Fld := ⟨16, 8⟩
def EYE_PEER_ID_PART : Fld := ⟨32, 32⟩
def EYE_PEER_ID_SERIAL : Fld := ⟨64, 32⟩
def EYE_PAUSE_MASK : Fld := ⟨0, 8⟩
def EYE_PAUSE_PEER_MASK : Fld := ⟨8, 8⟩
def EYE_PAUSE_HOLD : Fld := ⟨16, 1⟩
def EYE_TMO_CFG_HB_INTERVAL : Fld := ⟨0, 8⟩
def EYE_TMO_CFG_HB_MISSES : Fld := ⟨8, 4⟩
def EYE_TMO_CFG_PAUSE_TMO : Fld := ⟨12, 16⟩
def EYE_COAST_STAT_FILL : Fld := ⟨0, 12⟩
def EYE_COAST_STAT_PEAK : Fld := ⟨12, 12⟩
def EYE_LANE_CE_LANE_0 : Fld := ⟨0, 16⟩
def EYE_LANE_CE_LANE_1 : Fld := ⟨16, 16⟩
def EYE_LANE_CE_LANE_2 : Fld := ⟨32, 16⟩
def EYE_LANE_CE_LANE_3 : Fld := ⟨48, 16⟩
def LAC_STATE_LOADED : Fld := ⟨0, 1⟩
def LAC_STATE_SUSPENDED : Fld := ⟨1, 1⟩
def LAC_STATE_FENCED : Fld := ⟨2, 1⟩
def LAC_STATE_MISWIRED : Fld := ⟨3, 1⟩
def LAC_STATE_RUNNING : Fld := ⟨4, 13⟩
def LAC_CFG_ORDER_TMO : Fld := ⟨0, 8⟩
def LAC_CFG_PROGRESS_TMO : Fld := ⟨8, 8⟩
def LAC_CFG_CACK_EVERY : Fld := ⟨16, 4⟩
def LAC_EPOCH_EPOCH : Fld := ⟨0, 12⟩
def LAC_EPOCH_FENCE_EPOCH : Fld := ⟨12, 12⟩
def LAC_EPOCH_FENCING : Fld := ⟨24, 1⟩
def LAC_STEP_STEP_LO : Fld := ⟨0, 16⟩
def LAC_STEP_ATTEMPT : Fld := ⟨16, 4⟩
def LAC_CACHE_STAT_VALID : Fld := ⟨0, 14⟩
def LAC_CACHE_STAT_DIRTY : Fld := ⟨14, 14⟩
def LAC_ERR_STATUS : Fld := ⟨0, 8⟩
def LAC_ERR_OPCODE : Fld := ⟨8, 6⟩
def LAC_ERR_CSEQ : Fld := ⟨16, 16⟩
def LAC_ERR_PEER : Fld := ⟨32, 16⟩
def LAC_ERR_CHUNK : Fld := ⟨48, 24⟩
def LAC_ERR_SHANK : Fld := ⟨72, 40⟩
def AWL_STATE_RUNNING : Fld := ⟨0, 4⟩
def AWL_STATE_QUEUED : Fld := ⟨4, 12⟩
def AWL_STATE_DEFERRED : Fld := ⟨16, 1⟩
def AWL_CFG_FAULT_LIMIT : Fld := ⟨0, 4⟩
def AWL_CFG_WINDOW_H : Fld := ⟨4, 8⟩
def AWL_CFG_DRAIN_TMO : Fld := ⟨12, 12⟩
def AWL_CMD_UNIT : Fld := ⟨0, 8⟩
def AWL_CMD_ACTION : Fld := ⟨8, 3⟩
def AWL_LAST_UNIT : Fld := ⟨0, 16⟩
def AWL_LAST_RESULT : Fld := ⟨16, 4⟩
def AWL_LAST_TRIGGER : Fld := ⟨20, 4⟩
def AWL_LAST_STAGE : Fld := ⟨24, 8⟩
def AWL_LAST_SIGNATURE : Fld := ⟨32, 32⟩
def AWL_LAST_SHANK : Fld := ⟨64, 40⟩
def AWL_UNIT_ROLE : Fld := ⟨0, 3⟩
def AWL_UNIT_BOUND : Fld := ⟨3, 1⟩
def AWL_UNIT_BUSY : Fld := ⟨4, 1⟩
def AWL_UNIT_PARTITION : Fld := ⟨5, 3⟩
def AWL_UNIT_FAULTS : Fld := ⟨8, 8⟩
def AWL_UNIT_DEFERRED : Fld := ⟨16, 1⟩
def PWR_STATE_MSTATE : Fld := ⟨0, 3⟩
def PWR_STATE_THROTTLE : Fld := ⟨3, 1⟩
def PWR_STATE_TRIM : Fld := ⟨4, 1⟩
def PWR_STATE_K_MOD : Fld := ⟨5, 6⟩
def PWR_STATE_SETPOINT : Fld := ⟨12, 16⟩
def PWR_CAP_CAP_W : Fld := ⟨0, 16⟩
def PWR_CAP_CFG_GAIN : Fld := ⟨0, 6⟩
def PWR_CAP_CFG_ATTR : Fld := ⟨6, 1⟩
def PWR_CAP_CFG_TRIM : Fld := ⟨7, 1⟩
def PWR_DROOP_CFG_THRESH : Fld := ⟨0, 4⟩
def PWR_THERM_CFG_THROTTLE_C : Fld := ⟨0, 8⟩
def PWR_THERM_CFG_TRIP_C : Fld := ⟨8, 8⟩
def PWR_THERM_CFG_HBM_THROTTLE_C : Fld := ⟨16, 8⟩
def PWR_THERM_CFG_HBM_TRIP_C : Fld := ⟨24, 8⟩
def PWR_THERM_STAT_HOT_J : Fld := ⟨0, 8⟩
def PWR_THERM_STAT_HOT_HBM : Fld := ⟨8, 8⟩
def PWR_THERM_STAT_INLET : Fld := ⟨16, 8⟩
def PWR_THERM_STAT_OUTLET : Fld := ⟨24, 8⟩
def PWR_PHASES_CORE : Fld := ⟨0, 4⟩
def PWR_PHASES_HBM : Fld := ⟨4, 3⟩
def PWR_PHASES_EYE : Fld := ⟨7, 3⟩
def PWR_PHASES_SHANK : Fld := ⟨10, 2⟩
def PWR_CAP_P_CAP_W : Fld := ⟨0, 16⟩
def CLK_STATE_FREQ : Fld := ⟨0, 10⟩
def CLK_STATE_TARGET : Fld := ⟨10, 3⟩
def CLK_STATE_CHANGING : Fld := ⟨13, 1⟩
def CLK_STATE_PENDING : Fld := ⟨14, 1⟩
def CLK_STATE_FROZEN : Fld := ⟨15, 1⟩
def CLK_STATE_PLL_LOCK : Fld := ⟨16, 1⟩
def CLK_OP_OP : Fld := ⟨0, 3⟩
def CLK_RAMP_CFG_ENABLE : Fld := ⟨0, 1⟩
def CLK_RAMP_CFG_WAVE_GAP : Fld := ⟨8, 8⟩
def CLK_GATE_CFG_GATE_IDLE : Fld := ⟨0, 8⟩
def CLK_GATE_CFG_ENABLE : Fld := ⟨8, 1⟩
def MBX_STATUS_REQ_FULL : Fld := ⟨0, 1⟩
def MBX_STATUS_RSP_FULL : Fld := ⟨1, 1⟩
def MBX_STATUS_TIMEOUT : Fld := ⟨2, 1⟩
def MBX_STATUS_DROPPED : Fld := ⟨3, 1⟩
def MBX_STATUS_RSP_QUEUED : Fld := ⟨4, 5⟩
def MBX_STATUS_OVERFLOW : Fld := ⟨9, 1⟩
def MBX_TMO_REQ_TMO : Fld := ⟨0, 16⟩
def MBX_LOCK_OWNER : Fld := ⟨0, 16⟩
def MBX_LOCK_BREAK_BREAK : Fld := ⟨0, 16⟩
def DBL_C2H_RSP : Fld := ⟨0, 16⟩
def DBL_C2H_MASTER : Fld := ⟨16, 1⟩
def DBL_C2H_COOLANT : Fld := ⟨17, 1⟩
def DBL_C2H_FEED : Fld := ⟨18, 1⟩
def DBL_C2H_MASK_RSP : Fld := ⟨0, 16⟩
def DBL_C2H_MASK_MASTER : Fld := ⟨16, 1⟩
def DBL_C2H_MASK_COOLANT : Fld := ⟨17, 1⟩
def DBL_C2H_MASK_FEED : Fld := ⟨18, 1⟩
def EVG_Q_CFG_SIZE_LOG2 : Fld := ⟨0, 4⟩
def EVG_Q_CFG_ENABLE : Fld := ⟨4, 1⟩
def EVG_Q_CFG_MODE : Fld := ⟨5, 1⟩
def EVG_Q_PROD_COUNT : Fld := ⟨0, 16⟩
def EVG_Q_CONS_COUNT : Fld := ⟨0, 16⟩
def EVG_COAL_CFG_COAL_COUNT : Fld := ⟨0, 8⟩
def EVG_COAL_CFG_COAL_TIME_US : Fld := ⟨8, 16⟩
def EVG_TOP_PENDING_SOURCE : Fld := ⟨0, 11⟩
def EVG_TOP_PENDING_COUNT : Fld := ⟨11, 8⟩
def EVG_TOP_PENDING_VALID : Fld := ⟨31, 1⟩
def EVG_COMPLETE_SOURCE : Fld := ⟨0, 11⟩
def EVG_COMPLETE_SERVED : Fld := ⟨16, 8⟩
def EVG_GRP_CFG_HOLDOFF_US : Fld := ⟨0, 10⟩
def EVG_GRP_CFG_TARGET : Fld := ⟨10, 4⟩
def SEC_STATE_BOOTED : Fld := ⟨0, 2⟩
def SEC_STATE_ACTIVE : Fld := ⟨2, 2⟩
def SEC_STATE_PREVIOUS : Fld := ⟨4, 2⟩
def SEC_STATE_PENDING : Fld := ⟨6, 2⟩
def SEC_STATE_RECOVERY : Fld := ⟨8, 1⟩
def SEC_STATE_SCOPES : Fld := ⟨9, 3⟩
def SEC_STATE_UDS_LOCKED : Fld := ⟨12, 1⟩
def SEC_STATE_KEY : Fld := ⟨13, 2⟩
def SEC_STATE_REVOKED : Fld := ⟨16, 4⟩
def SEC_STATE_BAD : Fld := ⟨20, 3⟩
def REC_STATE_OWNER : Fld := ⟨0, 1⟩
def REC_STATE_DEV0_OK : Fld := ⟨1, 1⟩
def REC_STATE_DEV1_OK : Fld := ⟨2, 1⟩
def REC_STATE_CLEARING : Fld := ⟨3, 1⟩
def IDENT_START_STAGE : Fld := ⟨0, 4⟩
def IDENT_START_CAUSE : Fld := ⟨4, 4⟩
def IDENT_START_FAIL : Fld := ⟨8, 8⟩
def IDENT_START_READY_MS : Fld := ⟨16, 16⟩
def DBL_RESET_KIND : Fld := ⟨0, 3⟩
def DBL_RESET_KEY : Fld := ⟨16, 16⟩
def DBL_BAR2_BASE_BASE : Fld := ⟨0, 44⟩
def PWR_I3C_STATE_COOLANT_OK : Fld := ⟨0, 1⟩
def PWR_I3C_STATE_FAULT : Fld := ⟨1, 1⟩
def PWR_I3C_STATE_SHANK : Fld := ⟨2, 1⟩
def PWR_I3C_STATE_RAILS : Fld := ⟨3, 1⟩
def PWR_I3C_STATE_MSTATE : Fld := ⟨4, 3⟩
def PWR_I3C_STATE_INPUT_FAULT : Fld := ⟨7, 1⟩
def PWR_I3C_STATE_STAGE : Fld := ⟨8, 4⟩
def PWR_MIR_INPUT_VOLT : Fld := ⟨0, 16⟩
def PWR_MIR_INPUT_POWER : Fld := ⟨16, 16⟩
def PWR_MIR_CAP_CAP : Fld := ⟨0, 16⟩
def PWR_MIR_CAP_SETPOINT : Fld := ⟨16, 16⟩
def PWR_MIR_STATE_MSTATE : Fld := ⟨0, 3⟩
def PWR_MIR_STATE_OP : Fld := ⟨3, 3⟩
def PWR_MIR_STATE_COOLANT_OK : Fld := ⟨6, 1⟩
def PWR_MIR_STATE_THROTTLE : Fld := ⟨7, 1⟩
def PWR_MIR_STATE_TRIP : Fld := ⟨8, 1⟩
def PWR_MIR_STATE_K_MOD : Fld := ⟨9, 6⟩
def PWR_MIR_STATE_RAIL_LIMITED : Fld := ⟨15, 1⟩
end Fld

end Sys2Proof.Machine
end

