-- ==== Sys2Proof/Machine/Sparse.lean ====
section
/-!
DEFINITION. Sparse data in one canonical form: keys strictly rising, no entry equal to what an unlisted key reads as.
Byte memories (`Host.Cell` lists), keyed tables and the register file are all held this way.
-/
namespace Sys2Proof.Machine

/-- The value at a key; an unlisted key reads as `d`. -/
def Sp.get {α : Type} (d : α) (m : List (Nat × α)) (k : Nat) : α :=
  match m.find? (fun p => p.1 == k) with
  | some p => p.2
  | none => d

/-- The map with the key's value replaced; writing `d` removes the entry. -/
def Sp.set {α : Type} [DecidableEq α] (d : α) (m : List (Nat × α)) (k : Nat) (v : α) : List (Nat × α) :=
  m.filter (fun p => decide (p.1 < k)) ++ (if v = d then [] else [(k, v)]) ++ m.filter (fun p => decide (k < p.1))

/-- The keys `lo` to `lo + n - 1` return to `d`. -/
def Sp.clear {α : Type} (m : List (Nat × α)) (lo n : Nat) : List (Nat × α) :=
  m.filter (fun p => decide (p.1 < lo)) ++ m.filter (fun p => decide (lo + n ≤ p.1))

/-- Keys strictly rising. -/
def Sp.sorted {α : Type} : List (Nat × α) → Bool
  | [] => true
  | [_] => true
  | p :: q :: r => decide (p.1 < q.1) && Sp.sorted (q :: r)

/-- The canonical form. -/
def Sp.wf {α : Type} [DecidableEq α] (d : α) (m : List (Nat × α)) : Bool :=
  Sp.sorted m && m.all (fun p => decide (p.2 ≠ d))

/-- A byte memory: what an unlisted address reads as is 0 (06 R230 for HBM after training; log entry 2 for the rest). -/
abbrev Mem := List Host.Cell

/-- One byte of a memory. -/
def Mem.byte (m : Mem) (a : Nat) : Byte := Sp.get 0 m a

/-- `n` bytes from an address. -/
def Mem.read (m : Mem) (a n : Nat) : List Byte := (List.range n).map (fun i => m.byte (a + i))

/-- The listed cells of a run of bytes at an address. -/
def Mem.cells : Nat → List Byte → Mem
  | _, [] => []
  | a, x :: xs => if x = 0 then Mem.cells (a + 1) xs else (a, x) :: Mem.cells (a + 1) xs

/-- The memory with a run of bytes stored at an address. -/
def Mem.write (m : Mem) (a : Nat) (xs : List Byte) : Mem :=
  m.filter (fun p => decide (p.1 < a)) ++ Mem.cells a xs ++ m.filter (fun p => decide (a + xs.length ≤ p.1))

/-- The canonical form of a memory. -/
def Mem.wf (m : Mem) : Bool := Sp.wf (0 : Byte) m

/-- A little-endian number (00 R6). -/
def leNat : List Byte → Nat
  | [] => 0
  | x :: xs => x.toNat + 256 * leNat xs

/-- The `n` little-endian bytes of a number. -/
def leBytes : Nat → Nat → List Byte
  | 0, _ => []
  | n + 1, v => BitVec.ofNat 8 v :: leBytes n (v / 256)

/-- A number of `n` bytes at an address. -/
def Mem.readNat (m : Mem) (a n : Nat) : Nat := leNat (m.read a n)

/-- A number stored in `n` bytes. -/
def Mem.writeNat (m : Mem) (a n v : Nat) : Mem := m.write a (leBytes n v)

/-- The register file: the registers whose value is not their reset value, in the order of their keys. -/
abbrev RegFile := List (RegRef × RegVal)

/-- A register's stored value. -/
def RegFile.get (m : RegFile) (r : RegRef) : RegVal :=
  match m.find? (fun p => decide (p.1 = r)) with
  | some p => p.2
  | none => r.reset

/-- The register file with one register replaced. -/
def RegFile.set (m : RegFile) (r : RegRef) (v : RegVal) : RegFile :=
  m.filter (fun p => decide (p.1.key < r.key)) ++ (if v = r.reset then [] else [(r, v)]) ++
    m.filter (fun p => decide (r.key < p.1.key))

/-- Register keys strictly rising. -/
def RegFile.sorted : RegFile → Bool
  | [] => true
  | [_] => true
  | p :: q :: r => decide (p.1.key < q.1.key) && RegFile.sorted (q :: r)

/-- The canonical form of the register file. -/
def RegFile.wf (m : RegFile) : Bool :=
  RegFile.sorted m && m.all (fun p => decide (p.2 ≠ p.1.reset))

/-- Bit `n` of a number, as a Bool. -/
def bitOf (v n : Nat) : Bool := v.testBit n

/-- The number with bit `n` set or cleared. -/
def setBit (v n : Nat) (x : Bool) : Nat :=
  if v.testBit n then (if x then v else v - 2 ^ n) else (if x then v + 2 ^ n else v)

/-- Bits `[lo + w - 1 : lo]` of a number. -/
def bits (v lo w : Nat) : Nat := v / 2 ^ lo % 2 ^ w

/-- A Bool as a bit. -/
def b2n (x : Bool) : Nat := if x then 1 else 0

/-- The least of two numbers used for a saturating counter of `w` bits. -/
def satAdd (w a n : Nat) : Nat := min (a + n) (2 ^ w - 1)

end Sys2Proof.Machine
end

