-- ==== Sys2Proof/Machine/Numbers.lean ====
section
/-!
DEFINITION. Number formats, conversions, rounding, the keyed random source, block scales and heritage arithmetic (R84 to R120).
Finite values are exact rationals; a sign goes with the magnitude so that both zeros are kept.
-/
namespace Sys2Proof.Machine

/-- A value of a format: a NaN, an infinity, or a sign and an exact magnitude. -/
inductive FVal where
  | nan
  | inf (neg : Bool)
  | fin (neg : Bool) (mag : Rat)
deriving DecidableEq, Repr

/-- The fifteen formats (R84). -/
inductive Fmt where
  | bf16 | fp16 | e5m2 | e4m3 | e3m2 | e2m3 | e2m1 | int8 | int4 | uint8 | int16 | e8m0 | ue4m3 | ext16 | acc32
deriving DecidableEq, Repr

/-- The format of a code; 0x00 is an untyped block. -/
def Fmt.ofCode (c : Nat) : Option Fmt :=
  [Fmt.bf16, .fp16, .e5m2, .e4m3, .e3m2, .e2m3, .e2m1, .int8, .int4, .uint8, .int16, .e8m0, .ue4m3, .ext16, .acc32][c - 1]?.filter
    (fun _ => decide (c ≠ 0))

def Fmt.code : Fmt → Nat
  | .bf16 => 1 | .fp16 => 2 | .e5m2 => 3 | .e4m3 => 4 | .e3m2 => 5 | .e2m3 => 6 | .e2m1 => 7 | .int8 => 8 | .int4 => 9
  | .uint8 => 10 | .int16 => 11 | .e8m0 => 12 | .ue4m3 => 13 | .ext16 => 14 | .acc32 => 15

/-- Element width in bits. -/
def Fmt.bits : Fmt → Nat
  | .bf16 | .fp16 | .int16 | .ext16 => 16
  | .e5m2 | .e4m3 | .int8 | .uint8 | .e8m0 | .ue4m3 => 8
  | .e3m2 | .e2m3 => 6
  | .e2m1 | .int4 => 4
  | .acc32 => 32

def Fmt.isInt : Fmt → Bool
  | .int8 | .int4 | .uint8 | .int16 => true
  | _ => false

/-- Exponent width, fraction width and bias of a floating-point format. -/
def Fmt.shape : Fmt → Nat × Nat × Int
  | .bf16 => (8, 7, 127) | .fp16 => (5, 10, 15) | .e5m2 => (5, 2, 15) | .e4m3 | .ue4m3 => (4, 3, 7) | .e3m2 => (3, 2, 3)
  | .e2m3 => (2, 3, 1) | .e2m1 => (2, 1, 1) | .acc32 => (8, 23, 127) | _ => (8, 7, 127)

/-- 2 to an integer power. -/
def pow2 (e : Int) : Rat := if 0 ≤ e then ((2 ^ e.toNat : Nat) : Rat) else 1 / ((2 ^ (-e).toNat : Nat) : Rat)

/-- The largest integer e with 2^e at most q, for q > 0. -/
def flog2 (q : Rat) : Int :=
  let g : Int := (Nat.log2 q.num.natAbs : Int) - (Nat.log2 q.den : Int)
  if pow2 (g + 1) ≤ q then g + 1 else if pow2 g ≤ q then g else g - 1

/-- The smallest integer e with q at most 2^e. -/
def clog2 (q : Rat) : Int := let f := flog2 q; if pow2 f = q then f else f + 1

/-- The largest finite magnitude (R84). -/
def Fmt.maxFin : Fmt → Rat
  | .bf16 => pow2 128 - pow2 120 | .fp16 => 65504 | .e5m2 => 57344 | .e4m3 | .ue4m3 => 448 | .e3m2 => 28 | .e2m3 => 15 / 2
  | .e2m1 => 6 | .int8 => 127 | .int4 => 7 | .uint8 => 255 | .int16 => 32767 | .e8m0 => pow2 127
  | .acc32 => pow2 128 - pow2 104 | .ext16 => 65535

/-- The canonical NaN of a format that has one (R86). -/
def Fmt.nan : Fmt → Nat
  | .bf16 => 0x7FC0 | .fp16 => 0x7E00 | .e5m2 | .e4m3 | .ue4m3 => 0x7F | .e8m0 => 0xFF | .acc32 => 0x7FC00000 | _ => 0

/-- A signed value of an exact rational. -/
def FVal.ofRat (q : Rat) : FVal := .fin (decide (q < 0)) q.abs

/-- The signed rational of a finite value. -/
def FVal.rat : FVal → Rat
  | .fin n m => if n then -m else m
  | _ => 0

def FVal.finite : FVal → Bool
  | .fin _ _ => true
  | _ => false

def FVal.neg? : FVal → Bool
  | .fin n _ => n
  | .inf n => n
  | .nan => false

def FVal.negate : FVal → FVal
  | .fin n m => .fin (!n) m
  | .inf n => .inf (!n)
  | .nan => .nan

/-- A zero of either sign. -/
def FVal.zero? : FVal → Bool
  | .fin _ m => decide (m = 0)
  | _ => false

/-- Two's complement of `w` bits. -/
def sint (w v : Nat) : Int := if v % 2 ^ w < 2 ^ (w - 1) then (v % 2 ^ w : Nat) else ((v % 2 ^ w : Nat) : Int) - (2 ^ w : Nat)

/-- The value of an encoding (R84, R89, R90). -/
def Fmt.decode (f : Fmt) (v : Nat) : FVal :=
  match f with
  | .int8 => .ofRat (sint 8 v) | .int4 => .ofRat (sint 4 v) | .int16 => .ofRat (sint 16 v)
  | .uint8 => .ofRat ((v % 256 : Nat) : Rat)
  | .ext16 => .ofRat ((v % 65536 : Nat) : Rat)
  | .e8m0 => if v % 256 = 255 then .nan else .fin false (pow2 ((v % 256 : Nat) - 127))
  | _ =>
    let (eb, mb, bias) := f.shape
    let neg := decide (v / 2 ^ (eb + mb) % 2 = 1)
    let e := v / 2 ^ mb % 2 ^ eb
    let m := v % 2 ^ mb
    if f = .ue4m3 ∧ neg then .nan
    else if e = 2 ^ eb - 1 ∧ (f = .bf16 ∨ f = .fp16 ∨ f = .e5m2 ∨ f = .acc32) then (if m = 0 then .inf neg else .nan)
    else if (f = .e4m3 ∨ f = .ue4m3) ∧ e = 15 ∧ m = 7 then .nan
    else if e = 0 then .fin neg (((m : Nat) : Rat) * pow2 (1 - bias - mb))
    else .fin neg (((2 ^ mb + m : Nat) : Rat) * pow2 ((e : Int) - bias - mb))

/-- The encoding of a finite magnitude that the floating-point format represents. -/
def Fmt.encodeExact (f : Fmt) (neg : Bool) (q : Rat) : Nat :=
  let (eb, mb, bias) := f.shape
  let s := if neg then 2 ^ (eb + mb) else 0
  if q = 0 then s
  else
    let e := flog2 q
    if e < 1 - bias then s + (q / pow2 (1 - bias - mb)).floor.toNat
    else s + (e + bias).toNat * 2 ^ mb + ((q / pow2 (e - mb)).floor.toNat - 2 ^ mb)

/-- How a value between two neighbours is chosen: to nearest with ties to even, toward zero, or by a 12-bit field (R101). -/
inductive Rnd where
  | near
  | zero
  | up
  | stoch (r : Nat)
deriving DecidableEq, Repr

/-- A magnitude in units of the last place brought to an integer. -/
def Rnd.units (k : Rnd) (u : Rat) : Nat :=
  let a := u.floor.toNat
  let fr := u - (a : Rat)
  if fr = 0 then a
  else match k with
    | .near => if fr < 1 / 2 then a else if 1 / 2 < fr then a + 1 else if a % 2 = 0 then a else a + 1
    | .zero => a
    | .up => a + 1
    | .stoch r => if r < (4096 * fr).floor.toNat then a + 1 else a

/-- A magnitude rounded to a format's fraction width, ignoring its upper limit. -/
def Fmt.roundMag (f : Fmt) (k : Rnd) (q : Rat) : Rat :=
  if q = 0 then 0
  else
    let (_, mb, bias) := f.shape
    let u := pow2 (max (flog2 q) (1 - bias) - mb)
    ((k.units (q / u) : Nat) : Rat) * u

/-- A value rounded into BF16, FP16 or binary32 (R98): above the largest finite value, infinity; toward zero, the largest
finite value. -/
def Fmt.roundVal (f : Fmt) (k : Rnd) : FVal → FVal
  | .nan => .nan
  | .inf n => .inf n
  | .fin n m =>
    let q := f.roundMag k m
    if f.maxFin < q then (if k = .zero then .fin n f.maxFin else .inf n) else .fin n q

/-- A value of a format encoded; it must be one that the format represents. -/
def Fmt.encode (f : Fmt) : FVal → Nat
  | .nan => f.nan
  | .inf n => let (eb, mb, _) := f.shape; (if n then 2 ^ (eb + mb) else 0) + (2 ^ eb - 1) * 2 ^ mb
  | .fin n m => f.encodeExact n m

/-- The sticky flags that a conversion sets. -/
structure CFlags where
  sat       : Bool := false
  nonfinite : Bool := false
deriving DecidableEq, Repr

def CFlags.or (a c : CFlags) : CFlags := ⟨a.sat || c.sat, a.nonfinite || c.nonfinite⟩

/-- An integer in a two's complement or unsigned format of `w` bits. -/
def intBits (w : Nat) (i : Int) : Nat := (i % (2 ^ w : Nat)).toNat

/-- A conversion into a format (R97 to R100), with rounding `k` where a float is narrowed. EXT16, E8M0 and UE4M3 are not
destinations of R97. -/
def Fmt.conv (f : Fmt) (k : Rnd) (x : FVal) : Nat × CFlags :=
  match f with
  | .int8 | .int4 =>
    let lim : Int := if f = .int8 then 127 else 7
    match x with
    | .nan => (0, ⟨false, true⟩)
    | .inf n => (intBits f.bits (if n then -lim else lim), ⟨true, true⟩)
    | .fin n m =>
      let i : Int := (k.units m : Nat)
      (intBits f.bits (if n then -(min i lim) else min i lim), ⟨decide (lim < i), false⟩)
  | .uint8 | .int16 =>
    let hi : Int := if f = .uint8 then 255 else 32767
    let lo : Int := if f = .uint8 then 0 else 32768
    match x with
    | .nan => (0, ⟨false, true⟩)
    | .inf n => (intBits f.bits (if n then -lo else hi), ⟨true, true⟩)
    | .fin n m =>
      let i : Int := m.floor
      if n then (intBits f.bits (-(min i lo)), ⟨decide (lo < i), false⟩) else (intBits f.bits (min i hi), ⟨decide (hi < i), false⟩)
  | .bf16 | .fp16 | .acc32 =>
    (f.encode (f.roundVal k x), ⟨false, !x.finite⟩)
  | _ =>
    match x with
    | .nan => (f.nan, ⟨false, true⟩)
    | .inf n => (if f = .e5m2 then f.encode (.inf n) else f.nan, ⟨false, true⟩)
    | .fin n m =>
      if f.maxFin < m then (f.encodeExact n f.maxFin, ⟨true, false⟩)
      else (f.encodeExact n (min (f.roundMag k m) f.maxFin), {})

/-- Binary32 rounded to nearest with ties to even. -/
def f32 (x : FVal) : FVal := Fmt.acc32.roundVal .near x

/-! ### Packing of elements in memory (R85) -/

/-- Elements of a format in one 4 KiB block. -/
def Fmt.perBlock (f : Fmt) : Nat := if f.bits = 6 then 5460 else 32768 / f.bits

/-- Element `i` of a run of bytes. -/
def Fmt.getElem (f : Fmt) (xs : Nat → Byte) (i : Nat) : Nat :=
  let by_ (j : Nat) : Nat := (xs j).toNat
  match f.bits with
  | 4 => by_ (i / 2) / 16 ^ (i % 2) % 16
  | 6 => let g := 3 * (i / 4); Sys2Proof.Machine.bits (by_ g + 256 * by_ (g + 1) + 65536 * by_ (g + 2)) (6 * (i % 4)) 6
  | 8 => by_ i
  | 16 => by_ (2 * i) + 256 * by_ (2 * i + 1)
  | _ => by_ (4 * i) + 256 * by_ (4 * i + 1) + 65536 * by_ (4 * i + 2) + 16777216 * by_ (4 * i + 3)

/-- Elements packed into bytes. -/
def Fmt.pack (f : Fmt) (es : List Nat) : List Byte :=
  let n := (es.length * f.bits + 7) / 8
  leBytes n (es.zipIdx.foldl (fun a p => a + p.1 % 2 ^ f.bits * 2 ^ (f.bits * p.2)) 0)

/-! ### The keyed random source (R103 to R105) -/

/-- Philox 4x32, ten rounds: the 128-bit result of a counter and a key. -/
def philoxRounds : Nat → Nat × Nat × Nat × Nat → Nat × Nat → Nat
  | 0, (a, c, d, e), _ => a + 2 ^ 32 * c + 2 ^ 64 * d + 2 ^ 96 * e
  | n + 1, (a, c, d, e), (k0, k1) =>
    let p0 := 0xD2511F53 * a
    let p1 := 0xCD9E8D57 * d
    philoxRounds n (p1 / 2 ^ 32 ^^^ c ^^^ k0, p1 % 2 ^ 32, p0 / 2 ^ 32 ^^^ e ^^^ k1, p0 % 2 ^ 32)
      ((k0 + 0x9E3779B9) % 2 ^ 32, (k1 + 0xBB67AE85) % 2 ^ 32)

def philox (key c0 c1 c2 c3 : Nat) : Nat := philoxRounds 10 (c0, c1, c2, c3) (key % 2 ^ 32, key / 2 ^ 32 % 2 ^ 32)

/-- What a random draw depends on beside the element. -/
structure Draw where
  key     : Nat
  s       : Nat
  tag     : Nat
  purpose : Nat
  inst    : Nat
deriving DecidableEq, Repr

/-- The 12-bit field of logical element L (R104). -/
def Draw.field (d : Draw) (l : Nat) : Nat :=
  let blk := l / 1024
  let e := l % 1024
  let g := e / 10
  bits (philox d.key (d.s % 2 ^ 32) (d.tag % 65536 + 65536 * (d.purpose % 256) + 2 ^ 24 * (d.inst % 256)) (blk % 2 ^ 32)
    (g + 128 * (blk / 2 ^ 32 % 64))) (12 * (e - 10 * g)) 12

/-! ### Block scales (R91, R107 to R109) -/

/-- The value of a scaled element (R91): element, block scale, per-tensor scale; under a block scale of zero the zero follows the element's sign alone. -/
def scaled (x s t : FVal) : FVal :=
  match s, t with
  | _, .nan => .nan
  | _, .inf _ => .nan
  | .nan, _ => .nan
  | .inf _, _ => .nan
  | .fin _ sm, .fin tn tm =>
    match x with
    | .nan => .nan
    | .inf n => if sm = 0 then .fin (n ^^ tn) 0 else .inf (n ^^ tn)
    | .fin n m => if sm = 0 then .fin n 0 else .fin (n ^^ tn) (m * sm * tm)

/-- The largest finite magnitude of a run. -/
def amaxOf (xs : List FVal) : Rat :=
  xs.foldl (fun a x => match x with | .fin _ m => max a m | _ => a) 0

/-- The exponent of an E8M0 block scale (R107, R108). -/
def mxExp (f : Fmt) (amax : Rat) : Int := if amax = 0 then 0 else max (-127) (min 127 (clog2 (amax / f.maxFin)))

/-- A block cast under an E8M0 scale: scale byte, elements, flags, and how many finite non-zero sources were written as zero
(R99, R107, R108, R124). `r` gives the rounding of the i-th element. -/
def castMx (f : Fmt) (xs : List FVal) (r : Nat → Rnd) : Nat × List Nat × CFlags × Nat :=
  if xs.any (fun x => !x.finite) then
    (0xFF, xs.map (fun _ => 0), ⟨false, true⟩, 0)
  else
    let e := mxExp f (amaxOf xs)
    let ys := xs.zipIdx.map (fun p => f.conv (r p.2) (scaled p.1 (.fin false (pow2 (-e))) (.fin false 1)))
    ((e + 127).toNat, ys.map (·.1), ys.foldl (fun a y => a.or y.2) {},
      ((xs.zip ys).filter (fun p => !p.1.zero? && (f.decode p.2.1).zero?)).length)

/-- The per-tensor scale of E2M1 (R109): amax / 2688 rounded up to BF16. -/
def tscaleOf (amax : Rat) : Nat :=
  if amax = 0 then 0x3F80 else Fmt.bf16.encode (Fmt.bf16.roundVal .up (.fin false (amax / 2688)))

/-- The block scale of E2M1 (R109). -/
def fineScale (amax t : Rat) : Nat :=
  if amax = 0 then 0 else Fmt.ue4m3.encodeExact false (min 448 (max (pow2 (-9)) (Fmt.ue4m3.roundMag .up (amax / (6 * t)))))

/-- A block of 16 cast to E2M1 under a per-tensor scale `t` (BF16 bits). -/
def castFine (t : Nat) (xs : List FVal) (r : Nat → Rnd) : Nat × List Nat × CFlags × Nat :=
  if xs.any (fun x => !x.finite) then
    (0x7F, xs.map (fun _ => 0), ⟨false, true⟩, 0)
  else
    let tv := (Fmt.bf16.decode t).rat
    let sc := fineScale (amaxOf xs) tv
    let d := (Fmt.ue4m3.decode sc).rat * tv
    let ys := xs.zipIdx.map (fun p => Fmt.e2m1.conv (r p.2)
      (match p.1 with | .fin n m => if d = 0 then .fin n 0 else .fin n (m / d) | x => x))
    (sc, ys.map (·.1), ys.foldl (fun a y => a.or y.2) {},
      ((xs.zip ys).filter (fun p => !p.1.zero? && (Fmt.e2m1.decode p.2.1).zero?)).length)

/-! ### Heritage arithmetic (R118 to R120) -/

/-- Arithmetic of a product or reduction: the HERITAGE field. -/
inductive Herit where
  | native | miomel | benium
deriving DecidableEq, Repr

def Herit.ofCode : Nat → Option Herit
  | 0 => some .native | 1 => some .miomel | 2 => some .benium | _ => none

/-- A subnormal heritage operand read as zero of its sign. -/
def heritIn (f : Fmt) : FVal → FVal
  | .fin n m => if m < pow2 (1 - f.shape.2.2) then .fin n 0 else .fin n m
  | x => x

/-- Signed sum of two finite values rounded; an exact zero sum takes the sign both share, else +0. -/
def addRnd (f : Fmt) (k : Rnd) (x y : FVal) : FVal :=
  match x, y with
  | .nan, _ | _, .nan => .nan
  | .inf a, .inf c => if a = c then .inf a else .nan
  | .inf a, _ => .inf a
  | _, .inf a => .inf a
  | .fin a p, .fin c q =>
    let s := (FVal.fin a p).rat + (FVal.fin c q).rat
    if s = 0 then .fin (a && c) 0 else f.roundVal k (.ofRat s)

/-- The Benium addition: toward zero, results below 2^-126 written as +0 (R119, R120). -/
def addBenium (x y : FVal) : FVal :=
  match addRnd .acc32 .zero x y with
  | .fin n m => if m < pow2 (-126) then .fin false 0 else .fin n m
  | z => z

/-- One Miomel group of exact products (R118 steps 4 and 5): the group value. -/
def miomelGroup (ps : List FVal) : FVal :=
  let top := pow2 (flog2 (amaxOf ps) - 25)
  let sum := ps.foldl (fun a p => match p with
    | .fin n m => let t := (((m / top).floor : Int) : Rat) * top; if n then a - t else a + t
    | _ => a) (0 : Rat)
  if sum = 0 then .fin false 0 else f32 (.ofRat sum)

end Sys2Proof.Machine
end

