-- ==== Sys2Proof/Machine/TypesCore.lean ====
section
/-!
DEFINITION. Core state (chapters 02 and 05): core buffers, accumulator banks, the witness unit.
-/
namespace Sys2Proof.Machine

/-- What the witness holds of one word of a sampled accumulation (R121): the exact sum of the products W (or its non-finite value,
R59), the exact sum of magnitudes A, bands and groups counted, the int32 word of an integer pair. -/
structure WitWord where
  w  : FVal
  a  : Rat
  nb : Nat
  ng : Nat
  k  : Nat
  i  : Int
deriving DecidableEq, Repr

/-- The sample in progress of a cluster's witness unit (R205 to R207): where it was taken, its arithmetic (0 native float, 1 Miomel, 2
Benium, 3 integer), the words of its columns by `128 * row + column`, the words captured when the accumulation completed, the micro-batch and SHARED bit of its last entry, the lines that the tap has copied, and the
descriptors that it has followed. -/
structure WitSample where
  core   : Nat
  array  : Nat
  bank   : Nat
  half   : Nat
  split  : Bool
  arith  : Nat
  words  : List (Nat × WitWord)
  final  : List (Nat × BitVec 32)
  closed : Bool
  mb     : Nat
  shared : Bool
  tapped : Nat := 0
  ids    : List Nat := []
deriving DecidableEq, Repr

/-- Arrays and core buffers. A core is `5 * cluster + c`, a bank `8 * core + 2 * array + bank`. `cb` by `core * 2^22 + address`; line
summaries by `core * 2^14 + line` (bit 0 poison mark, bit 1 that ALLZERO is clear, bit 2 NONFIN); accumulator words by `bank * 2^14 + 128 * m + c`;
row poison by `bank * 2^8 + 2 * m + half`; bank states by `2 * bank + half` (0 FREE, 1 ARRAY, 2 VECTOR); `accCnt` the accumulations
started per schedule core in the attempt (R205). -/
structure Cores where
  cb      : Mem
  lines   : List (Nat × Nat)
  acc     : List (Nat × BitVec 32)
  rowPois : List (Nat × Nat)
  rowMask : List (Nat × Nat)
  banks   : List (Nat × Nat)
  accCnt  : List (Nat × Nat)
  samples : List (Nat × WitSample)
deriving DecidableEq, Repr

/-- A vector program that runs on a core (R137, R138): its cluster, the descriptor's fields, the iteration and position, the flags
raised, whether a poisoned row was read, the lines stored, the recompute mark (R183), the result word once it has ended, and SEQ_VEC_FAULT as it was `before` a trap. -/
structure Vrun where
  cl      : Nat
  split   : Bool
  half    : Nat
  pvl0    : Nat
  prc0    : Nat
  trapEn  : Nat
  diag    : Bool
  base    : Nat
  len     : Nat
  iters   : Nat
  ctx     : Nat
  tag     : Nat
  i       : Nat
  pc      : Nat
  flags   : Nat
  poison  : Bool
  stored  : List Nat
  recomp  : Bool
  waiting : Bool
  result  : Option Nat
  before  : Nat := 0
deriving DecidableEq, Repr

/-- The vector engines: tile words by `core * 2^16 + T * 2^11 + 128 * r + l`, tile row poison by `core * 2^9 + T * 16 + r`, predicate
bits by `core * 2^14 + P * 2^11 + 128 * r + l`, the present shape (PVL - 1 and PRC - 1) and the running program by core;
`mrow` tile rows that hold elements of rows masked in the arrays (R124, log entry 203), by the keys of the poison. -/
structure Vec where
  tiles : List (Nat × BitVec 32)
  pois  : List (Nat × Nat)
  preds : List (Nat × Nat)
  pvl   : List (Nat × Nat)
  prc   : List (Nat × Nat)
  runs  : List (Nat × Vrun)
  mrow  : List (Nat × Nat)
deriving DecidableEq, Repr

/-- An entry of a cluster's stash table (R192, R193): its slot, the policy used (0 KEEP, 1 OFFLOAD, 2 RECOMPUTE), where its blocks lie,
their count and tag, and its recompute segment. -/
structure StashEnt where
  slot   : Nat
  policy : Nat
  addr   : Nat
  blocks : Nat
  tag    : Nat
  seg    : Nat
  segLen : Nat
deriving DecidableEq, Repr

/-- The stash engines (R191 to R196): entries by `4096 * cluster + entry`; bytes of the insole region and blocks of the off-load region
in use by `16 * cluster + slot`; clusters whose remaining KEEP saves of the forward pass use their fallback; clusters that used one. -/
structure Stash where
  ents   : List (Nat × StashEnt)
  insUse : List (Nat × Nat)
  hbmUse : List (Nat × Nat)
  swtch  : Nat
  fell   : Nat
deriving DecidableEq, Repr

end Sys2Proof.Machine
end

