-- ==== Sys2Proof/Machine/TypesHbm.lean ====
section
/-!
DEFINITION. HBM and insole state (chapters 05 and 06): bytes, aglets, row tracker, repairs.
-/
namespace Sys2Proof.Machine

/-- An entry of a stack's row tracker (R236): the logical row, its corrected errors, and that the count has reached CE_THRESH (R237). Entries stand oldest first. -/
structure TrackRow where
  row   : Nat
  count : Nat
  hit   : Bool
deriving DecidableEq, Repr

/-- A repair or map-out of the repair record (R237): the logical row, the action (1 first repair, 2 second repair, 3 map-out),
and whether hard post-package repair has made it permanent (R238). -/
structure RepairRec where
  row    : Nat
  action : Nat
  hard   : Bool
deriving DecidableEq, Repr

/-- The HBM stacks. Bytes are kept by `pc * 2^30 + 4096 * local + offset` and aglets by `pc * 2^18 + local` (R215); a logical row
is `(pc * 64 + bank) * 2^18 + row`. `due` are repairs decided and not yet done, `relaying` the pseudo-channels that the
re-lay under way moves out, `chFailed` channels that failed training by stack, `scrubbed` blocks patrolled by
pseudo-channel, `spares` the spare rows used by bank. -/
structure Hbm where
  data     : Mem
  aglets   : List (Nat × BitVec 128)
  track    : List (Nat × List TrackRow)
  rowFail  : List (Nat × Nat)
  spares   : List (Nat × Nat)
  records  : List (Nat × List RepairRec)
  due      : List RepairRec
  relaying : List Nat
  chFailed : List (Nat × Nat)
  scrubbed : List (Nat × Nat)
deriving DecidableEq, Repr

/-- A block of the HBM as a command names it: in the firmware region or in the address map. -/
structure HbmAt where
  fw  : Bool
  blk : Nat
deriving DecidableEq, Repr

/-- The insoles of the clusters: bytes by `cl * 2^27 + address`, aglets by `cl * 2^15 + block` (R166). -/
structure Insole where
  data   : Mem
  aglets : List (Nat × BitVec 128)
deriving DecidableEq, Repr

end Sys2Proof.Machine
end

