-- ==== Sys2Proof/Machine/TypesSys.lean ====
section
/-!
DEFINITION. The state of the management side as plain data: package, event gatherer, recorder, boot and security,
mailboxes and long operations, units, power and clocks, pins (chapters 01, 10, 12 to 17).
-/
namespace Sys2Proof.Machine

/-- The five part numbers of R2. -/
inductive Sku where
  | c4s24 | c4s20s | c4s16 | c2s12 | c2s8
deriving DecidableEq, Repr

/-- One record of the event recorder (R536). `data` has 28 bytes. -/
structure RecEntry where
  seq    : Nat
  shank  : DWord
  code   : Nat
  die    : Nat
  late   : Bool
  holder : Bool
  unit   : Nat
  part   : Nat
  s      : Nat
  data   : List Byte
  boot   : Nat
deriving DecidableEq, Repr

/-- The event recorder (R534 to R538). The two MRAM devices hold records by slot; the index is kept through every reset.
`held` is each die's retention buffer of entries for an unreachable owner, `lost` what did not fit. -/
structure Recorder where
  owner     : Nat
  dev0      : List (Nat × RecEntry)
  dev1      : List (Nat × RecEntry)
  nextSeq   : Nat
  oldestSeq : Nat
  cleared   : Nat
  bootCnt   : Nat
  held      : List (Nat × List RecEntry)
  lost      : List (Nat × Nat)
deriving DecidableEq, Repr

/-- The event gatherers (chapter 14), each by `die * 2048 + source`, `die * 64 + group` or port `die * 16 + target`
(target 0 cobbler, 1 physical function, 2 to 9 virtual functions 1 to 8). -/
structure Evg where
  cnt       : List (Nat × Nat)
  level     : List (Nat × Nat)
  presented : List (Nat × Nat)
  holdoff   : List (Nat × Nat)
  armed     : List (Nat × Nat)
  full      : List (Nat × Nat)
  seq       : List (Nat × Nat)
  coal      : List (Nat × Nat)
  cobQueue  : List (Nat × BitVec 128)
  msix      : List (Nat × Nat)
deriving DecidableEq, Repr

/-- The slot selector of the boot NOR (R513): slot numbers with 3 for none, and per slot a failure count, a BAD bit and
an SVN. -/
structure Selector where
  seq      : Nat
  active   : Nat
  previous : Nat
  pending  : Nat
  fails    : List Nat
  bad      : List Bool
  svn      : List Nat
deriving DecidableEq, Repr

/-- What the boot configuration section holds (R513): module-role overrides as (die, edge, memory modules, eyelet modules),
the seat allow-list as (vendor, device), WLT_HB_CFG and up to four unlock-key hashes. -/
structure BootCfg where
  roles  : List (Nat × Nat × Nat × Nat)
  seats  : List (Nat × Nat)
  hb     : Nat
  unlock : List (BitVec 256)
deriving DecidableEq, Repr

/-- Fuses, boot NOR and the security state of IOD0 (R511, R513, R524 to R532). `sel` are the two selector copies;
`failed` the two copies of the failed-unit list; `aliasCert` the alias public key (its digest) of each slot's cached certificate. `pendCold` is the ACTIVATE choice of the pending
image (true: at a cold reset), `pendBad` that a PENDING slot was marked BAD since the last boot good, `candFails` the slots
that failed at this boot, first to last. -/
structure Sec where
  vendorKeys : List (BitVec 256)
  revoked    : List Bool
  uds        : BitVec 256
  svn        : Nat
  udsLocked  : Bool
  nor        : Mem
  selA       : Selector
  selB       : Selector
  failedA    : List Nat
  failedB    : List Nat
  aliasCert  : List (Nat × BitVec 256)
  booted     : Nat
  recovery   : Bool
  bootCfg    : BootCfg
  fwVersion  : Nat
  candFails  : List Nat
  pendBad    : Bool
  pendCold   : Bool
  watchdog   : Bool
  nonce      : Option (BitVec 256)
  scopes     : Nat
  grantKey   : Nat
  unlocked   : Bool
  key        : Nat
  aliasSeed  : List Byte
deriving DecidableEq, Repr

/-- The states of a long operation (R479). -/
inductive OpState where
  | queued | running | suspended | complete | cancelled | failed
deriving DecidableEq, Repr

/-- The long commands (R473), and SECURE_STATE by its modes. -/
inductive OpKind where
  | loadLast | unloadLast | runSteps | replayStep | reshard | secure | export_ | restore | awlTest | scrub | fwUpdate | attest
deriving DecidableEq, Repr

/-- A suspension that is pending or in force (R481). -/
inductive Susp where
  | none | boundary | now
deriving DecidableEq, Repr

/-- One long operation of the op table (R460, R478 to R480), with the fields of its request that it still needs. `ended` says
that its work has ended and its completion record is not yet committed; `result` is the notice's result by byte offset. -/
structure LongOp where
  handle   : Nat
  fn       : Nat
  mbx      : Nat
  kind     : OpKind
  part     : Nat
  st       : OpState
  status   : Nat := 0
  detail   : Nat := 0
  progress : Nat := 0
  susp     : Susp := .none
  ended    : Bool := false
  result   : List (Nat × Nat × Nat) := []
  steps    : Nat := 0
  until_   : Bool := false
  done     : Nat := 0
  ring     : Nat := 0
  entries  : Nat := 0
  consAddr : Nat := 0
  source   : Nat := 0
  layers   : Nat := 0
  s        : Nat := 0
  k        : Nat := 0
  scatter  : Nat := 0
  nScatter : Nat := 0
  first    : Nat := 0
  blocks   : Nat := 0
  corr     : Nat := 0
  pois     : Nat := 0
  units    : List Nat := []
  nibbles  : List Nat := []
  activate : Nat := 0
  nonce    : BitVec 256 := 0
  slot     : Nat := 3
  epoch    : Nat := 0
  buf      : List Byte := []
deriving DecidableEq, Repr

/-- Mailboxes, locks and the op table (chapter 13). Host mailbox m of function f is number `16 f + m`; buffers are by
`256 * number + byte`. A listed message of the inner mailboxes has FULL set. `lastSeq` is the recorded SEQUENCE and response
of each mailbox. -/
structure Mbx where
  req      : Mem
  rsp      : Mem
  rspQueue : List (Nat × List (List Byte))
  lastSeq  : List (Nat × Nat × List Byte)
  cobbler  : List (Nat × List Byte)
  cluster  : List (Nat × List Byte)
  dieBell  : List (Nat × Nat)
  dieMask  : List (Nat × Nat)
  ops      : List LongOp
  retired  : List Nat
  serial   : Nat
deriving DecidableEq, Repr

/-- Why a test of a unit was requested (AWL_LAST TRIGGER). -/
inductive TestTrigger where
  | fault | witness | health | command | disagreement | startup
deriving DecidableEq, Repr

/-- One queued or running awl test: the unit by its identifier (R377), its trigger, the role it had, whether it waits
for a closing (R393), and whether a handover moved the core's work away before the test (R394). -/
structure TestReq where
  unit     : Nat
  trigger  : TestTrigger
  prevRole : Nat
  deferred : Bool
  moved    : Bool := false
deriving DecidableEq, Repr

/-- Units and awl tests (chapter 10). The state words' home is AWL_UNIT_n; `table` is the cobbler's own table by unit
identifier; `passed` the units whose last test passed and which have not returned yet; `sched` the physical core that
serves each schedule core (by `5 * cluster + core`, default itself, R583; the value is the core number + 1); `drain` the units fenced for a
disagreement whose work in flight drains, with the role their word showed, and `regWait` the shared registers, with the values the last gives, whose difference drains a unit (R402, R403); `faultAt` the SHANK times of the
faults that FAULTS counts, oldest first, as (unit, time) (R380, R414); `badBlk` blocks bad at their source: poisoned by a scrub in the held half, or faulty again in the replay of a path fault (R401, R382);
`owed` the sequencer faults of discarded descriptors whose counters already read 0, not yet treated, as (cluster, micro-batch, SHARED) (R258). -/
structure Units where
  table    : List (Nat × Nat)
  queue    : List TestReq
  running  : List TestReq
  passed   : List Nat
  sched    : List (Nat × Nat)
  noStand  : List Nat
  badBlk   : List Nat
  drain    : List (Nat × Nat)
  regWait  : List (Nat × RegRef × Nat)
  faultAt  : List (Nat × Nat) := []
  owed     : List (Nat × Nat × Bool) := []
deriving DecidableEq, Repr

/-- Droop of one cluster (R444). -/
inductive Droop where
  | none | hold | taper
deriving DecidableEq, Repr

/-- Power, clocks and thermal state beside the PWR_ and CLK_ registers (chapter 12). Voltages in mV by die, fractions exact.
`underUs`, `overUs` are the samples in a row below 42 V and above 60 V;
`rails` the rails off by die (bits 0 core, 1 HBM, 2 eyelets), `trimOff` and `thermOff` what the set point is lowered by (mW), `tripCnt` samples in a row at
or above a trip threshold by sensor, `warned` sensors at or above their warning, `mv` VCORE_CD by die (mV), `droop` 1 hold or 2 taper by cluster, `bubble` k by array
(`4 * core + array`), `railLim` the lowest code a die's rails permit, `energyPj` the input energy below 1 mJ, `attrNj` the attributed energy below 1 mJ, `waking` that the wake from DOZE is under way. A sensor is a
cluster, 36 + 2 (d - 4) + n on I/O die d, 48 + stack, 80 inlet or 81 outlet. -/
structure Pwr where
  inputMv   : Nat
  inputMa   : Nat
  underUs   : Nat
  overUs    : Nat
  vshank    : Bool
  rails     : List (Nat × Nat)
  fault     : Bool
  inputFlt  : Bool
  fMod      : Rat
  fPart     : List (Nat × Rat)
  trimOff   : Nat
  thermOff  : Nat
  limited   : Bool
  throttled : Bool
  tripCnt   : List (Nat × Nat)
  warned    : List (Nat × Nat)
  tripped   : Bool
  coolStop  : Bool
  wait      : Bool
  scale     : Rat
  mv        : List (Nat × Nat)
  hostOp    : Nat
  droop     : List (Nat × Nat)
  bubble    : List (Nat × Nat)
  railLim   : List (Nat × Nat)
  energyMj  : Nat
  energyPj  : Nat
  attrNj    : List (Nat × Nat)
  doze      : Bool
  waking    : Bool
  mirLatch  : Word
  i3cLatch  : Word
  shutOff   : Nat
deriving DecidableEq, Repr

/-- Pins and the host link (chapter 17): levels of COOLANT_OK and PERST_N, CBL_PRES_N per connector (true when grounded),
I3C dynamic address, the PCIe link. -/
structure Pins where
  coolantOk : Bool
  perst     : Bool
  cable     : List (Nat × Nat)
  i3cDyn    : Option Nat
  linkUp    : Bool
  linkWidth : Nat
  linkRate  : Nat
  linkFails : Nat
  linkHeld  : Bool
  bar2Log2  : Nat
deriving DecidableEq, Repr

/-- What the open seat's die shows when its edges train (R23): nothing at all, or its identifiers, the highest common rate code,
the modules trained on CD1's and CD3's east edges, and whether it offers 256-byte streaming flits. -/
structure SeatInfo where
  vendor : Nat
  device : Nat
  rate   : Nat
  modsE1 : Nat
  modsE3 : Nat
  stream : Bool
deriving DecidableEq, Repr

/-- The package (chapter 01): fused identity words by position, the SERIALs recorded at the last package reset, the links of
each die that train, dies lost, rejoined or withdrawn as masks by position code, cobbler heartbeat misses by
`16 * observer + other` and silent heartbeat intervals by `1024 + 16 * observer + neighbour`. `done` says which concurrent start-up stages have ended (bit 0 MEMORY, bit 1 TEST),
`armed` is the value of an armed DBL_RESET, `resetDue` the CAUSE of a reset asked for and not yet carried out, `seatBell` the seat doorbells,
`hostStrap` and `flashStrap` the positions whose die reads HOST_STRAP and FLASH_STRAP (R13), `fellBack` the lost dies for which a fallback variant has been clicked (R41), `routeDue` a loss
after which the master has not yet installed its routes (R38). -/
structure Pkg where
  sku       : Sku
  ident     : List (Nat × BitVec 128)
  serials   : List (Nat × Nat)
  answered  : Nat
  lost      : Nat
  rejoined  : Nat
  late      : Nat
  withdrawn : Nat
  heldReset : Nat
  missed    : List (Nat × Nat)
  claimed   : Nat
  seatDown  : Bool
  seatBase  : Nat
  seatSize  : Nat
  seatTag   : Nat
  weltFast  : Bool
  done      : Nat
  armed     : Nat
  resetDue  : Nat
  seatBell  : Nat
  shankOnly : Bool
  hostStrap : Nat
  flashStrap : Nat
  fellBack  : Nat
  seatMods  : Nat
  seatRate  : Nat
  routeDue  : Bool
deriving DecidableEq, Repr

end Sys2Proof.Machine
end

