-- ==== Sys2Proof/Machine/TypesPart.lean ====
section
/-!
DEFINITION. Lasts, partitions and the training step as plain data (chapters 07, 09, 11, 13). The manual gives the header, the tensor
table, group records and collective descriptors a byte layout; the other sections of a last it describes by content only, and they
are held here by content (log entry 38).
-/
namespace Sys2Proof.Machine

/-- An entry of the tensor table (R246). -/
structure Tensor where
  tag     : Nat
  recipe  : Nat
  format  : Nat
  kind    : Nat
  life    : Nat
  stash   : Nat
  gather  : Nat
  bytes   : Nat
  lBase   : Nat
  version : Nat
  epoch   : Nat
  watch   : Nat
  digest  : Nat
deriving DecidableEq, Repr

/-- A queue program of the SCHEDULE section (R245, R256): its queue, insole base, binding, latency mark and bytes. -/
structure QProg where
  q       : Nat
  base    : Nat
  bind    : Nat
  latency : Bool
  bytes   : List Byte
deriving DecidableEq, Repr

/-- What SCHEDULE says of one cluster: its programs and its counters as (number, initial value, reload value). -/
structure Sched where
  cl    : Nat
  progs : List QProg
  ctrs  : List (Nat × Nat × Nat)
deriving DecidableEq, Repr

/-- A demand on a resource of R251: its code, the die and cluster it concerns (15 and 0xFF for none), the amount. -/
structure Need where
  code   : Nat
  die    : Nat
  cl     : Nat
  amount : Nat
deriving DecidableEq, Repr

/-- A variant (R247): dies it needs, clusters it names, order of preference, total number of sequence slots, its slot map (micro-batch, die, slot), thin
stages as ranges of layers (first, count), passes in their order as (die, direction 0 forward or 1 backward, thin stage, micro-batch) (R263), schedule, demands, places of the tensors in table order as (1 held half or 0 other half, offset, blocks), further regions as (held, offset, blocks), and
insole grants as (cluster, offset, bytes), recompute segments as (cluster, insole address,
entries), STH_SLOT words as (cluster, slot, word). -/
structure Variant where
  dies     : Nat
  clusters : Nat
  order    : Nat
  slots    : Nat
  slotMap  : List (Nat × Nat × Nat)
  stages   : List (Nat × Nat)
  passes   : List (Nat × Nat × Nat × Nat)
  sched    : List Sched
  needs    : List Need
  places   : List (Nat × Nat × Nat)
  regions  : List (Nat × Nat × Nat)
  insole   : List (Nat × Nat × Nat)
  segments : List (Nat × Nat × List Byte)
  stash    : List (Nat × Nat × BitVec 128)
deriving DecidableEq, Repr

/-- A group record (R336). -/
structure Group where
  axes  : Nat
  size  : Nat
  start : List Nat
  len   : List Nat
deriving DecidableEq, Repr

/-- What TOPOLOGY says of one eyelet of the cut (R331, R373): its peer rank, axis, alternate (0xFF none), weights of VC1 to VC7 as the word of
EYE_VC_WEIGHT, the EYE_TMO_CFG value and the identity its peer must show. -/
structure EyeCut where
  eye     : Nat
  peer    : Nat
  axis    : Nat
  alt     : Nat
  weights : Nat
  tmo     : Nat
  ident   : Nat
deriving DecidableEq, Repr

/-- A last (R244, R245). `groups` are the 32-byte group records (R336), `gens` are the generations of the members (0 Traoth, 1 Miomel, 2 Benium), `input` the input region as (half, offset, blocks per
micro-batch, tag, epoch), `hyper` the schedule table (R186), `grads` the schedule cores of each watched tensor (tag, cluster, core), `watch` the block
ranges of WATCH (tag, first, count), `config` the CONFIG values, `aLive` and `bufs` the buddy's data: `partner` is the region declared for the member whose
copy this package holds (that member's rank, half, offset, blocks). `seat` is the seat aperture (first logical block, blocks, tag; no blocks for none), and
`mark` the SHA-256 of its header and directory (R518). -/
structure Last where
  jobKey   : Nat
  feature  : Nat
  heritage : Nat
  replica  : Nat
  members  : Nat
  rank     : Nat
  mbs      : Nat
  crc      : Nat
  major    : Nat
  tensors  : List Tensor
  variants : List Variant
  groups   : List (BitVec 256)
  colls    : List (BitVec 512)
  axes     : List Nat
  dataAxis : Nat
  linked   : List (Nat × Nat)
  gens     : List Nat
  cut      : List EyeCut
  relays   : List (Nat × Nat)
  buddy    : Nat
  partner  : Nat × Nat × Nat × Nat
  input    : Nat × Nat × Nat × Nat × Nat
  hyper    : List (List Byte)
  hyperAt  : Nat
  grads    : List (Nat × Nat × Nat)
  watch    : List (Nat × Nat × Nat)
  cfgScale : Nat
  cfgUf    : Nat
  cfgGh    : Nat
  cfgWit   : Nat
  cfgTol   : Nat
  cfgStep  : Nat
  cfgTmo   : Nat
  cfgLac   : Nat
  cfgAwl   : Nat
  seat     : Nat × Nat × Nat
  mark     : BitVec 256 := 0
  layoutCrc : Nat := 0
deriving DecidableEq, Repr

/-- The region for the copy that this package holds of its buddy's member, as (half, offset, blocks); none where it holds no copy (R413). -/
def Last.partnerRegion (l : Last) : List (Nat × Nat × Nat) := if l.partner.2.2.2 = 0 then [] else [l.partner.2]

/-- Outcomes of a closing (R276, R278). -/
inductive Outcome where
  | none | apply | applyDrop | skip | replay | dropAttempt | halt | empty
deriving DecidableEq, Repr

/-- A record of round 2 (R275). -/
structure NameRec where
  mb      : Nat
  samples : Nat
  rank    : Nat
  kind    : Nat
deriving DecidableEq, Repr

/-- An entry of the digest store (R294). `digests` are (tag, format, digest), `pcrcs` the PCRC fields that each was taken over, by which a replay finds the first block that
differs (R296, log entry 72). -/
structure Digest where
  s        : Nat
  outcome  : Outcome
  attempts : Nat
  names    : List NameRec
  n        : Nat
  digests  : List (Nat × Nat × Nat)
  pcrcs    : List (List Nat) := []
deriving DecidableEq, Repr

/-- The state of a step (R255 to R293) that is not a register. `state` is SEQ_STATE STEP; `flags` the flags of the attempt in the places of R273
with `faults` its attributions (micro-batch or 0xFFFF); `carry` a detected fault after the word was sent (R272); `early` counts replay records of
the attempt's stale shards; `drop` the drop set (micro-batch, samples) and `dropNow` what the package dropped in this attempt; `notices` the ranks whose acknowledgement is missing; `round` the round under way (0 none);
`sent` whether the own word of the round was sent; `kids` the children's words, `kidNames` their lists, `names` the round-2 result so far; `rootOut` that at the root the round's result stands
ready; `res1` the result of round 1; `susp` a suspension (0 none, 1 boundary pending, 2 now pending, 3 in force); `abortNext` the HALT reason with which the package will halt at
its next attempt (R584), 0 for none; `fed` the entries of the ring taken, `cons` FEED_CONS; `batch` the batch record of the step and `nextBatch` the one
taken for the next; `waitBlk` blocks with a path fault in this step (R382); `badBlk` step's repairs due; `uflow` the attempt of the step's
first counter underflow + 1, 0 for none (R288); `allIn` that an abort ended the attempt, so that every member is in the replay set; `aborts` the attempts, as (bits [15:0] of
the step, attempt), whose abort came before this member started them (R287), and `dropNotes` the drops that notices brought for such attempts (R285); `lastOut` and `lastWhy`
the outcome of the last closing that had one, with the reason of a HALT, as SEQ_STATE shows them (R297). -/
structure Step where
  state     : Nat
  attempt   : Nat
  outcome   : Outcome
  reason    : Nat
  inSet     : Bool
  flags     : Nat
  haltWhy   : Nat
  faults    : List (Nat × Nat)
  carry     : Bool
  drop      : List (Nat × Nat)
  dropNow   : List (Nat × Nat)
  notices   : List Nat
  sharedMb  : List Nat
  lostShare : Bool
  round     : Nat
  sent      : Bool
  kids      : List (Nat × Nat)
  kidNames  : List (Nat × List NameRec)
  ownNames  : List NameRec
  names     : List NameRec
  local_    : Nat
  result    : Nat
  rootOut   : Bool
  res1      : Nat
  n         : Nat
  susp      : Nat
  abortNext : Nat
  aborted   : Bool
  holdFeed  : Bool
  fed       : Nat
  cons      : Nat
  batch     : List (Nat × Nat)
  nextBatch : Option (List (Nat × Nat))
  pathBlk   : List (Nat × Nat)
  digested  : Bool
  scan      : List (Nat × Bool)
  reclick   : Bool
  ended     : Nat
  notice    : Nat × Nat
  uflow     : Nat
  allIn     : Bool
  aborts    : List (Nat × Nat) := []
  dropNotes : List ((Nat × Nat) × List (Nat × Nat)) := []
  lastOut   : Outcome := .none
  lastWhy   : Nat := 0
deriving DecidableEq, Repr

/-- The step of a partition that runs nothing. -/
def Step.idle : Step :=
  { state := 0, attempt := 0, outcome := .none, reason := 0, inSet := false, flags := 0, haltWhy := 0, faults := [], carry := false, drop := [], dropNow := []
    notices := [], sharedMb := [], lostShare := false, round := 0, sent := false, kids := [], kidNames := [], ownNames := [], names := [], local_ := 0
    result := 0, rootOut := false, res1 := 0, n := 0, susp := 0, abortNext := 0, aborted := false, holdFeed := false, fed := 0, cons := 0, batch := [], nextBatch := none, pathBlk := []
    digested := false, scan := [], reclick := false, ended := 0, notice := (0, 0), uflow := 0, allIn := false }

/-- A running or finished collective of the step (R342, R357): its descriptor, the arm triples reported, whether armed, started and complete, the latched
live count, the version expected of its blocks, read at launch (`ver`, R342), the status and flags so far and the shank count of the first failure (`badAt`), contributions held as (chunk, group rank, blocks), chunks written, flows' overflow and counts. -/
structure Coll where
  cseq     : Nat
  reports  : Nat
  started  : Bool
  complete : Bool
  status   : Nat
  flags    : Nat
  live     : Nat
  contribs : List (Nat × Nat × List (List Byte × BitVec 128))
  result   : List Nat
  counts   : List (Nat × Nat × Nat)
  overflow : Nat
  badPeer  : Nat
  badChunk : Nat
  kib      : Nat
  samples  : Nat
  written  : List Nat
  ver      : Option Nat := none
  badAt    : DWord := 0
deriving DecidableEq, Repr

/-- A flow context (R338). `recv` is DIR, `first` how many of its chunks are contributions (CONTRIB, PARTIAL, A2A_ROWS), which come before its results (log entry 215), `sampled` that SAMPLES has been taken
from a first chunk, `held` chunks received out of order. -/
structure Flow where
  ctx     : Nat
  state   : Nat
  recv    : Bool
  relay   : Bool
  herit   : Bool
  first   : Nat
  peer    : Nat
  cseq    : Nat
  step    : Nat
  attempt : Nat
  vc      : Nat
  eye     : Nat
  alt     : Nat
  group   : Nat
  grank   : Nat
  base    : Nat
  tag     : Nat
  version : Nat
  epoch   : Nat
  format  : Nat
  credit  : Nat
  chunks  : Nat
  done    : Nat
  acked   : Nat
  samples : Nat
  prog    : DWord
  hop     : Nat
  held    : List Nat
  sampled : Bool := false
deriving DecidableEq, Repr

/-- What has come of one PUT of the member whose copy this package holds (R346, R353): its CSEQ, step and attempt, the contiguous chunks and those held beyond them. -/
structure PutRx where
  cseq    : Nat
  step    : Nat
  attempt : Nat
  done    : Nat
  held    : List Nat
deriving DecidableEq, Repr

/-- The state record of a generation (R414): `versions` by `65536 * cluster + tag`, `rngStep` of the clusters and `lacStep` of the I/O dies, `faults` the FAULTS counts
of units and `times` the SHANK times of those faults, oldest first. -/
structure StateRec where
  s        : Nat
  crc      : Nat
  rank     : Nat
  members  : Nat
  epoch    : Nat
  layout   : Nat
  versions : List (Nat × Nat)
  u        : Nat
  scale    : Nat
  health   : List (Nat × Nat)
  heads    : List (Nat × Nat × Nat)
  ctrs     : List (Nat × Nat × Nat)
  rngStep  : Nat
  guar     : Nat
  faults   : List (Nat × Nat)
  serial   : Nat
  runS     : Nat
  restores : Nat
  variant  : Nat
  lacStep  : Nat := 0
  times    : List (Nat × Nat) := []
deriving DecidableEq, Repr

/-- A secured tensor: what its directory entry says (R425), with its elements `n`, and its blocks' payloads. -/
structure GenTensor where
  tag     : Nat
  kind    : Nat
  format  : Nat
  lBase   : Nat
  version : Nat
  digest  : Nat
  n       : Nat
  blocks  : List (List Byte)
deriving DecidableEq, Repr

/-- A generation as a layer keeps it. -/
structure Gen where
  rec_     : StateRec
  tensors  : List GenTensor
  complete : Bool
  export_  : Bool
deriving DecidableEq, Repr

/-- A securing under way (R415 to R419): its generation, operation, layers asked, blocks still to be read, whether a layer has committed or failed, the hold,
partner chunks sent and acknowledged. -/
structure Securing where
  s        : Nat
  op       : Nat
  layers   : Nat
  read     : Bool
  partner  : Bool
  flash    : Bool
  pFail    : Bool
  fFail    : Bool
  holdMs   : Nat
  chunks   : Nat
  acked    : Nat
  gen      : Gen
deriving DecidableEq, Repr

/-- A twin that the cobbler asks for (R396, R398, R399): the blocks as (logical block, tag, kind, L), the version wanted, the members still to be asked with the
one being asked first, whether a stopped FIN_APPLY waits for it, and whether the job halts where there is none. -/
structure TwinAsk where
  items : List (Nat × Nat × Nat × Nat)
  ver   : Nat
  ranks : List Nat
  fin   : Bool
  hard  : Bool
deriving DecidableEq, Repr

/-- A NUMERIC_ alarm with what it carries (R115, R125, R127, R128): loss-scale floor; underflow (step, flushed and written elements); zero gradient (tag, run length,
step); gradient resumed (tag, run length). -/
inductive NumAlarm where
  | scaleFloor (s : Nat)
  | underflow (s flushed written : Nat)
  | zeroGradient (tag run s : Nat)
  | gradientResumed (tag run : Nat)
deriving DecidableEq, Repr

/-- A RESHARD that waits or runs (R363): the new layout by content with its variant, the RESHARD_COPY descriptors as (cluster, descriptor), the layout identity. -/
structure Reshard where
  last  : Last
  var   : Nat
  moves : List (Nat × BitVec 512)
  ident : Nat
  epoch : Nat
deriving DecidableEq, Repr

/-- The AUTO policy and the coordinator's view (R422 to R424). -/
structure Policy where
  layers   : Nat
  minSteps : Nat
  maxSteps : Nat
  priorS   : Nat
  costMs   : Nat
deriving DecidableEq, Repr

/-- One partition (R484 to R489) and the step it runs. Masks: clusters by `9 d + k`, eyelets by number. `regions` are the last's
regions of LIFE 1 as (offset in blocks from the start of the held half, blocks) (R220, R240), `grants` the regions that clicking gave as (0 held half, 1 other half,
2 + k the insole of cluster k; offset in bytes; bytes). `versions` is the version table (R269) by `65536 * cluster + tag`, `found` the versions forward gathers found (R270),
`health` the run counts (R127), `ranRun` that a RUN_STEPS of the job has been accepted (R409), `reports` the coordinator's reports for `repS`, `loading` the last and variant
that a LOAD_LAST has accepted and not committed, `healthAsk` the (tag, unit, result) of the tests asked for at the first alarm of a run, the result 0 until the test ends, then 1 passed or 2 failed (R128), `alarms` the
NUMERIC_ alarms raised, in order, `twins` twins asked for,
`recast` tags of weight copies to be cast again before the next attempt (R397), `runS` in ms and `runAt` the SHANK count at which the run now RUNNING began or went on (R424), `secNext` the securings due while another has not ended, as (operation, layers, state record of their boundary) (R415), `stepMs` the durations of the last 16 steps, `replayTo` the
last step of a REPLAY_STEP, `ctxOf` the STEP_LO and ATTEMPT that the flow contexts were reset for (R338), `puts` what has come of PUTs to the copy that this package holds (R346), `lossWait` the lost dies it waits for at its boundary as a mask, `finLeft` the FIN_APPLY descriptors that a lost die had not finished, with their cluster and record (R39). -/
structure Part where
  clusters  : Nat := 0
  eyelets   : Nat := 0
  hbmShare  : Nat := 0
  flowShare : Nat := 0
  slots     : List Nat := [0, 0, 0, 0]
  s         : Nat := 0
  loaded    : Bool := false
  guar      : Nat := 0
  regions   : List (Nat × Nat) := []
  ranRun    : Bool := false
  grants    : List (Nat × Nat × Nat) := []
  last      : Option Last := none
  variant   : Nat := 0
  step      : Step := .idle
  versions  : List (Nat × Nat) := []
  found     : List (Nat × Nat) := []
  health    : List (Nat × Nat) := []
  digests   : List Digest := []
  colls     : List Coll := []
  flows     : List Flow := []
  layout    : Nat := 0
  newTabs   : List Tensor := []
  unrest    : Bool := false
  securing  : Option Securing := none
  secNext   : List (Nat × Nat × StateRec) := []
  partnerS  : Option Nat := none
  policy    : Option Policy := none
  runS      : Nat := 0
  runAt     : Option Nat := none
  restores  : Nat := 0
  reports   : List (Nat × Nat × Nat × Bool) := []
  repS      : Nat := 0
  nextS     : Nat := 0
  stepMs    : List Nat := []
  lossWait  : Nat := 0
  loading   : Option (Last × Nat) := none
  healthAsk : List (Nat × Nat × Nat) := []
  alarms    : List NumAlarm := []
  twins     : List TwinAsk := []
  recast    : List Nat := []
  reshard   : Option Reshard := none
  finLeft   : List (Nat × BitVec 512 × List Byte) := []
  replayTo  : Nat := 0
  ctxOf     : Nat × Nat := (0, 0)
  puts      : List PutRx := []
deriving DecidableEq, Repr

/-- A long command accepted in DOZE (R556): its operation, the payload of its request and what else the command brought; its work begins when the wake ends. -/
structure Asleep where
  handle : Nat
  pay    : List Byte
  last   : Option Last
  gen    : Option Gen
  bad    : List (Nat × Nat × Nat)
  moves  : List (Nat × BitVec 512)
deriving DecidableEq, Repr

/-- A queue program's entry: its header and descriptor (R256). -/
structure Entry where
  kind   : Nat
  waitEn : Bool
  ctr    : Nat
  rearm  : Bool
  phase  : Nat
  shared : Bool
  regath : Bool
  record : Bool
  len    : Nat
  mbatch : Nat
  slot   : Nat
  ptag   : Nat
  pword  : Nat
  psrc   : Nat
  pview  : Nat
  queue  : Nat
  raw    : BitVec 512
deriving DecidableEq, Repr

/-- A checked engine address (R170). -/
inductive Loc where
  | hbm (a : Nat)
  | ins (cl a : Nat)
  | cb (core a : Nat)
deriving DecidableEq, Repr

/-- A descriptor in flight (R255, R259): its cluster, queue, header fields, patched words, the recompute-segment parent, the micro-batch and the result word
once the engine has run it; `wrote` the places it wrote (a vector program's lines as core-buffer places), `late` that the attempt it belongs to has ended
before its completion (log entry 157), `cobbler` that the cobbler issued it, `onCl` the cluster whose finisher runs it where that is another (R190),
`unit` the unit that ran it, `mate` that a check shared with the other half stopped it and `stopped` that its context is stopped (R73),
`seg` the descriptors of its recompute segment that have not issued (R194), `seat` that its source or destination is the seat aperture (R27). -/
structure Flight where
  id      : Nat
  cl      : Nat
  queue   : Nat
  raw     : BitVec 512
  len     : Nat
  phase   : Nat
  shared  : Bool
  regath  : Bool
  record  : Bool
  mbatch  : Nat
  recomp  : Bool
  parent  : Nat
  pending : Nat
  worst   : Nat
  ptag    : Nat
  skipped : Bool
  ran     : Bool
  errIdx  : Nat
  result  : Option Nat
  wrote   : List Loc := []
  late    : Bool := false
  slot    : Nat := 0
  cobbler : Bool := false
  onCl    : Option Nat := none
  seg     : List Entry := []
  seat    : Bool := false
  rngBad  : Bool := false
  unit    : Option Nat := none
  mate    : Bool := false
  stopped : Bool := false
deriving DecidableEq, Repr

/-- A command queue of a cluster. -/
structure QueueAt where
  cl : Nat
  q  : Nat
deriving DecidableEq, Repr

/-- What the fetch of a queue entry shows: a descriptor of the cobbler's own in its place (R139, R170), or a parity error (R381). -/
structure EntryRead where
  own    : Option (BitVec 512)
  parity : Bool
deriving DecidableEq, Repr

/-- A flight to discard, and how many blocks it has written where it runs (R176). -/
structure FlightCut where
  n    : Nat
  done : Option Nat
deriving DecidableEq, Repr

/-- A partition whose attempt starts, and the units whose shared registers fail their parity then (R403). -/
structure PartStart where
  part   : Nat
  parity : List Nat
deriving DecidableEq, Repr

/-- What a comparison of the witness shows of itself: nothing, a handover copy that fails (R386), or a residue check of its own that fails (R208). -/
inductive WitSign where
  | sound
  | copyFails
  | residue
deriving DecidableEq, Repr

/-- The sequencers beside their registers: descriptors in flight of all clusters, the next flight number, the completion-record store (R260, R344). -/
structure Seq where
  flights : List Flight
  next    : Nat
  store   : List (List Byte)
deriving DecidableEq, Repr

end Sys2Proof.Machine
end

