-- ==== Sys2Proof/Machine/TypesLink.lean ====
section
/-!
DEFINITION. Messages, flits and eyelet links as plain data (chapters 08 and 09).
-/
namespace Sys2Proof.Machine

/-- A message of collective or step traffic (R307, R345): its kind, the sender's job rank, STEP_LO, ATTEMPT, CSEQ or round, CHUNK, whether its body's
blocks carry aglets, the blocks, and the words of a body without blocks. -/
structure Msg where
  kind    : Nat
  src     : Nat
  dst     : Nat
  vc      : Nat
  step    : Nat
  attempt : Nat
  cseq    : Nat
  chunk   : Nat
  aglets  : Bool
  ctx     : Nat
  blocks  : List (List Byte × BitVec 128)
  words   : List Nat
  names   : List NameRec
deriving DecidableEq, Repr

/-- Control flits (R310, R316, R319, R322, R324, R326, R329). -/
inductive Ctrl where
  | nak (seq : Nat)
  | heartbeat (seq st : Nat)
  | identity (id : BitVec 128)
  | creditInit (cr : List Nat)
  | pause (mask : Nat)
  | unpause
  | coastDone
  | hold
  | degrade (lane : Nat) (tx : Bool)
deriving DecidableEq, Repr

/-- What every received CTRL or IDLE flit shows beside its content (R303, R304): SEQ, ACK, the credit return, and the places whose symbols the FEC corrected. -/
structure RxHead where
  seq   : Nat
  ack   : Nat
  crVc  : Nat
  crCnt : Nat
  fix   : List Nat
deriving DecidableEq, Repr

/-- The fields fit the header's and the flit's widths. -/
def RxHead.ok (h : RxHead) : Bool :=
  decide (h.seq < 4096) && decide (h.ack < 4096) && decide (h.crVc < 8) && decide (h.crCnt < 256) && h.fix.all (fun i => decide (i < 256))

/-- A CTRL flit arriving at an eyelet. -/
structure RxFlit where
  eye  : Nat
  head : RxHead
deriving DecidableEq, Repr

/-- A DATA flit without its header's sequence part: channel, SOM, EOM, payload. -/
structure DataFlit where
  vc  : Nat
  som : Bool
  eom : Bool
  pay : List Byte
deriving DecidableEq, Repr

/-- What a sequenced flit carries. -/
inductive FlitBody where
  | data (d : DataFlit)
  | ctrl (c : Ctrl)
deriving DecidableEq, Repr

/-- One eyelet beside its EYE_ registers. `tx` next SEQ, `rx` SEQ expected, `replay` sequenced flits sent and not acknowledged (oldest first, `base` the SEQ
of the first), `again` how many of them, from which place on, wait to be resent (0 none, else place + 1), `times` how often each of them has been resent (R311); `ctrl` control flits that
wait; `queue` DATA flits that wait; `cred` credits held and `back` credits to return, by channel; `room` credits the far end still holds; `buf` the flits in the
receive buffers and `coast` those of the coast buffer, in arrival order; `lostSeq` the first SEQ discarded for want of credit while paused; `skip` the channels whose message under way is discarded (R308); `nakOut` that a NAK is out for the SEQ
expected; `hbTx`, `hbRx` heartbeat sequences; `hold` that the peer sent HOLD; `fails` failed trainings in a row; `lock` good flits in a row in ALIGN; `deficit` per channel; `turn` the
channel at its turn, and `wts` the weights of the round (R315); `recent` which of the last 256 flit times sent VC0; `open_` channels with a message begun and not ended; `coastDue` that COAST_DONE is owed;
`three` that the link runs on three lanes, `sent` and `seen` the flits sent and received since it entered that operation (R306), `line` the bit pairs that the last flit sent put
on each lane; `got` that a sequenced flit has been taken since training, `fresh` that no ACK beyond 0 has come since (R319); `tmoPast` that PAUSE_TMO has passed since PAUSE (R329). -/
structure Eye where
  tx       : Nat
  rx       : Nat
  base     : Nat
  replay   : List FlitBody
  again    : Nat
  times    : List Nat
  ctrl     : List Ctrl
  queue    : List DataFlit
  cred     : List Nat
  back     : List Nat
  room     : List Nat
  buf      : List DataFlit
  coast    : List DataFlit
  lostSeq  : Option Nat
  skip     : Nat
  nakOut   : Bool
  hbTx     : Nat
  hbRx     : Option Nat
  hold     : Bool
  fails    : Nat
  lock     : Nat
  deficit  : List Nat
  turn     : Nat
  wts      : Nat
  recent   : List Bool
  open_    : Nat
  coastDue : Bool
  three    : Bool
  sent     : Nat
  seen     : Nat
  line     : List (List Nat)
  got      : Bool
  fresh    : Bool
  tmoPast  : Bool
deriving DecidableEq, Repr

/-- An eyelet that has not trained. -/
def Eye.new : Eye :=
  { tx := 0, rx := 0, base := 0, replay := [], again := 0, times := [], ctrl := [], queue := [], cred := List.replicate 8 0, back := List.replicate 8 0
    room := List.replicate 8 0, buf := [], coast := [], lostSeq := none, skip := 0, nakOut := false, hbTx := 0, hbRx := none, hold := false, fails := 0
    lock := 0, deficit := List.replicate 8 0, turn := 7, wts := 0x0820202020404000, recent := [], open_ := 0, coastDue := false, three := false, sent := 0
    seen := 0, line := [], got := false, fresh := true, tmoPast := false }

/-- The lacing engines and links: eyelets by number, and cached flow contexts as (I/O die, context) in order of filling; `fencedOnce` that an epoch fence led to the epoch in force (R362). -/
structure Lac where
  eyes   : List (Nat × Eye)
  cached : List (Nat × Nat)
  fencedOnce : Bool := false
deriving DecidableEq, Repr

end Sys2Proof.Machine
end

