-- ==== Sys2Proof/Machine/Blk.lean ====
section
/-!
DEFINITION. The state of the module itself (`Blk`): plain data, holding every piece of state the manual names.
-/
namespace Sys2Proof.Machine

/-- The module itself: everything but the queue of commands. -/
structure Blk where
  regs     : RegFile
  evg      : Evg
  recd     : Recorder
  sec      : Sec
  mbx      : Mbx
  units    : Units
  pwr      : Pwr
  pins     : Pins
  pkg      : Pkg
  hbm      : Hbm
  ins      : Insole
  cores    : Cores
  vec      : Vec
  stash    : Stash
  seq      : Seq
  lac      : Lac
  flash    : List (Nat × Gen)
  parts    : List (Nat × Part)
  asleep   : List Asleep
  hostMem  : Mem
  hostHole : List (Nat × Nat)
  readData : List Byte
  fresh    : Nat
deriving DecidableEq, Repr

end Sys2Proof.Machine
end

