-- ==== Sys2Proof/Machine/Ops.lean ====
section
/-!
DEFINITION. The named operations over the register file, the event gatherers, the recorder and the mailboxes, on which
every command's meaning is built.
-/
namespace Sys2Proof.Machine

/-! ### Registers (00 R7 to R9) -/

/-- A register's stored value. -/
def Blk.rd (b : Blk) (r : RegRef) : RegVal := b.regs.get r

/-- A register replaced by the hardware or the firmware. -/
def Blk.wr (b : Blk) (r : RegRef) (v : RegVal) : Blk := { b with regs := b.regs.set r (v &&& r.name.row.mask) }

/-- A field of a register. -/
def Blk.rf (b : Blk) (r : RegRef) (f : Fld) : Nat := f.get (b.rd r)

/-- A field of a register replaced. -/
def Blk.wf (b : Blk) (r : RegRef) (f : Fld) (x : Nat) : Blk := b.wr r (f.set (b.rd r) x)

/-- A register as a number. -/
def Blk.rn (b : Blk) (r : RegRef) : Nat := (b.rd r).toNat

/-- A register replaced by a number. -/
def Blk.wn (b : Blk) (r : RegRef) (x : Nat) : Blk := b.wr r (BitVec.ofNat 256 x)

/-- A register's writable fields replaced by a number; its reserved bits stay 0 (R8). -/
def Blk.wrDefined (b : Blk) (r : RegRef) (x : Nat) : Blk := b.wr r (BitVec.ofNat 256 x &&& r.name.row.rw)

/-- A counter register advanced, saturating at its largest value. -/
def Blk.bump (b : Blk) (r : RegRef) (n : Nat := 1) : Blk := b.wn r (satAdd r.name.row.width (b.rn r) n)

/-- A counter field advanced, saturating. -/
def Blk.bumpFld (b : Blk) (r : RegRef) (f : Fld) (n : Nat := 1) : Blk := b.wf r f (satAdd f.w (b.rf r f) n)

/-- Every register of the listed blocks whose copy number satisfies `p` returns to its reset value. -/
def Blk.resetRegs (b : Blk) (blks : List RegBlk) (p : RegName → Nat → Bool) : Blk :=
  { b with regs := b.regs.filter (fun x => !(decide (x.1.name.row.blk ∈ blks) && p x.1.name x.1.at_)) }

/-- A shank count taken now (log entry 3): the value, and the state with the free-value counter advanced. -/
def Blk.shankNow (b : Blk) (die : Nat) : DWord := Config.shankCount b.fresh die

def Blk.tick (b : Blk) : Blk := { b with fresh := b.fresh + 1 }

/-! ### Dies, clusters, cores and their numbers -/

/-- Position code of IOD0, the die with the host port. -/
abbrev iod0 : Nat := 4

/-- The I/O die of a stack, and its place there. -/
def stackDie (st : Nat) : Nat := 4 + st / 4
def stackQ (st : Nat) : Nat := st % 4

/-- Compute dies and I/O dies of a part number, its stacks and its highest input power (R2, R3). -/
def Sku.cds : Sku → Nat
  | .c4s24 | .c4s20s | .c4s16 => 4
  | .c2s12 | .c2s8 => 2

def Sku.iods : Sku → Nat
  | .c4s24 => 6 | .c4s20s => 5 | .c4s16 => 4 | .c2s12 => 3 | .c2s8 => 2

def Sku.stacks (k : Sku) : Nat := 4 * k.iods

def Sku.seat (k : Sku) : Bool := k == .c4s20s

def Sku.maxInput : Sku → Nat
  | .c4s24 => 3800 | .c4s20s => 3600 | .c4s16 => 3300 | .c2s12 => 1900 | .c2s8 => 1700

/-- A position the part number populates (R3). -/
def Sku.populated (k : Sku) (d : Nat) : Bool :=
  decide (d < k.cds) || (decide (4 ≤ d) && decide (d < 4 + k.iods))

/-- IDENT_PART of a part number (R43). -/
def Sku.identPart (k : Sku) : Nat := k.cds + 256 * k.stacks + (if k.seat then 0x530000 else 0) + 0x3000000

/-- Present and admitted (IDENT_PRESENT). -/
def Blk.present (b : Blk) (d : Nat) : Bool := bitOf (b.rf ⟨.IDENT_PRESENT, 0, 0⟩ Fld.IDENT_PRESENT_PRESENT) d

/-- Fenced (IDENT_PRESENT FENCED). -/
def Blk.fenced (b : Blk) (d : Nat) : Bool := bitOf (b.rf ⟨.IDENT_PRESENT, 0, 0⟩ Fld.IDENT_PRESENT_FENCED) d

/-- The package master's position (IDENT_MASTER). -/
def Blk.master (b : Blk) : Nat := b.rf ⟨.IDENT_MASTER, 0, 0⟩ Fld.IDENT_MASTER_POSITION

/-- The start-up stage shown in IDENT_START; 5 is READY. -/
def Blk.stage (b : Blk) : Nat := b.rf ⟨.IDENT_START, 0, 0⟩ Fld.IDENT_START_STAGE

def Blk.setStage (b : Blk) (x : Nat) : Blk := b.wf ⟨.IDENT_START, 0, 0⟩ Fld.IDENT_START_STAGE x

/-- The compute die of a package-wide cluster number, and the cluster's number on it. -/
def clDie (cl : Nat) : Nat := cl / 9
def clK (cl : Nat) : Nat := cl % 9

/-- A unit identifier (R377): position code and slot. -/
def unitId (d n : Nat) : Nat := d + 16 * n
def unitDie (u : Nat) : Nat := u % 16
def unitSlot (u : Nat) : Nat := u / 16 % 256

/-- The identifier of unit `u` (0 to 15) of a cluster. -/
def clUnit (cl u : Nat) : Nat := unitId (clDie cl) (16 * clK cl + u)

/-- The cluster a compute-die unit belongs to. -/
def unitCluster (u : Nat) : Nat := 9 * unitDie u + unitSlot u / 16

/-- A unit's state word (AWL_UNIT_n). -/
def unitReg (u : Nat) : RegRef := ⟨.AWL_UNIT, unitDie u, unitSlot u⟩

/-! ### Partitions -/

def Blk.part (b : Blk) (p : Nat) : Option Part := (b.parts.find? (fun x => x.1 == p)).map (·.2)

def Blk.setPart (b : Blk) (p : Nat) (x : Part) : Blk :=
  { b with parts := b.parts.filter (fun y => decide (y.1 < p)) ++ [(p, x)] ++ b.parts.filter (fun y => decide (p < y.1)) }

def Blk.delPart (b : Blk) (p : Nat) : Blk := { b with parts := b.parts.filter (fun y => y.1 != p) }

/-- The partition that holds a cluster. -/
def Blk.partOf (b : Blk) (cl : Nat) : Option Nat := (b.parts.find? (fun x => bitOf x.2.clusters cl)).map (·.1)

/-- The partition of a unit, 0xFF for a unit of no partition. -/
def Blk.unitPart (b : Blk) (u : Nat) : Nat :=
  if unitDie u < 4 then (b.partOf (unitCluster u)).getD 0xFF else 0xFF

/-! ### The event gatherers (chapter 14) -/

/-- The source of a function group of IOD0 (R492). -/
def fnSource (f bit : Nat) : Nat := 32 * (48 + f) + bit

/-- The sources that exist (R491 to R493). -/
def evExists (k : Sku) (d s : Nat) : Bool :=
  let g := s / 32
  (decide (g ≤ 14) && decide (d < 10)) ||
  (decide (d = iod0) && ((decide (48 ≤ g) && decide (g ≤ 56) && decide (s % 32 ≤ 8)) || (decide (g = 60) && k.seat)))

/-- The TARGET of a group. -/
def Blk.evTarget (b : Blk) (d g : Nat) : Nat := b.rf ⟨.EVG_GRP_CFG, d * 16, g⟩ Fld.EVG_GRP_CFG_TARGET

/-- The queue a group's target stands for: the port of the die's cobbler, or a function's port on IOD0. -/
def evPort (d t : Nat) : Nat := if t = 0 then d * 16 else iod0 * 16 + t

def Blk.evCount (b : Blk) (d s : Nat) : Nat := Sp.get 0 b.evg.cnt (d * 2048 + s)

def Blk.evMasked (b : Blk) (d s : Nat) : Bool := bitOf (b.rn ⟨.EVG_MASK, d * 16, s / 32⟩) (s % 32)

def Blk.evCoalescing (b : Blk) (port : Nat) : Bool := b.rf ⟨.EVG_Q_CFG, port, 0⟩ Fld.EVG_Q_CFG_MODE == 1

/-- SIZE_LOG2 as the queue uses it: 4 to 12, other values clamped. -/
def Blk.evSize (b : Blk) (port : Nat) : Nat :=
  2 ^ (max 4 (min 12 (b.rf ⟨.EVG_Q_CFG, port, 0⟩ Fld.EVG_Q_CFG_SIZE_LOG2)))

/-- Eligible (R497): pending, unmasked, not presented, bound, and its group not in hold-off; a coalescing queue ignores
hold-offs (R503). -/
def Blk.evEligible (b : Blk) (d s : Nat) : Bool :=
  let t := b.evTarget d (s / 32)
  decide (b.evCount d s ≠ 0) && !b.evMasked d s && decide (Sp.get 0 b.evg.presented (d * 2048 + s) = 0) &&
  decide (t ≠ 0xF) &&
  (b.evCoalescing (evPort d t) || decide (Sp.get 0 b.evg.holdoff (d * 64 + s / 32) = 0))

/-- The message of a function's MSI-X vector (R502, R505): sent, or held in the pending bit while the vector or the function
is masked or MSI-X is disabled. -/
def Blk.msixSend (b : Blk) (port : Nat) : Blk :=
  let ctl := b.rn ⟨.EVG_MSIX_CTL, port, 0⟩
  if bitOf ctl 15 && !bitOf ctl 14 && !bitOf (b.rn ⟨.EVG_MSIX_TABLE, port, 0⟩) 96 then
    { b with evg := { b.evg with msix := Sp.set 0 b.evg.msix port (Sp.get 0 b.evg.msix port + 1) } }
  else b.wn ⟨.EVG_MSIX_PEND, port, 0⟩ 1

/-- The interrupt part of writing a record: armed message in native mode (R502), the count in coalescing mode (R503). A
cobbler's queue sends none. -/
def Blk.evSignal (b : Blk) (port : Nat) : Blk :=
  if port % 16 = 0 then b
  else if b.evCoalescing port then
    let n := Sp.get 0 b.evg.coal port + 1
    if max 1 (b.rf ⟨.EVG_COAL_CFG, port, 0⟩ Fld.EVG_COAL_CFG_COAL_COUNT) ≤ n then
      ({ b with evg := { b.evg with coal := Sp.set 0 b.evg.coal port 0 } }).msixSend port
    else { b with evg := { b.evg with coal := Sp.set 0 b.evg.coal port n } }
  else if Sp.get 0 b.evg.armed port = 1 then
    ({ b with evg := { b.evg with armed := Sp.set 0 b.evg.armed port 0 } }).msixSend port
  else b

/-- An event record (R500). -/
def evRecord (src cnt die phase seq : Nat) (shank : DWord) : Nat :=
  src + 2 ^ 16 * cnt + 2 ^ 24 * die + 2 ^ 28 * phase + 2 ^ 32 * (seq % 2 ^ 32) + 2 ^ 64 * shank.toNat

/-- One eligible source presented (R497, R499 to R501): nothing while its queue is not enabled or the host link is down, a
queue-full episode when the queue is full, else one record, the hold-off started, and the interrupt. -/
def Blk.evPresent (b : Blk) (d s : Nat) : Blk :=
  let g := s / 32
  let port := evPort d (b.evTarget d g)
  let size := b.evSize port
  let prod := b.rf ⟨.EVG_Q_PROD, port, 0⟩ Fld.EVG_Q_PROD_COUNT
  let cons := b.rf ⟨.EVG_Q_CONS, port, 0⟩ Fld.EVG_Q_CONS_COUNT
  if b.rf ⟨.EVG_Q_CFG, port, 0⟩ Fld.EVG_Q_CFG_ENABLE = 0 then b
  else if port % 16 ≠ 0 ∧ b.pins.linkUp = false then b
  else if (prod + 65536 - cons) % 65536 = size then
    if Sp.get 0 b.evg.full port = 1 then b
    else ({ b with evg := { b.evg with full := Sp.set 0 b.evg.full port 1 } }).bump ⟨.EVG_QFULL_CNT, port, 0⟩
  else
    let seq := Sp.get 0 b.evg.seq port
    let r := evRecord s (b.evCount d s) d (if seq / size % 2 = 0 then 1 else 0) seq (b.shankNow d)
    let slot := prod % size
    let b1 := if port % 16 = 0
      then { b with evg := { b.evg with cobQueue := Sp.set 0 b.evg.cobQueue (port * 4096 + slot) (BitVec.ofNat 128 r) } }
      else { b with hostMem := b.hostMem.writeNat (b.rn ⟨.EVG_Q_BASE, port, 0⟩ + 16 * slot) 16 r }
    let hold := !b.evCoalescing port && decide (b.rf ⟨.EVG_GRP_CFG, d * 16, g⟩ Fld.EVG_GRP_CFG_HOLDOFF_US ≠ 0)
    let b2 := { b1 with
      evg := { b1.evg with
        seq := Sp.set 0 b1.evg.seq port ((seq + 1) % 2 ^ 32)
        presented := Sp.set 0 b1.evg.presented (d * 2048 + s) 1
        holdoff := if hold then Sp.set 0 b1.evg.holdoff (d * 64 + g) 1 else b1.evg.holdoff } }
    ((b2.wf ⟨.EVG_Q_PROD, port, 0⟩ Fld.EVG_Q_PROD_COUNT ((prod + 1) % 65536)).tick).evSignal port

/-- The pending sources of a die in descending number (R490). -/
def Blk.evPending (b : Blk) (d : Nat) : List Nat :=
  ((b.evg.cnt.filter (fun p => decide (p.1 / 2048 = d))).map (fun p => p.1 % 2048)).reverse

/-- Every source of the die that is eligible now is presented, in descending source number (R497). -/
def Blk.evScan (b : Blk) (d : Nat) : Blk :=
  ((b.evPending d).filter (fun s => b.evEligible d s)).foldl (fun c s => c.evPresent d s) b

/-- An event: the counter advances, saturating at 255 (R494), and the source is presented if it is eligible. -/
def Blk.evRaise (b : Blk) (d s : Nat) : Blk :=
  if evExists b.pkg.sku d s then
    let k := d * 2048 + s
    ({ b with evg := { b.evg with cnt := Sp.set 0 b.evg.cnt k (min 255 (b.evCount d s + 1)) } }).evScan d
  else b

/-- A condition source's level (R494): becoming true counts one. -/
def Blk.evCond (b : Blk) (d s : Nat) (lvl : Bool) : Blk :=
  if evExists b.pkg.sku d s then
    let k := d * 2048 + s
    let was := Sp.get 0 b.evg.level k
    let b1 := { b with evg := { b.evg with level := Sp.set 0 b.evg.level k (b2n lvl) } }
    if lvl ∧ was = 0 then b1.evRaise d s else b1
  else b

/-- An event of groups 0 to 14, whose bit belongs to the firmware (R491, log entry 4). -/
def Blk.evGroup (b : Blk) (d g kind : Nat) : Blk := b.evRaise d (32 * g + (Config.evgBit kind).val)

/-- An event of a partition raised to its virtual function and to the physical function (R492). -/
def Blk.evPart (b : Blk) (p bit : Nat) : Blk :=
  let b1 := b.evRaise iod0 (fnSource 0 bit)
  if p < 8 then b1.evRaise iod0 (fnSource (p + 1) bit) else b1

/-! ### The event recorder (R534 to R536) -/

/-- What a die asks the recorder to write. -/
structure RecIn where
  code : Nat
  die  : Nat
  unit : Nat := 0xFFFF
  part : Nat := 0xFF
  data : List Byte := []
deriving DecidableEq, Repr

/-- The slots of an MRAM device (R535). -/
abbrev recSlots : Nat := 1047552

/-- A record stored in a device's slot. -/
def slotPut {α : Type} (m : List (Nat × α)) (k : Nat) (v : α) : List (Nat × α) :=
  m.filter (fun p => decide (p.1 < k)) ++ [(k, v)] ++ m.filter (fun p => decide (k < p.1))

def slotGet {α : Type} (m : List (Nat × α)) (k : Nat) : Option α := (m.find? (fun p => p.1 == k)).map (·.2)

/-- Exactly 28 data bytes. -/
def recData (xs : List Byte) : List Byte := (xs ++ List.replicate 28 0).take 28

/-- The owner's write of a record: the next SEQ, both devices in service, the overwritten oldest counted, and the RECORDER
and FAULT sources raised (R492). -/
def Blk.recWrite (b : Blk) (e : RecEntry) : Blk :=
  let o := b.recd.owner
  let seq := b.recd.nextSeq
  let e' := { e with seq := seq, boot := b.recd.bootCnt }
  let full := decide (seq = b.recd.oldestSeq + recSlots)
  let st : RegRef := ⟨.REC_STATE, o, 0⟩
  let b1 := { b with recd := { b.recd with
    dev0 := if b.rf st Fld.REC_STATE_DEV0_OK = 1 then slotPut b.recd.dev0 (seq % recSlots) e' else b.recd.dev0
    dev1 := if b.rf st Fld.REC_STATE_DEV1_OK = 1 then slotPut b.recd.dev1 (seq % recSlots) e' else b.recd.dev1
    nextSeq := (seq + 1) % 2 ^ 64
    oldestSeq := if full then b.recd.oldestSeq + 1 else b.recd.oldestSeq } }
  let b2 := if full then b1.bump ⟨.REC_OVERWRITE_CNT, o, 0⟩ else b1
  let b3 := b2.evRaise iod0 (fnSource 0 4)
  if e.unit ≠ 0xFFFF ∧ e.part ≠ 0xFF then b3.evPart e.part 5 else b3

/-- A die reaches the owner unless one of the two is fenced (R37, R534). -/
def Blk.recReach (b : Blk) (d : Nat) : Bool := decide (d = b.recd.owner) || (!b.fenced d && !b.fenced b.recd.owner)

/-- A recorder entry raised by a die: written by the owner, or kept in the die's shank retention, 64 at most (R534). -/
def Blk.record (b : Blk) (r : RecIn) : Blk :=
  let e : RecEntry := {
    seq := 0, shank := b.shankNow r.die, code := r.code, die := r.die, late := false, holder := false, unit := r.unit
    part := r.part, s := (match b.part r.part with | some p => p.s % 2 ^ 32 | none => 0), data := recData r.data, boot := 0 }
  let b1 := b.tick
  if b.recReach r.die then b1.recWrite e
  else
    let h := (slotGet b.recd.held r.die).getD []
    if h.length < 64 then { b1 with recd := { b1.recd with held := slotPut b.recd.held r.die (h ++ [e]) } }
    else { b1 with recd := { b1.recd with lost := Sp.set 0 b.recd.lost r.die (Sp.get 0 b.recd.lost r.die + 1) } }

/-! ### Doorbells and messages to the host (R461 to R469) -/

/-- The host-doorbell condition of a function follows DBL_C2H and its mask (R469). -/
def Blk.bellCond (b : Blk) (f : Nat) : Blk :=
  b.evCond iod0 (fnSource f 6) (decide (b.rn ⟨.DBL_C2H, f, 0⟩ &&& (0x7FFFF - b.rn ⟨.DBL_C2H_MASK, f, 0⟩ % 0x80000) ≠ 0))

/-- A doorbell bit set by the cobbler. -/
def Blk.ring (b : Blk) (f bit : Nat) : Blk :=
  (b.wn ⟨.DBL_C2H, f, 0⟩ (setBit (b.rn ⟨.DBL_C2H, f, 0⟩) bit true)).bellCond f

/-- A doorbell bit set for every function. -/
def Blk.ringAll (b : Blk) (bit : Nat) : Blk := (List.range 9).foldl (fun c f => c.ring f bit) b

/-- The mailboxes of a function: 16 of the physical function, 4 of a virtual function. -/
def fnMailboxes (f : Nat) : Nat := if f = 0 then 16 else 4

/-- The number of a host mailbox. -/
def mbxNo (f m : Nat) : Nat := 16 * f + m

def Blk.reqFull (b : Blk) (f m : Nat) : Bool := b.rf ⟨.MBX_STATUS, f, m⟩ Fld.MBX_STATUS_REQ_FULL == 1
def Blk.rspFull (b : Blk) (f m : Nat) : Bool := b.rf ⟨.MBX_STATUS, f, m⟩ Fld.MBX_STATUS_RSP_FULL == 1
def Blk.queued (b : Blk) (f m : Nat) : List (List Byte) := (slotGet b.mbx.rspQueue (mbxNo f m)).getD []

def Blk.setQueued (b : Blk) (f m : Nat) (q : List (List Byte)) : Blk :=
  ({ b with mbx := { b.mbx with
      rspQueue := if q = [] then b.mbx.rspQueue.filter (fun x => x.1 != mbxNo f m)
                  else slotPut b.mbx.rspQueue (mbxNo f m) q } }).wf ⟨.MBX_STATUS, f, m⟩ Fld.MBX_STATUS_RSP_QUEUED q.length

/-- A message moves into the response buffer, sets FULL and the mailbox's doorbell (R466, R467). -/
def Blk.rspLoad (b : Blk) (f m : Nat) (msg : List Byte) : Blk :=
  (({ b with mbx := { b.mbx with rsp := b.mbx.rsp.write (256 * mbxNo f m) msg } }).wf
    ⟨.MBX_STATUS, f, m⟩ Fld.MBX_STATUS_RSP_FULL 1).ring f m

/-- A response or notice posted to a mailbox (R466). A full queue loses a notice and sets OVERFLOW. -/
def Blk.post (b : Blk) (f m : Nat) (msg : List Byte) : Blk :=
  if !b.rspFull f m then b.rspLoad f m msg
  else if (b.queued f m).length < 16 then b.setQueued f m (b.queued f m ++ [msg])
  else b.wf ⟨.MBX_STATUS, f, m⟩ Fld.MBX_STATUS_OVERFLOW 1

/-- A 256-byte mailbox message (R461): header and payload, zero filled. -/
def message (command length handle sender seq status flags : Nat) (payload : List Byte) : List Byte :=
  (leBytes 2 command ++ leBytes 2 length ++ leBytes 4 handle ++ leBytes 2 sender ++ leBytes 2 seq ++ leBytes 2 status ++
    [BitVec.ofNat 8 flags, 0] ++ payload ++ List.replicate 240 0).take 256

/-- SENDER of a cobbler (R464). -/
def cobblerId (d : Nat) : Nat := 3 + 16 * d

/-- SENDER of a function (R464). -/
def fnId (f : Nat) : Nat := if f = 0 then 1 else 2 + 16 * f

end Sys2Proof.Machine
end

