-- ==== Sys2Proof/Machine/EventGatherer.lean ====
section
/-!
DEFINITION. The event gatherer's commands (chapter 14): completions, queue and mask writes, events, hold-off and
coalescing timers. A port is the writer: target 0 is the cobbler of a die, 1 to 9 a function on IOD0.
-/
namespace Sys2Proof.Machine

/-- The gatherer a target acts on: its own die for a cobbler, IOD0 for a function. -/
def evDie (d t : Nat) : Nat := if t = 0 then d else iod0

/-- EVG_COMPLETE (R494, R495): a stray is counted; else the counter falls by SERVED, floored at 0, or at 1 while a condition
holds; the presentation ends, and a source still pending is eligible again. -/
def Blk.evComplete (b : Blk) (d t src served : Nat) : Blk :=
  let g := evDie d t
  let port := evPort d t
  let c := b.evCount g src
  if b.evTarget g (src / 32) ≠ t ∨ c = 0 ∨ served = 0 then b.bump ⟨.EVG_STRAY_CNT, port, 0⟩
  else
    let k := g * 2048 + src
    let n := if c - served = 0 ∧ Sp.get 0 b.evg.level k = 1 then 1 else c - served
    let b1 := { b with evg := { b.evg with
      cnt := Sp.set 0 b.evg.cnt k n, presented := Sp.set 0 b.evg.presented k 0 } }
    let b2 := if c < served then b1.bump ⟨.EVG_OVERSERVE_CNT, port, 0⟩ else b1
    b2.evScan g

/-- EVG_Q_CONS (R499, R501, R502): a write beyond PROD is ignored; else room is freed, the native interrupt is armed, or sent
at once when records remain, and the sources that a full queue held back are presented. -/
def Blk.evConsWrite (b : Blk) (d t v : Nat) : Blk :=
  let port := evPort d t
  let prod := b.rf ⟨.EVG_Q_PROD, port, 0⟩ Fld.EVG_Q_PROD_COUNT
  let cons := b.rf ⟨.EVG_Q_CONS, port, 0⟩ Fld.EVG_Q_CONS_COUNT
  if (prod + 65536 - cons) % 65536 < (v % 65536 + 65536 - cons) % 65536 then b
  else
    let b1 := b.wf ⟨.EVG_Q_CONS, port, 0⟩ Fld.EVG_Q_CONS_COUNT (v % 65536)
    let b2 := { b1 with evg := { b1.evg with full := if v % 65536 = cons then b1.evg.full else Sp.set 0 b1.evg.full port 0 } }
    let b3 :=
      if t = 0 ∨ b2.evCoalescing port = true then b2
      else if v % 65536 = prod then { b2 with evg := { b2.evg with armed := Sp.set 0 b2.evg.armed port 1 } }
      else ({ b2 with evg := { b2.evg with armed := Sp.set 0 b2.evg.armed port 0 } }).msixSend port
    b3.evScan (evDie d t)

/-- EVG_Q_CFG (R499, R502): SIZE_LOG2 clamped to 4 to 12; setting ENABLE from 0 to 1 zeroes PROD, CONS and the sequence
number, arms the native interrupt and presents what is eligible. -/
def Blk.evCfgWrite (b : Blk) (d t v : Nat) : Blk :=
  let port := evPort d t
  let r : RegRef := ⟨.EVG_Q_CFG, port, 0⟩
  let was := b.rf r Fld.EVG_Q_CFG_ENABLE
  let b1 := b.wn r (max 4 (min 12 (bits v 0 4)) + 16 * bits v 4 2)
  let b2 :=
    if was = 0 ∧ bits v 4 1 = 1 then
      let c := (b1.wn ⟨.EVG_Q_PROD, port, 0⟩ 0).wn ⟨.EVG_Q_CONS, port, 0⟩ 0
      { c with evg := { c.evg with
          seq := Sp.set 0 c.evg.seq port 0, full := Sp.set 0 c.evg.full port 0, coal := Sp.set 0 c.evg.coal port 0
          armed := if t = 0 ∨ bits v 5 1 = 1 then c.evg.armed else Sp.set 0 c.evg.armed port 1 } }
    else b1
  b2.evScan (evDie d t)

/-- EVG_MASK_g (R496, R506): ignored unless the group is bound to the writer; unmasked pending sources become eligible. -/
def Blk.evMaskWrite (b : Blk) (d t g v : Nat) : Blk :=
  let die := evDie d t
  if b.evTarget die g ≠ t then b
  else (b.wn ⟨.EVG_MASK, die * 16, g⟩ (v % 2 ^ 32)).evScan die

/-- What happened at an event source (R494), or that the open seat asserts it from an edge (R25). -/
inductive EvKind where
  | event | condTrue | condFalse
  | seat (edge : Nat)
deriving DecidableEq, Repr

/-- The edges that a compute die has. -/
def EvKind.ok : EvKind → Bool
  | .seat edge => decide (edge < 4)
  | _ => true

/-- The open seat takes part: accepted and not fenced (R23, R27). -/
def Blk.seatLive (b : Blk) : Bool :=
  b.pkg.sku.seat && decide (b.rf ⟨.IDENT_PRESENT, 0, 0⟩ Fld.IDENT_PRESENT_SEAT = 1) && !b.pkg.seatDown

/-- An access that the seat may not make (R25): an error response, counted on the die of the edge it came in by (log entry 76). -/
def Blk.seatReject (b : Blk) (edge : Nat) : Blk := { b.bump ⟨.WLT_SEAT_REJECT, if edge = 1 then 1 else 3, 0⟩ with readData := [] }

/-- EVENT_RAISE (R25, R493, R494, R497): the seat asserts the 32 sources of its own group on IOD0, and no other. -/
def Blk.eventRaise (b : Blk) (d src : Nat) : EvKind → Blk
  | .event => b.evRaise d src
  | .seat edge => if !b.seatLive then b else if d = iod0 ∧ src / 32 = 60 then b.evRaise d src else b.seatReject edge
  | .condTrue => b.evCond d src true
  | .condFalse => b.evCond d src false

/-- HOLDOFF_EXPIRY (R498): the timer ends; every eligible source of the group is presented, which starts it again. -/
def Blk.holdoffExpiry (b : Blk) (d g : Nat) : Blk :=
  if Sp.get 0 b.evg.holdoff (d * 64 + g) = 0 then b
  else ({ b with evg := { b.evg with holdoff := Sp.set 0 b.evg.holdoff (d * 64 + g) 0 } }).evScan d

/-- COALESCE_TIMER (R503): COAL_TIME_US has passed since the first record not yet signalled. -/
def Blk.coalesceTimer (b : Blk) (f : Nat) : Blk :=
  let port := iod0 * 16 + 1 + f
  if b.evCoalescing port = true ∧ Sp.get 0 b.evg.coal port ≠ 0 then
    ({ b with evg := { b.evg with coal := Sp.set 0 b.evg.coal port 0 } }).msixSend port
  else b

/-- EVG_TOP_PENDING (R504): the highest pending, unmasked source bound to the reader, with its counter. -/
def Blk.evTop (b : Blk) (d t : Nat) : Nat :=
  let g := evDie d t
  match (b.evPending g).find? (fun s => decide (b.evTarget g (s / 32) = t) && !b.evMasked g s) with
  | some s => s + 2 ^ 11 * b.evCount g s + 2 ^ 31
  | none => 0

/-- EVG_PEND_g: the pending sources of a group. -/
def Blk.evPendWord (b : Blk) (d g : Nat) : Nat :=
  (List.range 32).foldl (fun a i => if b.evCount d (32 * g + i) ≠ 0 then a + 2 ^ i else a) 0

/-- The gatherer part of a function-level reset of function f (R508): queue registers, coalescing settings, masks and
hold-offs return to their reset values and presented sources become eligible again; the counters are kept. -/
def Blk.evFlr (b : Blk) (f : Nat) : Blk :=
  let t := f + 1
  let port := iod0 * 16 + t
  let mine (k : Nat) : Bool := decide (b.evTarget iod0 (k % 64) = t)
  let b1 := { b with regs := b.regs.filter (fun x =>
    !(x.1.name.row.blk == RegBlk.evg &&
      ((decide (x.1.at_ = port) && !([RegName.EVG_STRAY_CNT, .EVG_OVERSERVE_CNT, .EVG_QFULL_CNT].contains x.1.name)) ||
       (decide (x.1.at_ = iod0 * 16) && x.1.name == RegName.EVG_MASK && mine x.1.idx)))) }
  let b2 := (List.range 64).foldl (fun c g =>
    if mine g then c.wf ⟨.EVG_GRP_CFG, iod0 * 16, g⟩ Fld.EVG_GRP_CFG_HOLDOFF_US 0 else c) b1
  { b2 with evg := { b2.evg with
    holdoff := b2.evg.holdoff.filter (fun p => !(decide (p.1 / 64 = iod0) && mine (p.1 % 64)))
    presented := b2.evg.presented.filter (fun p => !(decide (p.1 / 2048 = iod0) && mine (p.1 % 2048 / 32)))
    armed := Sp.set 0 b2.evg.armed port 0, full := Sp.set 0 b2.evg.full port 0
    coal := Sp.set 0 b2.evg.coal port 0, seq := Sp.set 0 b2.evg.seq port 0 } }

/-- A die's gatherer cleared to its reset values (R508); for IOD0 the function groups with it. -/
def Blk.evReset (b : Blk) (d : Nat) : Blk :=
  let b1 := b.resetRegs [.evg] (fun _ a => decide (a / 16 = d))
  let keep (m : Nat) (l : List (Nat × Nat)) := l.filter (fun p => decide (p.1 / m ≠ d))
  { b1 with evg := { b1.evg with
    cnt := keep 2048 b1.evg.cnt, level := keep 2048 b1.evg.level, presented := keep 2048 b1.evg.presented
    holdoff := keep 64 b1.evg.holdoff, armed := keep 16 b1.evg.armed, full := keep 16 b1.evg.full
    seq := keep 16 b1.evg.seq, coal := keep 16 b1.evg.coal
    cobQueue := b1.evg.cobQueue.filter (fun p => decide (p.1 / 65536 ≠ d)) } }

end Sys2Proof.Machine
end

