-- ==== Sys2Proof/Machine/Crypto.lean ====
section
/-!
DEFINITION. The published algorithms the module names (R229, R510): SHA-256 (FIPS 180-4), HMAC and HKDF (RFC 5869), CRC-32C
and CRC-16/CCITT-FALSE. Their constants are those of the published standards.
-/
namespace Sys2Proof.Machine

/-- The first `n` primes from a number on, looked for among the next `fuel` numbers below 18 squared. -/
def primesFrom : Nat → Nat → Nat → List Nat
  | 0, _, _ => []
  | _, 0, _ => []
  | fuel + 1, n + 1, p =>
    if (List.range 16).any (fun d => decide (d + 2 < p) && decide (p % (d + 2) = 0)) then primesFrom fuel (n + 1) (p + 1)
    else p :: primesFrom fuel n (p + 1)

/-- The largest root below `r + 2 ^ bits` whose `e`-th power does not exceed `n`, bit by bit from the top. -/
def rootBits (e n : Nat) : Nat → Nat → Nat
  | 0, r => r
  | k + 1, r => rootBits e n k (if (r + 2 ^ k) ^ e ≤ n then r + 2 ^ k else r)

/-- The first 32 bits of the fraction of a number's `e`-th root: the constants of FIPS 180-4 are those of the first primes. -/
def rootWord (e p : Nat) : Word := BitVec.ofNat 32 (rootBits e (p * 2 ^ (32 * e)) 37 0)

/-- The round constants of SHA-256: cube roots of the first 64 primes. -/
def sha256K : List Word := (primesFrom 312 64 2).map (rootWord 3)

/-- The initial hash value of SHA-256: square roots of the first 8 primes. -/
def sha256H : List Word := (primesFrom 312 8 2).map (rootWord 2)

/-- Big-endian bytes of a number, the order of FIPS 180-4. -/
def beBytes (n v : Nat) : List Byte := (leBytes n v).reverse

def beNat (xs : List Byte) : Nat := leNat xs.reverse

/-- The padding of a message of `len` bytes. -/
def sha256Pad (len : Nat) : List Byte :=
  [0x80] ++ List.replicate ((119 - len % 64) % 64) 0 ++ beBytes 8 (8 * len)

/-- The message schedule, extended word by word; the list is kept newest first. -/
def sha256Ext : Nat → List Word → List Word
  | 0, w => w
  | n + 1, w =>
    let a := w.getD 1 0
    let b := w.getD 6 0
    let c := w.getD 14 0
    let d := w.getD 15 0
    let s0 := c.rotateRight 7 ^^^ c.rotateRight 18 ^^^ (c >>> 3)
    let s1 := a.rotateRight 17 ^^^ a.rotateRight 19 ^^^ (a >>> 10)
    sha256Ext n ((s1 + b + s0 + d) :: w)

/-- One round over the eight working variables. -/
def sha256Round (v : List Word) (kw : Word × Word) : List Word :=
  match v with
  | [a, b, c, d, e, f, g, h] =>
    let s1 := e.rotateRight 6 ^^^ e.rotateRight 11 ^^^ e.rotateRight 25
    let ch := (e &&& f) ^^^ (~~~ e &&& g)
    let t1 := h + s1 + ch + kw.1 + kw.2
    let s0 := a.rotateRight 2 ^^^ a.rotateRight 13 ^^^ a.rotateRight 22
    let mj := (a &&& b) ^^^ (a &&& c) ^^^ (b &&& c)
    [t1 + (s0 + mj), a, b, c, d + t1, e, f, g]
  | _ => v

/-- `n` groups of `k` elements. -/
def chunks {α : Type} (k : Nat) : Nat → List α → List (List α)
  | 0, _ => []
  | n + 1, xs => xs.take k :: chunks k n (xs.drop k)

/-- One block of 64 bytes. -/
def sha256Block (h : List Word) (blk : List Byte) : List Word :=
  let w0 := (chunks 4 16 blk).map (fun x => BitVec.ofNat 32 (beNat x))
  let w := (sha256Ext 48 w0.reverse).reverse
  (h.zip ((sha256K.zip w).foldl sha256Round h)).map (fun p => p.1 + p.2)

/-- SHA-256 of a message, 32 bytes. -/
def sha256 (msg : List Byte) : List Byte :=
  let m := msg ++ sha256Pad msg.length
  (((chunks 64 (m.length / 64) m).foldl sha256Block sha256H).map (fun w => beBytes 4 w.toNat)).flatten

/-- A digest as a number of 256 bits, the first byte lowest (00 R6). -/
def digestVal (xs : List Byte) : BitVec 256 := BitVec.ofNat 256 (leNat xs)

/-- HMAC-SHA-256. -/
def hmac256 (key msg : List Byte) : List Byte :=
  let k0 := if key.length ≤ 64 then key else sha256 key
  let k := (k0 ++ List.replicate 64 0).take 64
  sha256 (k.map (fun x => x ^^^ 0x5C) ++ sha256 (k.map (fun x => x ^^^ 0x36) ++ msg))

/-- The expansion of HKDF-SHA-256: `n` further blocks. -/
def hkdfExpand (prk info : List Byte) : Nat → Nat → List Byte → List Byte
  | 0, _, _ => []
  | n + 1, i, t =>
    let t' := hmac256 prk (t ++ info ++ [BitVec.ofNat 8 i])
    t' ++ hkdfExpand prk info n (i + 1) t'

/-- HKDF-SHA-256 with an all-zero salt, `len` bytes. -/
def hkdf256 (ikm info : List Byte) (len : Nat) : List Byte :=
  (hkdfExpand (hmac256 (List.replicate 32 0) ikm) info ((len + 31) / 32) 1 []).take len

/-- The ASCII bytes of a string. -/
def ascii (s : String) : List Byte := s.toList.map (fun c => BitVec.ofNat 8 c.toNat)

/-- One bit of a reflected CRC-32C. -/
def crc32cBit : Nat → Nat → Nat
  | 0, c => c
  | n + 1, c => crc32cBit n (if c % 2 = 1 then (c / 2) ^^^ 0x82F63B78 else c / 2)

/-- CRC-32C (polynomial 0x1EDC6F41, reflected, initial value and final XOR all ones; R229). -/
def crc32c (xs : List Byte) : Word :=
  BitVec.ofNat 32 ((xs.foldl (fun c x => crc32cBit 8 (c ^^^ x.toNat)) 0xFFFFFFFF) ^^^ 0xFFFFFFFF)

def crc16Bit : Nat → Nat → Nat
  | 0, c => c
  | n + 1, c => crc16Bit n (if c / 0x8000 % 2 = 1 then ((2 * c) ^^^ 0x1021) % 65536 else (2 * c) % 65536)

/-- CRC-16/CCITT-FALSE (polynomial 0x1021, initial value 0xFFFF, not reflected; R229). -/
def crc16 (xs : List Byte) : BitVec 16 :=
  BitVec.ofNat 16 (xs.foldl (fun c x => crc16Bit 8 (c ^^^ (x.toNat * 256))) 0xFFFF)

end Sys2Proof.Machine
end

