-- ==== Sys2Proof/Machine/Mailbox.lean ====
section
/-!
DEFINITION. Mailbox transport and the frame of every host command: taking a request, the checks of R474 in their order,
responses, the op table and notices (R460 to R483).
-/
namespace Sys2Proof.Machine

/-- The status codes of R477, with those of the chapters it names. -/
inductive Status where
  | ok | accepted | alreadyComplete | badCommand | badPayload | badHostAddress | refusedState | refusedFunction
  | refusedHandle | refusedBusy | notSuspendable | refusedImage | refusedFeature | refusedPartition | refusedFit
  | secureStepPassed | securePartial | restoreMismatch | restoreNoGeneration | restoreCheck | replayMismatch
  | authFailed | fwImageBad | halted | opFailed | cancelled
deriving DecidableEq, Repr

/-- Their codes (R477). -/
def Status.code : Status → Nat
  | .ok => 0 | .accepted => 1 | .alreadyComplete => 2 | .badCommand => 0x100 | .badPayload => 0x101
  | .badHostAddress => 0x102 | .refusedState => 0x110 | .refusedFunction => 0x111 | .refusedHandle => 0x112
  | .refusedBusy => 0x113 | .notSuspendable => 0x114 | .refusedImage => 0x200 | .refusedFeature => 0x201
  | .refusedPartition => 0x202 | .refusedFit => 0x203 | .secureStepPassed => 0x300 | .securePartial => 0x301
  | .restoreMismatch => 0x302 | .restoreNoGeneration => 0x303 | .restoreCheck => 0x304 | .replayMismatch => 0x305
  | .authFailed => 0x400 | .fwImageBad => 0x401 | .halted => 0x500 | .opFailed => 0x501 | .cancelled => 0x502

/-- Who may issue a command (R473, "Issued by"). -/
inductive Who where
  | any | ownVf | opIssuer | pf | awl | scrub | power
deriving DecidableEq, Repr

/-- A row of the command table (R473). -/
structure CmdRow where
  code : Nat
  who  : Who
  mgmt : Bool
  cool : Bool
deriving DecidableEq, Repr

/-- The command table (R473). -/
def cmdTable : List CmdRow := [
  ⟨0x01, .any, true, true⟩, ⟨0x02, .any, true, true⟩, ⟨0x10, .ownVf, false, false⟩, ⟨0x11, .ownVf, false, false⟩,
  ⟨0x12, .ownVf, false, false⟩, ⟨0x13, .opIssuer, false, false⟩, ⟨0x14, .opIssuer, false, true⟩,
  ⟨0x15, .opIssuer, false, true⟩, ⟨0x16, .ownVf, false, false⟩, ⟨0x17, .ownVf, false, false⟩,
  ⟨0x20, .ownVf, false, false⟩, ⟨0x21, .ownVf, false, false⟩, ⟨0x30, .awl, false, false⟩, ⟨0x31, .scrub, false, false⟩,
  ⟨0x40, .power, false, true⟩, ⟨0x41, .pf, false, false⟩, ⟨0x50, .pf, true, true⟩, ⟨0x51, .pf, true, true⟩,
  ⟨0x60, .pf, true, false⟩, ⟨0x61, .pf, true, false⟩, ⟨0x62, .pf, true, false⟩, ⟨0x63, .any, true, true⟩]

def cmdRow (code : Nat) : Option CmdRow := cmdTable.find? (fun r => r.code == code)

/-- A request as the master takes it (R461): its mailbox, header fields, 240 payload bytes and the reserved byte of its header. -/
structure Req where
  fn     : Nat
  mbx    : Nat
  code   : Nat
  len    : Nat
  handle : Nat
  seq    : Nat
  pay    : List Byte
  res    : Nat := 0
deriving DecidableEq, Repr

/-- A payload field of `n` bytes at `off`. -/
def Req.u (r : Req) (off n : Nat) : Nat := leNat ((r.pay.drop off).take n)

def parseReq (f m : Nat) (msg : List Byte) : Req :=
  let u (off n : Nat) := leNat ((msg.drop off).take n)
  { fn := f, mbx := m, code := u 0 2, len := u 2 2, handle := u 4 4, seq := u 10 2, pay := (msg.drop 16).take 240, res := u 15 1 }

/-- The request that stands in a mailbox. -/
def Blk.reqOf (b : Blk) (f m : Nat) : Req := parseReq f m (b.mbx.req.read (256 * mbxNo f m) 256)

/-- Whether the master takes the request of a mailbox now (R466, R517, R548): a message stands in it, start-up has ended, at
most 15 messages wait behind the response; in recovery mode only host mailbox 0 is served. -/
def Blk.canTake (b : Blk) (f m : Nat) : Bool :=
  decide (m < fnMailboxes f) && b.reqFull f m && decide (5 ≤ b.stage) && decide ((b.queued f m).length < 16) &&
  (decide (b.stage ≠ 8) || (decide (f = 0) && decide (m = 0)))

/-- A response (R461, R465): the request leaves its buffer, its SEQUENCE and the response are recorded, the response is
posted. -/
def Blk.reply (b : Blk) (r : Req) (st : Status) (handle : Nat) (payload : List Byte) : Blk :=
  let msg := message r.code payload.length handle (cobblerId b.master) r.seq st.code 0 payload
  ((({ b with mbx := { b.mbx with lastSeq := slotPut b.mbx.lastSeq (mbxNo r.fn r.mbx) (r.seq, msg) } }).wf
    ⟨.MBX_STATUS, r.fn, r.mbx⟩ Fld.MBX_STATUS_REQ_FULL 0)).post r.fn r.mbx msg

/-- Every byte outside the listed (offset, length) fields and the header's reserved byte are 0 (R461, R476), and LENGTH is at most 240. -/
def Req.reservedOk (r : Req) (used : List (Nat × Nat)) : Bool :=
  decide (r.len ≤ 240) && decide (r.res = 0) &&
  r.pay.zipIdx.all (fun (x : Byte × Nat) => used.any (fun (p : Nat × Nat) => decide (p.1 ≤ x.2) && decide (x.2 < p.1 + p.2)) || decide (x.1 = 0))

/-- The virtual function's own partition (R487). -/
def Blk.ownPart (f p : Nat) : Bool := decide (p + 1 = f)

/-- The issuer check (R473, R474 check 2, R476, R487). -/
def Blk.issuerOk (b : Blk) (r : Req) (w : CmdRow) : Bool :=
  let own := Blk.ownPart r.fn (r.u 0 1)
  decide (r.fn = 0) ||
  (((b.part (r.fn - 1)).isSome || decide (r.code = 0x01) || decide (r.code = 0x02) || decide (r.code = 0x63)) &&
   match w.who with
   | .any => decide (r.code ≠ 0x02) || !(decide (r.u 0 1 = 1) || decide (r.u 0 1 = 3)) || Blk.ownPart r.fn (r.u 1 1)
   | .ownVf => own
   | .opIssuer => true
   | .pf => false
   | .awl => (List.range (r.u 0 1)).all (fun i =>
       let u := r.u (2 + 2 * i) 2
       decide (unitDie u < 4) && decide (b.partOf (unitCluster u) = some (r.fn - 1)))
   | .scrub => own
   | .power => decide (r.u 0 1 = 2) && Blk.ownPart r.fn (r.u 1 1))

/-- A coolant stop or thermal trip in force: from its declaration until RESUME in COOLANT_WAIT has ended it (R453). -/
def Blk.coolant (b : Blk) : Bool := b.pwr.coolStop || b.pwr.wait

/-- The module-state check (R474 check 3; R32, R453, R517). -/
def Blk.moduleOk (b : Blk) (r : Req) (w : CmdRow) : Bool :=
  (decide (b.stage ≠ 6) || w.mgmt) &&
  (decide (b.stage ≠ 8) || decide (r.code = 0x01) || (decide (r.code = 0x02) && decide (r.u 0 1 = 0)) ||
    decide (r.code = 0x50) || decide (r.code = 0x62)) &&
  (!b.coolant || (w.cool && (decide (r.code ≠ 0x40) || decide (r.u 0 1 &&& 0x1C = 0))))

/-- The checks of R474 in their order; `none` when all pass. The five Bools are a command's own: state refused, scope missing,
payload bad, handle bad, no room for another long operation. -/
def Blk.judge (b : Blk) (r : Req) (stateBad scopeBad payBad handleBad busy : Bool) : Option Status :=
  match cmdRow r.code with
  | none => some .badCommand
  | some w =>
    if !b.issuerOk r w then some .refusedFunction
    else if !b.moduleOk r w || stateBad then some .refusedState
    else if scopeBad then some .authFailed
    else if payBad then some .badPayload
    else if handleBad then some .refusedHandle
    else if busy then some .refusedBusy
    else none

/-- Requests of a known command that have no form of their own: a QUERY_STATE class above 5, a SECURE_STATE mode above 4, a
SUSPEND mode above 1, a SET_PARTITION action above 1, a SET_POWER that sets nothing or names an unknown bit. -/
def Req.noForm (r : Req) : Bool :=
  (decide (r.code = 0x02) && decide (5 < r.u 0 1)) || (decide (r.code = 0x20) && decide (4 < r.u 1 1)) ||
  (decide (r.code = 0x13) && decide (1 < r.u 0 1)) || (decide (r.code = 0x41) && decide (1 < r.u 1 1)) ||
  (decide (r.code = 0x40) && (decide (r.u 0 1 = 0) || decide (31 < r.u 0 1)))

/-- What the master does with a mailbox at once (R465, R474): a resend gets the recorded response, an unknown command or a
request of no form its refusal; any other request waits for the command that carries it out. -/
def Blk.submit (b : Blk) (f m : Nat) : Blk :=
  if b.canTake f m then
    let r := b.reqOf f m
    let last := slotGet b.mbx.lastSeq (mbxNo f m)
    match last with
    | some (q, msg) =>
      if q = r.seq then (b.wf ⟨.MBX_STATUS, f, m⟩ Fld.MBX_STATUS_REQ_FULL 0).post f m msg
      else if (cmdRow r.code).isNone ∨ r.noForm = true then
        b.reply r ((b.judge r false false true false false).getD .badPayload) 0 []
      else b
    | none =>
      if (cmdRow r.code).isNone ∨ r.noForm = true then
        b.reply r ((b.judge r false false true false false).getD .badPayload) 0 []
      else b
  else b

/-- A 256-byte message with SENDER as the hardware stamps it (R464). -/
def stampSender (id : Nat) (msg : List Byte) : List Byte :=
  let x := (msg ++ List.replicate 256 0).take 256
  x.take 8 ++ leBytes 2 id ++ x.drop 10

/-- HOST_REQUEST (R462, R464, R465): a full buffer drops the write; else the 256-byte message stands in it with SENDER stamped
by the hardware and FULL set, and is submitted. -/
def Blk.hostRequest (b : Blk) (f m : Nat) (msg : List Byte) : Blk :=
  if b.reqFull f m then b.wf ⟨.MBX_STATUS, f, m⟩ Fld.MBX_STATUS_DROPPED 1
  else
    (({ b with mbx := { b.mbx with req := b.mbx.req.write (256 * mbxNo f m) (stampSender (fnId f) msg) } }).wf
      ⟨.MBX_STATUS, f, m⟩ Fld.MBX_STATUS_REQ_FULL 1).submit f m

/-- RESPONSE_READ (R462, R466): the read of word 3 clears FULL, the next queued message moves in, and a request that waited
for room in the queue is submitted. The response is what the host read. -/
def Blk.responseRead (b : Blk) (f m : Nat) : Blk :=
  let b0 := { b with readData := b.mbx.rsp.read (256 * mbxNo f m) 256 }
  if !b.rspFull f m then b0
  else
    match b.queued f m with
    | [] => (b0.wf ⟨.MBX_STATUS, f, m⟩ Fld.MBX_STATUS_RSP_FULL 0).submit f m
    | x :: xs => ((b0.setQueued f m xs).rspLoad f m x).submit f m

/-- MBX_REQUEST_TIMEOUT (R463): a request still in its buffer sets TIMEOUT and stays. -/
def Blk.requestTimeout (b : Blk) (f m : Nat) : Blk :=
  if b.reqFull f m then b.wf ⟨.MBX_STATUS, f, m⟩ Fld.MBX_STATUS_TIMEOUT 1 else b

/-- MBX_LOCK read (R468): 0 and the lock when it is free, else the owner. -/
def Blk.lockRead (b : Blk) (f m : Nat) (lockFn : Nat) : Blk :=
  let r : RegRef := ⟨.MBX_LOCK, lockFn, m⟩
  let o := b.rn r
  let b1 := { b with readData := leBytes 4 o }
  if o = 0 then b1.wn r (fnId f) else b1

/-- MBX_LOCK write (R468): only the owner's write of 0 releases. -/
def Blk.lockWrite (b : Blk) (f m v lockFn : Nat) : Blk :=
  let r : RegRef := ⟨.MBX_LOCK, lockFn, m⟩
  if v % 65536 = 0 ∧ b.rn r = fnId f then b.wn r 0 else b

/-- MBX_LOCK_BREAK (R468). -/
def Blk.lockBreak (b : Blk) (mask : Nat) : Blk :=
  (List.range 16).foldl (fun c m => if bitOf mask m then c.wn ⟨.MBX_LOCK, 0, m⟩ 0 else c) b

/-! ### The op table (R460, R478 to R483) -/

def OpState.final : OpState → Bool
  | .complete | .cancelled | .failed => true
  | _ => false

def OpState.code : OpState → Nat
  | .queued => 0 | .running => 1 | .suspended => 2 | .complete => 3 | .cancelled => 4 | .failed => 5

def OpKind.command : OpKind → Nat
  | .loadLast => 0x10 | .unloadLast => 0x11 | .runSteps => 0x12 | .replayStep => 0x16 | .reshard => 0x17
  | .secure => 0x20 | .export_ => 0x20 | .restore => 0x21 | .awlTest => 0x30 | .scrub => 0x31 | .fwUpdate => 0x62
  | .attest => 0x63

/-- The operations of the set of which a partition holds one at a time (R479). -/
def OpKind.exclusive : OpKind → Bool
  | .loadLast | .unloadLast | .runSteps | .replayStep | .restore => true
  | _ => false

def Blk.opsOpen (b : Blk) : Nat := (b.mbx.ops.filter (fun o => !o.st.final)).length

/-- 64 operations that have not reached a final state are held (R478). -/
def Blk.opsBusy (b : Blk) : Bool := decide (64 ≤ b.opsOpen)

def Blk.op (b : Blk) (h : Nat) : Option LongOp := b.mbx.ops.find? (fun o => o.handle == h)

def Blk.setOp (b : Blk) (o : LongOp) : Blk :=
  { b with mbx := { b.mbx with ops := b.mbx.ops.map (fun x => if x.handle = o.handle then o else x) } }

/-- The unfinished operation of a kind on a partition. -/
def Blk.opOn (b : Blk) (p : Nat) (q : OpKind → Bool) : Option LongOp :=
  b.mbx.ops.find? (fun o => decide (o.part = p) && !o.st.final && q o.kind)

/-- A RUN_STEPS of the partition in a given state. -/
def Blk.runOf (b : Blk) (p : Nat) : Option LongOp := b.opOn p (fun k => k == .runSteps || k == .replayStep)

def Blk.running (b : Blk) (p : Nat) : Bool :=
  match b.opOn p (fun k => k == .runSteps) with
  | some o => o.st == .running
  | none => false

def Blk.exclusiveBusy (b : Blk) (p : Nat) : Bool := (b.opOn p OpKind.exclusive).isSome

/-- The next serial that is not the serial of an operation still held (R478). -/
def Blk.nextSerial (b : Blk) : Nat :=
  let held := b.mbx.ops.map (fun o => o.handle / 256)
  match (List.range 256).find? (fun i => !(held.contains ((b.mbx.serial + i) % 2 ^ 24)) && decide ((b.mbx.serial + i) % 2 ^ 24 ≠ 0)) with
  | some i => (b.mbx.serial + i) % 2 ^ 24
  | none => b.mbx.serial

def mkHandle (f m serial : Nat) : Nat := m + 16 * f + 256 * serial

/-- A long operation created: the op table gets it, and the request is answered ACCEPTED with the handle (R473, R478). -/
def Blk.accept (b : Blk) (r : Req) (o : LongOp) : Blk :=
  let n := b.nextSerial
  let h := mkHandle r.fn r.mbx n
  ({ b with mbx := { b.mbx with
      ops := b.mbx.ops ++ [{ o with handle := h, fn := r.fn, mbx := r.mbx }], serial := n + 1 } }).reply r .accepted h []

/-- The result bytes of a notice: (offset, width, value) triples from byte 16 (R480). -/
def resultBytes (xs : List (Nat × Nat × Nat)) : List Byte :=
  (Mem.read (xs.foldl (fun m x => m.writeNat x.1 x.2.1 x.2.2) ([] : Mem)) 0 240)

/-- A notice of an operation's state (R480). -/
def Blk.notice (b : Blk) (o : LongOp) : Blk :=
  let pay := resultBytes ([(0, 4, o.handle), (4, 2, o.kind.command), (6, 1, o.st.code), (8, 2, o.status), (10, 2, o.detail)] ++ o.result)
  b.post o.fn o.mbx (message o.kind.command 240 o.handle (cobblerId b.master) 0 o.status 1 pay)

/-- An operation reaches a final state: the record is committed, the notice posted, and the operation that reached its
final state 64 operations ago is retired (R478, R480, R483). -/
def Blk.finish (b : Blk) (o : LongOp) : Blk :=
  let b1 := b.setOp o
  let q := b1.mbx.retired ++ [o.handle]
  let drop := q.length - 64
  let gone := q.take drop
  let b2 := { b1 with mbx := { b1.mbx with
    retired := q.drop drop, ops := b1.mbx.ops.filter (fun x => !gone.contains x.handle) } }
  b2.notice o

/-- An operation's work ends; its completion record is committed by OP_COMPLETION_COMMIT. -/
def Blk.endOp (b : Blk) (h : Nat) (st : Status) (detail : Nat) (result : List (Nat × Nat × Nat)) : Blk :=
  match b.op h with
  | some o => if o.st.final then b else
      b.setOp { o with ended := true, status := st.code, detail := detail, result := result }
  | none => b

/-- OP_COMPLETION_COMMIT (R483): an operation whose work has ended becomes COMPLETE, or FAILED where its status is a
failure. -/
def Blk.opCommit (b : Blk) (h : Nat) : Blk :=
  match b.op h with
  | some o =>
    if o.ended ∧ o.st.final = false then
      b.finish { o with st := if o.status = 0 ∨ o.status = Status.securePartial.code then .complete else .failed }
    else b
  | none => b

/-- An operation of the op table named by a request (check 5 of R474): unfinished or readable, and of the caller unless the
physical function asks. -/
def Blk.handleOp (b : Blk) (r : Req) : Option LongOp :=
  match b.op r.handle with
  | some o => if r.fn = 0 ∨ o.fn = r.fn then some o else none
  | none => none

/-! ### Host memory (R475) -/

/-- A host-memory range is reachable: the link is up and no byte lies in a range that does not answer. -/
def Blk.hostOk (b : Blk) (a n : Nat) : Bool :=
  b.pins.linkUp && b.hostHole.all (fun h => decide (a + n ≤ h.1) || decide (h.1 + h.2 ≤ a))

def Blk.hostRead (b : Blk) (a n : Nat) : Option (List Byte) :=
  if b.hostOk a n then some (b.hostMem.read a n) else none

def Blk.hostWrite (b : Blk) (a : Nat) (xs : List Byte) : Option Blk :=
  if b.hostOk a xs.length then some { b with hostMem := b.hostMem.write a xs } else none

/-- The entries (address, length) of a scatter list (R475): 4 KiB-aligned addresses, lengths a multiple of 4 KiB but for the
last. -/
def Blk.scatter (b : Blk) (a n : Nat) : Option (List (Nat × Nat)) :=
  match b.hostRead a (16 * n) with
  | none => none
  | some xs =>
    let e := (List.range n).map (fun i => (leNat ((xs.drop (16 * i)).take 8), leNat ((xs.drop (16 * i + 8)).take 8)))
    if e.all (fun p => p.1 % 4096 == 0 && b.hostOk p.1 p.2) && (e.dropLast).all (fun p => p.2 % 4096 == 0) then some e
    else none

/-- The bytes a scatter list names. -/
def Blk.scatterRead (b : Blk) (e : List (Nat × Nat)) : List Byte := (e.map (fun p => b.hostMem.read p.1 p.2)).flatten

/-- Bytes written along a scatter list. -/
def Blk.scatterWrite (b : Blk) : List (Nat × Nat) → List Byte → Blk
  | [], _ => b
  | p :: ps, xs => ({ b with hostMem := b.hostMem.write p.1 (xs.take p.2) }).scatterWrite ps (xs.drop p.2)

/-! ### Messages inside the package (R472) -/

/-- Clusters of a partition. -/
def maskList (mask n : Nat) : List Nat := (List.range n).filter (fun i => bitOf mask i)

/-- COBBLER_MESSAGE (R472, R461, R462): a message into a cobbler's inbound mailbox from another die's cobbler, or into an I/O
die's peer mailbox (source 15, the eyelet it came by in byte 9); a full mailbox ignores it, and nothing passes
to or from a fenced die (R37). Its gatherer source is bit p of group 13. -/
def Blk.cobblerMessage (b : Blk) (dst src : Nat) (msg : List Byte) : Blk :=
  let k := dst * 16 + src
  if (slotGet b.mbx.cobbler k).isSome || b.fenced src || b.fenced dst then b
  else ({ b with mbx := { b.mbx with cobbler := slotPut b.mbx.cobbler k (stampSender (if src = 15 then 5 + 256 * (msg.getD 9 0).toNat else cobblerId src) msg) } }).evRaise dst (32 * 13 + src)

/-- DIE_DOORBELL (R472): bit n of a die's doorbells, which drives bit n of group 12 unless it is masked; bits 0 to 9 come from the cobblers, of which a
fenced die's is not accepted (R37). -/
def Blk.dieDoorbell (b : Blk) (d bit : Nat) : Blk :=
  if b.fenced d || (decide (bit < 10) && b.fenced bit) then b else
  let b1 := { b with mbx := { b.mbx with dieBell := Sp.set 0 b.mbx.dieBell d (setBit (Sp.get 0 b.mbx.dieBell d) bit true) } }
  if bitOf (Sp.get 0 b.mbx.dieMask d) bit then b1 else b1.evRaise d (32 * 12 + bit)

end Sys2Proof.Machine
end

