-- ==== Sys2Proof/Machine/Recorder.lean ====
section
/-!
DEFINITION. The event recorder's commands (R534 to R538): entries, forwarding, reading and clearing.
-/
namespace Sys2Proof.Machine

/-- The 64 bytes of a record (R536); a placeholder holds zeros but for its SEQ and its flag (R537). -/
def RecEntry.bytes (e : RecEntry) : List Byte :=
  let body := leBytes 8 e.seq ++ leBytes 8 e.shank.toNat ++ leBytes 2 e.code ++ [BitVec.ofNat 8 (e.die % 16)] ++
    [BitVec.ofNat 8 (b2n e.late + 2 * b2n e.holder)] ++ leBytes 2 e.unit ++ [BitVec.ofNat 8 e.part, 0] ++ leBytes 4 e.s ++
    recData e.data ++ leBytes 4 e.boot
  body ++ (if e.holder then leBytes 4 0 else leBytes 4 (crc32c body).toNat)

/-- A placeholder for a record unreadable on both devices (R537). -/
def recPlaceholder (seq : Nat) : RecEntry :=
  { seq := seq, shank := 0, code := 0, die := 0, late := false, holder := true, unit := 0, part := 0, s := 0, data := [], boot := 0 }

/-- RECORDER_ENTRY (R534, R535): a die's entry; `bad0` and `bad1` say that the write to device 0 or 1 failed three read-backs
in a row. A failed device is retired and RECORDER_MIRROR_LOST is written on the other. -/
def Blk.recorderEntry (b : Blk) (r : RecIn) (bad0 bad1 : Bool) : Blk :=
  if !b.recReach r.die then b.record r
  else
    let st : RegRef := ⟨.REC_STATE, b.recd.owner, 0⟩
    let lost0 := bad0 && decide (b.rf st Fld.REC_STATE_DEV0_OK = 1)
    let lost1 := bad1 && decide (b.rf st Fld.REC_STATE_DEV1_OK = 1)
    let b1 := if lost0 then b.wf st Fld.REC_STATE_DEV0_OK 0 else b
    let b2 := if lost1 then b1.wf st Fld.REC_STATE_DEV1_OK 0 else b1
    let b3 := b2.record r
    if lost0 || lost1 then
      b3.record { code := 0x0015, die := b.recd.owner, data := [BitVec.ofNat 8 (b2n lost0 + 2 * b2n lost1)] }
    else b3

/-- RECORDER_FORWARD (R534): a die's held entries reach the owner, marked late, and one RECORDER_LOST entry counts those that
were not kept. -/
def Blk.recorderForward (b : Blk) (d : Nat) : Blk :=
  if !b.recReach d then b
  else
    let h := (slotGet b.recd.held d).getD []
    let n := Sp.get 0 b.recd.lost d
    let b1 := h.foldl (fun c e =>
      (c.recWrite { e with late := true }).bump ⟨.REC_LATE_CNT, c.recd.owner, 0⟩) b
    let b2 := { b1 with recd := { b1.recd with
      held := b1.recd.held.filter (fun x => x.1 != d), lost := Sp.set 0 b1.recd.lost d 0 } }
    if n = 0 then b2 else b2.record { code := 0x0017, die := d, data := leBytes 4 n }

/-- One record as READ_RECORDER returns it: from a device where its CRC holds, else the placeholder. `bad0` and `bad1` are the
SEQs whose record fails its CRC on a device; what failed on one device is rewritten from the other. -/
def Blk.recFetch (b : Blk) (seq : Nat) (bad0 bad1 : List Nat) : Option RecEntry :=
  let st : RegRef := ⟨.REC_STATE, b.recd.owner, 0⟩
  let pick (m : List (Nat × RecEntry)) (ok : Nat) (bad : List Nat) : Option RecEntry :=
    if ok = 1 ∧ bad.contains seq = false then (slotGet m (seq % recSlots)).filter (fun e => e.seq == seq) else none
  let a := pick b.recd.dev0 (b.rf st Fld.REC_STATE_DEV0_OK) bad0
  let c := pick b.recd.dev1 (b.rf st Fld.REC_STATE_DEV1_OK) bad1
  match a, c with
  | some e, _ => some e
  | none, some e => some e
  | none, none => if bad0.contains seq || bad1.contains seq then some (recPlaceholder seq) else none

/-- READ_RECORDER (R537). -/
def Blk.readRecorder (b : Blk) (f m : Nat) (bad0 bad1 : List Nat) : Blk :=
  if !b.canTake f m then b
  else
    let r := b.reqOf f m
    if r.code ≠ 0x50 then b
    else
      let bytes := r.u 16 4
      let payBad := !r.reservedOk [(0, 20)] || decide (bytes % 64 ≠ 0) || decide (bytes < 64) || decide (2 ^ 20 < bytes)
      match b.judge r false false payBad false false with
      | some st => b.reply r st 0 []
      | none =>
        let from_ := max (r.u 0 8) b.recd.oldestSeq
        let n := min (bytes / 64) (b.recd.nextSeq - from_)
        let recs := (List.range n).filterMap (fun i => b.recFetch (from_ + i) bad0 bad1)
        match b.hostWrite (r.u 8 8) (recs.map RecEntry.bytes).flatten with
        | none => b.reply r .badHostAddress 0 []
        | some b1 =>
          let st : RegRef := ⟨.REC_STATE, b.recd.owner, 0⟩
          let both := decide (b.rf st Fld.REC_STATE_DEV0_OK = 1) && decide (b.rf st Fld.REC_STATE_DEV1_OK = 1)
          let fixed := recs.filter (fun e => both && !e.holder && (bad0.contains e.seq || bad1.contains e.seq))
          let b2 := fixed.foldl (fun c e => { (c.bump ⟨.REC_REPAIR_CNT, c.recd.owner, 0⟩) with recd := { c.recd with
            dev0 := slotPut c.recd.dev0 (e.seq % recSlots) e, dev1 := slotPut c.recd.dev1 (e.seq % recSlots) e } }) b1
          let b3 := if fixed = [] then b2 else b2.record { code := 0x0016, die := b.recd.owner }
          b3.reply r .ok 0 (leBytes 8 from_ ++ leBytes 8 (from_ + n) ++ leBytes 8 b.recd.oldestSeq ++ leBytes 4 recs.length ++
            [BitVec.ofNat 8 (b2n (decide (r.u 0 8 < b.recd.oldestSeq)))])

/-- The erasure of the records up to a sequence: the part of CLEAR_RECORDER that a power loss can cut off (R538). -/
def Blk.recErase (b : Blk) (upto : Nat) : Blk :=
  { b with recd := { b.recd with
    dev0 := b.recd.dev0.filter (fun p => decide (upto < p.2.seq))
    dev1 := b.recd.dev1.filter (fun p => decide (upto < p.2.seq))
    oldestSeq := max b.recd.oldestSeq (upto + 1) } }

/-- CLEAR_RECORDER (R538): the RECORDER_CLEAR scope, then the payload; RECORDER_CLEARED is written, REC_CLEARED_UPTO set and
the records erased. -/
def Blk.clearRecorder (b : Blk) (f m : Nat) : Blk :=
  if !b.canTake f m then b
  else
    let r := b.reqOf f m
    if r.code ≠ 0x51 then b
    else
      let upto := r.u 0 8
      let payBad := !r.reservedOk [(0, 8)] || decide (b.recd.nextSeq ≤ upto)
      match b.judge r false (!bitOf b.sec.scopes 1) payBad false false with
      | some st => b.reply r st 0 []
      | none =>
        let n := upto + 1 - b.recd.oldestSeq
        let b1 := b.record { code := 0x0013, die := b.recd.owner
                             data := leBytes 8 upto ++ leBytes 8 n ++ leBytes 4 b.sec.scopes ++ leBytes 8 b.sec.grantKey }
        let b2 := { b1 with recd := { b1.recd with cleared := max b1.recd.cleared upto } }
        (b2.recErase upto).reply r .ok 0 []

end Sys2Proof.Machine
end

