-- ==== Sys2Proof/Machine/Aglets.lean ====
section
/-!
DEFINITION. Aglets: their layout, their two CRCs, the aglet of a block written by the hardware, and the checks of R178
(R177 to R179, R227 to R230).
-/
namespace Sys2Proof.Machine

/-- The fields of an aglet (R227) but its ACRC. -/
structure Aglet where
  pcrc    : Nat
  tag     : Nat
  version : Nat
  format  : Nat
  flags   : Nat
  epoch   : Nat
  kind    : Nat
  samples : Nat
deriving DecidableEq, Repr

/-- The aglet of a block cleared at a package reset (R230): an all-zero payload's PCRC, the zero-block flag, its ACRC. -/
def aglet0 : BitVec 128 := BitVec.ofNat 128 (2566472073 + 8 * 2 ^ 72 + 15189 * 2 ^ 112)

def Aglet.parse (w : BitVec 128) : Aglet :=
  let v := w.toNat
  { pcrc := bits v 0 32, tag := bits v 32 16, version := bits v 48 16, format := bits v 64 8, flags := bits v 72 8
    epoch := bits v 80 12, kind := bits v 92 4, samples := bits v 96 16 }

/-- Bytes 0 to 13. -/
def Aglet.body (a : Aglet) : List Byte :=
  leBytes 14 (a.pcrc % 2 ^ 32 + 2 ^ 32 * (a.tag % 65536) + 2 ^ 48 * (a.version % 65536) + 2 ^ 64 * (a.format % 256) +
    2 ^ 72 * (a.flags % 256) + 2 ^ 80 * (a.epoch % 4096) + 2 ^ 92 * (a.kind % 16) + 2 ^ 96 * (a.samples % 65536))

/-- The 16 bytes with the ACRC computed. -/
def Aglet.pack (a : Aglet) : BitVec 128 := BitVec.ofNat 128 (leNat a.body + 2 ^ 112 * (crc16 a.body).toNat)

/-- The ACRC field is the CRC of bytes 0 to 13. -/
def agletCrcOk (w : BitVec 128) : Bool := decide (w.toNat / 2 ^ 112 = (crc16 (leBytes 14 w.toNat)).toNat)

def Aglet.poison (a : Aglet) : Bool := bitOf a.flags 0
def Aglet.stale (a : Aglet) : Bool := bitOf a.flags 1
def Aglet.zeroBlk (a : Aglet) : Bool := bitOf a.flags 3
def Aglet.nonfin (a : Aglet) : Bool := bitOf a.flags 4

/-- The aglet with its poison flag set and its ACRC recomputed (R234). -/
def agletPoison (w : BitVec 128) : BitVec 128 :=
  let a := Aglet.parse w
  Aglet.pack { a with flags := setBit a.flags 0 true }

/-- The zero-block and non-finite-present flags of a payload in a format code (R100, R231): for 0x00 and EXT16 zero-block when every
byte is 0; scales held outside play no part. -/
def payloadFlags (format : Nat) (xs : List Byte) : Bool × Bool :=
  match Fmt.ofCode format with
  | none => (xs.all (fun x => x == 0), false)
  | some .ext16 => (xs.all (fun x => x == 0), false)
  | some f =>
    let es := (List.range f.perBlock).map (fun i => f.decode (f.getElem (fun j => xs.getD j 0) i))
    (es.all FVal.zero?, es.any (fun x => !x.finite))

/-- A block as it travels: payload and aglet. -/
structure Block where
  pay : List Byte
  agl : BitVec 128
deriving DecidableEq, Repr

/-- A block poisoned. -/
def Block.poisoned (x : Block) : Block := { x with agl := agletPoison x.agl }

def zeros (n : Nat) : List Byte := List.replicate n 0

/-- What the checks of R178 expect. -/
structure Expect where
  tag     : Nat
  format  : Nat
  epoch   : Option Nat
  version : Option Nat
deriving DecidableEq, Repr

/-- The statuses of R174. -/
inductive EStat where
  | ok | skipped | badDesc | partition | format | address | missing | poisonIn | agletCrc | agletId | version
  | stashExhausted | seatDown | fault | discarded
deriving DecidableEq, Repr

def EStat.code : EStat → Nat
  | .ok => 0 | .skipped => 1 | .badDesc => 0x10 | .partition => 0x11 | .format => 0x13 | .address => 0x18 | .missing => 0x19
  | .poisonIn => 0x20 | .agletCrc => 0x21 | .agletId => 0x22 | .version => 0x23 | .stashExhausted => 0x25 | .seatDown => 0x27
  | .fault => 0x30 | .discarded => 0x32

/-- The rank of a status when several causes arise (R174): the first that applies is reported. -/
def EStat.rank : EStat → Nat
  | .fault => 0 | .discarded => 1 | .seatDown => 2 | .stashExhausted => 3 | .agletCrc => 4 | .agletId => 5 | .version => 6
  | .poisonIn => 7 | .missing => 8 | .ok => 9 | .skipped => 9 | _ => 0

def EStat.worse (a c : EStat) : EStat := if c.rank < a.rank then c else a

/-- The checks of R178 in their order on one block: the first that fails, and the block as delivered. -/
def Block.check (x : Block) (e : Expect) : EStat × Block :=
  let a := Aglet.parse x.agl
  if !agletCrcOk x.agl || decide ((crc32c x.pay).toNat ≠ a.pcrc) then (.agletCrc, x.poisoned)
  else if a.poison then (.poisonIn, x.poisoned)
  else if a.tag ≠ e.tag ∨ (e.format ≠ 0 ∧ a.format ≠ e.format) ∨ e.epoch.any (fun n => n != a.epoch) = true then (.agletId, x.poisoned)
  else match e.version with
    | some v => if a.version ≠ v ∨ a.stale = true then (.version, x) else (.ok, x)
    | none => (.ok, x)

/-- A block written with a freshly generated aglet (R179). -/
def Block.make (pay : List Byte) (a : Aglet) (poison zero nonfin replayed : Bool) : Block :=
  { pay := pay
    agl := Aglet.pack { a with pcrc := (crc32c pay).toNat
                               flags := b2n poison + 4 * b2n replayed + 8 * b2n zero + 16 * b2n nonfin } }

end Sys2Proof.Machine
end

