-- ==== Sys2Proof/Machine/Hbm.lean ====
section
/-!
DEFINITION. The memory system: channel list and map, block reads and writes, errors and poison, repair, map-out and re-lay, the
BAR2 window, insole scrub (R168, R169, R212 to R243, R573).
-/
namespace Sys2Proof.Machine

/-- Data blocks of a pseudo-channel (R215). -/
abbrev hbmD : Nat := 260864

/-- The I/O die of a pseudo-channel. -/
def pcDie (pc : Nat) : Nat := stackDie (pc / 64)

def outReg (st : Nat) : RegRef := ⟨.HBM_PC_OUT, stackDie st, stackQ st⟩
def pendReg (st : Nat) : RegRef := ⟨.HBM_PC_PEND, stackDie st, stackQ st⟩
abbrev capReg : RegRef := ⟨.HBM_CAP, iod0, 0⟩

/-- The pseudo-channel at a list position of a package with n I/O dies (R217). -/
def posPc (n pos : Nat) : Nat := 64 * (4 * (pos % n) + pos / n % 4) + pos / n / 4

/-- The pseudo-channels that a mask register by stack holds. -/
def Blk.pcMasks (b : Blk) (r : Nat → RegRef) : List Nat := (List.range b.pkg.sku.stacks).map (fun st => b.rn (r st))

def inMasks (ms : List Nat) (pc : Nat) : Bool := bitOf (ms.getD (pc / 64) 0) (pc % 64)

/-- The channel list in force (R217): every position but those out of use, compacted. -/
def Blk.chanList (b : Blk) : List Nat :=
  let n := b.pkg.sku.iods
  let out := b.pcMasks outReg
  ((List.range (256 * n)).map (posPc n)).filter (fun pc => !inMasks out pc)

def maskPop (v w : Nat) : Nat := ((List.range w).filter (fun i => bitOf v i)).length

/-- P of the channel list in force. -/
def Blk.hbmP (b : Blk) : Nat := 256 * b.pkg.sku.iods - ((b.pcMasks outReg).map (fun v => maskPop v 64)).sum

/-- A logical block mapped over a channel list; `base` is the first local block (0 for data, 260,864 for firmware) (R218, R242). -/
def mapBlock (l : List Nat) (base size blk : Nat) : Option (Nat × Nat) :=
  if blk < l.length * size then (l[blk % l.length]?).map (fun pc => (pc, base + blk / l.length)) else none

/-- The pseudo-channel and local block of a logical data block. -/
def Blk.dataBlock (b : Blk) (blk : Nat) : Option (Nat × Nat) := mapBlock b.chanList 0 hbmD blk

/-- The logical block that a physical block holds under a channel list. -/
def unmapBlock (l : List Nat) (base pc loc : Nat) : Option Nat :=
  if l.contains pc ∧ base ≤ loc then some ((loc - base) * l.length + l.idxOf pc) else none

def hbmKey (pc loc : Nat) : Nat := pc * 2 ^ 30 + 4096 * loc
def aglKey (pc loc : Nat) : Nat := pc * 2 ^ 18 + loc

/-- A physical block. -/
def Hbm.block (h : Hbm) (pc loc : Nat) : Block :=
  { pay := h.data.read (hbmKey pc loc) 4096, agl := Sp.get aglet0 h.aglets (aglKey pc loc) }

def Hbm.setAglet (h : Hbm) (pc loc : Nat) (w : BitVec 128) : Hbm := { h with aglets := Sp.set aglet0 h.aglets (aglKey pc loc) w }

/-- A whole block and its aglet written as one transaction (R223). -/
def Hbm.put (h : Hbm) (pc loc : Nat) (x : Block) : Hbm :=
  ({ h with data := h.data.write (hbmKey pc loc) (x.pay.take 4096) }).setAglet pc loc x.agl

/-- The poison flag of a physical block set (R234). -/
def Hbm.poison (h : Hbm) (pc loc : Nat) : Hbm := h.setAglet pc loc (agletPoison (Sp.get aglet0 h.aglets (aglKey pc loc)))

/-- A pseudo-channel of a fenced I/O die: transactions with it are completed with poison (R37). -/
def Blk.pcFenced (b : Blk) (pc : Nat) : Bool := b.fenced (pcDie pc)

/-- What a transaction with a fenced die delivers: poison under the block's identity, with bytes that the manual does not give (log entry 150). -/
def Block.lostAt (k : Nat) (x : Block) : Block :=
  let pay := (List.range 4096).map (fun i => Config.lostByte (k + i))
  let a := Aglet.parse x.agl
  { pay := pay, agl := Aglet.pack { a with pcrc := (crc32c pay).toNat, flags := setBit a.flags 0 true } }

/-- The block of a physical place of a fenced die. -/
def Block.lost (pc loc : Nat) (x : Block) : Block := Block.lostAt (hbmKey pc loc) x

/-- A physical block as it is delivered. -/
def Blk.hbmBlock (b : Blk) (pc loc : Nat) : Block := if b.pcFenced pc then Block.lost pc loc (b.hbm.block pc loc) else b.hbm.block pc loc

/-- A logical data block read or written; a write to a fenced die reaches nothing (R37). -/
def Blk.hbmGet (b : Blk) (blk : Nat) : Option Block := (b.dataBlock blk).map (fun p => b.hbmBlock p.1 p.2)

def Blk.hbmPut (b : Blk) (blk : Nat) (x : Block) : Blk :=
  match b.dataBlock blk with
  | some p => if b.pcFenced p.1 then b else { b with hbm := b.hbm.put p.1 p.2 x }
  | none => b

/-- Bytes of logical HBM, block by block; beyond the space 0. -/
def Blk.hbmBytes (b : Blk) (a n : Nat) : List Byte :=
  let l := b.chanList
  (List.range n).map (fun i => match mapBlock l 0 hbmD ((a + i) / 4096) with
    | some p =>
      let k := hbmKey p.1 p.2 + (a + i) % 4096
      if b.pcFenced p.1 then Config.lostByte k else b.hbm.data.byte k
    | none => 0)

/-! ### Capacity and map-out (R214, R239) -/

/-- HBM_CAP shows the capacity after the pending map-outs. -/
def Blk.capUpdate (b : Blk) : Blk :=
  let pend := ((b.pcMasks pendReg).map (fun v => maskPop v 64)).sum
  let pcs := b.hbmP - pend
  ((b.wf capReg Fld.HBM_CAP_BLOCKS (pcs * hbmD)).wf capReg Fld.HBM_CAP_PCS pcs).wf capReg Fld.HBM_CAP_PENDING (b2n (decide (pend ≠ 0)))

/-- A pseudo-channel becomes pending; a stack with more than 16 out of use goes out whole (R214, R239). -/
def Blk.mapOut (b : Blk) (pc : Nat) : Blk :=
  let st := pc / 64
  let v := setBit (b.rn (pendReg st)) (pc % 64) true
  let out := b.rn (outReg st)
  let v' := if 16 < maskPop (v ||| out) 64 then (2 ^ 64 - 1) ^^^ out else v
  (b.wn (pendReg st) v').capUpdate

/-! ### Row tracker and repair (R236 to R238) -/

def rowOf (pc bank row : Nat) : Nat := (pc * 64 + bank) * 2 ^ 18 + row
def rowPc (r : Nat) : Nat := r / 2 ^ 24
def rowBank (r : Nat) : Nat := r / 2 ^ 18
def rowAddr (r : Nat) : Nat := r % 2 ^ 18

/-- The tracker with one more corrected error of a row, and whether its count reaches `thresh` by it: a full tracker replaces the entry with the
lowest count, the oldest of equals. An entry that has reached the threshold does not reach it again. -/
def trackAdd (thresh : Nat) (l : List TrackRow) (row : Nat) : List TrackRow × Bool :=
  match l.find? (fun t => t.row == row) with
  | some t =>
    let hit := decide (thresh ≤ t.count + 1)
    (l.map (fun u => if u.row = row then { u with count := u.count + 1, hit := u.hit || hit } else u), hit && !t.hit)
  | none =>
    if l.length < 256 then (l ++ [⟨row, 1, false⟩], false)
    else
      let low := l.foldl (fun a t => min a t.count) ((l.headD ⟨0, 0, false⟩).count)
      match l.find? (fun t => t.count == low) with
      | some v => ((l.filter (fun t => t.row != v.row)) ++ [⟨row, 1, false⟩], false)
      | none => (l ++ [⟨row, 1, false⟩], false)

def Blk.setTrack (b : Blk) (st : Nat) (l : List TrackRow) : Blk :=
  { b with hbm := { b.hbm with track :=
      if l = [] then b.hbm.track.filter (fun x => x.1 != st) else slotPut b.hbm.track st l } }

def Blk.trackOf (b : Blk) (st : Nat) : List TrackRow := (slotGet b.hbm.track st).getD []

/-- Spare rows left in a bank. -/
def Blk.sparesLeft (b : Blk) (row : Nat) : Nat := (Config.spareRows (rowBank row)).val - Sp.get 0 b.hbm.spares (rowBank row)

/-- A repair or map-out recorded: HBM_REPAIR_LAST, the repair record and the event recorder (R237). -/
def Blk.repairNote (b : Blk) (x : RepairRec) : Blk :=
  let pc := rowPc x.row
  let d := pcDie pc
  let r : RegRef := ⟨.HBM_REPAIR_LAST, d, 0⟩
  let v := pc / 64 % 4 + 4 * (pc / 2 % 32) + 128 * (pc % 2) + 2 ^ 8 * (rowBank x.row % 64) + 2 ^ 14 * rowAddr x.row +
    2 ^ 32 * x.action + 2 ^ 34 * b.sparesLeft x.row + 2 ^ 64 * ((b.shankNow d).toNat % 2 ^ 40)
  let b1 := ((b.wn r v).tick).record { code := 0x0030, die := d, data := leBytes 16 v }
  { b1 with hbm := { b1.hbm with records := slotPut b1.hbm.records pc (((slotGet b1.hbm.records pc).getD []) ++ [x]) } }

/-- Repairs that are due in the bank of a row: each has its spare set aside. -/
def Blk.duesOf (b : Blk) (row : Nat) : Nat := (b.hbm.due.filter (fun x => decide (rowBank x.row = rowBank row))).length

/-- Repair in the field is a feature of the package (feature bit 6, R28, R31). -/
def Blk.mayRepair (b : Blk) : Bool := bitOf (b.rn ⟨.IDENT_FEATURE_EFF, 0, 0⟩) 6

/-- A logical row fails (R237): a repair falls due, or its pseudo-channel is mapped out. A package without repair in the field has no spare to use
(log entry 151). -/
def Blk.rowFailure (b : Blk) (row : Nat) : Blk :=
  let n := Sp.get 0 b.hbm.rowFail row + 1
  let b1 := { b with hbm := { b.hbm with rowFail := Sp.set 0 b.hbm.rowFail row n } }
  if n ≤ 2 ∧ b.duesOf row < b.sparesLeft row ∧ b.mayRepair = true then
    { b1 with hbm := { b1.hbm with due := b1.hbm.due ++ [⟨row, n, false⟩] } }
  else (b1.repairNote ⟨row, 3, false⟩).mapOut (rowPc row)

/-- A re-lay is running. -/
def Blk.relayRunning (b : Blk) : Bool := b.rf ⟨.HBM_RELAY_STAT, b.master, 0⟩ Fld.HBM_RELAY_STAT_STATE == 1 || b.hbm.relaying != []

/-- ROW_TRACKER_EXPIRY (R236): an entry older than WINDOW_H hours is cleared. -/
def Blk.trackExpiry (b : Blk) (st row : Nat) : Blk := b.setTrack st ((b.trackOf st).filter (fun t => t.row != row))

/-! ### Errors of a read (R232 to R235) -/

/-- What the controller saw at a block read, with the bank and row that it shows. `burst` is the 64-byte burst of the block (0 to 63). -/
inductive HbmErr where
  | none
  | corrected (bank row : Nat)
  | onDie
  | parity (bank row : Nat)
  | parityFailed (bank row burst : Nat)
  | uncorrectable (bank row burst : Nat)
  | agletUncorrectable (bank row : Nat)
deriving DecidableEq, Repr

/-- What the training of the HBM stacks shows: channels that fail, as (stack, mask), and what the read of each pseudo-channel's repair record shows. -/
structure HbmUp where
  failed : List (Nat × Nat)
  errs   : List (Nat × HbmErr)
deriving DecidableEq, Repr

/-- What a write can meet: the parity of the interface. -/
def HbmErr.ofWrite : HbmErr → HbmErr
  | .parity bank row => .parity bank row
  | .parityFailed bank row burst => .parityFailed bank row burst
  | _ => .none

/-- HBM_ERR_LAST (R243). SOURCE is 0 a demand access, 1 scrub, 2 re-lay, 3 repair copy. -/
def Blk.errLast (b : Blk) (pc cls source bank row : Nat) : Blk :=
  let d := pcDie pc
  (b.wn ⟨.HBM_ERR_LAST, d, 0⟩ (cls + 2 ^ 8 * source + 2 ^ 10 * (pc / 64 % 4) + 2 ^ 12 * (pc / 2 % 32) + 2 ^ 17 * (pc % 2) +
    2 ^ 18 * (bank % 64) + 2 ^ 24 * (row % 2 ^ 18) + 2 ^ 64 * ((b.shankNow d).toNat % 2 ^ 40))).tick

/-- The blocks that an uncorrectable burst of a local block spoils (R215, R233): the block itself; the four whose aglets a burst of the aglet region
holds; none for the repair record. -/
def spoilt (loc burst : Nat) : List Nat :=
  if loc < 261120 then [loc]
  else if loc < 262140 then (List.range 4).map (fun i => 256 * (loc - 261120) + 4 * (burst % 64) + i)
  else []

/-- The blocks that an error of a read spoils. -/
def HbmErr.spoils (loc : Nat) : HbmErr → List Nat
  | .parityFailed _ _ burst => spoilt loc burst
  | .uncorrectable _ _ burst => spoilt loc burst
  | .agletUncorrectable _ _ => if loc < 261120 then [loc] else []
  | _ => []

/-- A row fails by an error, unless the error is met by the copy of its own repair, which is the repair of that failure (log entry 152). -/
def Blk.rowFailBy (b : Blk) (source row : Nat) : Blk := if source = 3 then b else b.rowFailure row

/-- An uncorrectable error: blocks poisoned, counted, its row fails (R233, R234). -/
def Blk.hbmUe (b : Blk) (pc : Nat) (locs : List Nat) (source cls bank row : Nat) : Blk :=
  let b1 := ({ b with hbm := locs.foldl (fun h loc => h.poison pc loc) b.hbm }).bump ⟨.HBM_UE_CNT, pcDie pc, 0⟩
  let b2 := if source = 1 then b1.bump ⟨.HBM_SCRUB_POISON_CNT, pcDie pc, 0⟩ locs.length else b1
  (b2.errLast pc cls source bank row).rowFailBy source (rowOf pc (bank % 64) (row % 2 ^ 18))

/-- The controller's handling of one block access (R233). -/
def Blk.hbmError (b : Blk) (pc loc source : Nat) (e : HbmErr) : Blk :=
  match e with
  | .none => b
  | .onDie => b.bump ⟨.HBM_ODECC_CNT, pcDie pc, 0⟩
  | .parity bank row => (b.bump ⟨.HBM_PAR_RETRY_CNT, pcDie pc, 0⟩).errLast pc 4 source bank row
  | .parityFailed bank row _ => (b.bump ⟨.HBM_PAR_RETRY_CNT, pcDie pc, 0⟩).hbmUe pc (e.spoils loc) source 5 bank row
  | .uncorrectable bank row _ => b.hbmUe pc (e.spoils loc) source (if 261120 ≤ loc ∧ loc < 262140 then 6 else 2) bank row
  | .agletUncorrectable bank row => b.hbmUe pc (e.spoils loc) source 6 bank row
  | .corrected bank row =>
    let r := rowOf pc (bank % 64) (row % 2 ^ 18)
    let st := pc / 64
    let t := trackAdd (max 2 (b.rf ⟨.HBM_ROWTRK_CFG, pcDie pc, 0⟩ Fld.HBM_ROWTRK_CFG_CE_THRESH)) (b.trackOf st) r
    let b1 := ((b.bump ⟨.HBM_CE_CNT, pcDie pc, 0⟩).errLast pc 1 source bank row).setTrack st t.1
    if t.2 then b1.rowFailBy source r else b1

/-- HBM_ROW_REPAIR (R238): the oldest repair that is due on the pseudo-channel. `errs` is what the copy meets, by local block of the row: it corrects
what it can and poisons what it cannot. A repair due during a re-lay waits until it ends. -/
def Blk.rowRepair (b : Blk) (pc : Nat) (errs : List (Nat × HbmErr)) : Blk :=
  match b.hbm.due.find? (fun x => rowPc x.row == pc) with
  | some x =>
    if b.relayRunning || b.pcFenced pc then b
    else
      let b0 := errs.foldl (fun c e => c.hbmError pc e.1 3 e.2) b
      let h := b0.hbm
      let b1 := { b0 with hbm := { h with
        due := h.due.erase x, spares := Sp.set 0 h.spares (rowBank x.row) (Sp.get 0 h.spares (rowBank x.row) + 1) } }
      let b2 := b1.setTrack (pc / 64) ((b1.trackOf (pc / 64)).filter (fun t => t.row != x.row))
      (b2.repairNote x).bump ⟨.HBM_REPAIR_CNT, pcDie pc, 0⟩
  | none => b

/-- The blocks of the firmware region that hold the flow contexts and the staging area, logical blocks 0 to 24,575, stand once; what follows them, the last's tables, the
collective descriptors and the digest store, stands twice (R401; log entry 218). -/
abbrev fwOnce : Nat := 24576

/-- A block as its other copy gives it: the same bytes, sound. -/
def Block.mended (y : Block) : Block :=
  let a := Aglet.parse y.agl
  { y with agl := Aglet.pack { a with flags := setBit a.flags 0 false, pcrc := (crc32c y.pay).toNat } }

/-- A place of the firmware region whose block stands twice. -/
def Blk.fwDoubled (b : Blk) (pc loc : Nat) : Bool :=
  decide (hbmD ≤ loc) && decide (loc < hbmD + 256) && (unmapBlock b.chanList hbmD pc loc).any (fun x => decide (fwOnce ≤ x))

/-- The poisoned blocks among these of the firmware region are rewritten from the copy that the cobbler holds of them on another I/O die (R401). -/
def Blk.fwMend (b : Blk) (pc : Nat) (locs : List Nat) : Blk :=
  { b with hbm := (locs.filter (b.fwDoubled pc)).foldl (fun h loc =>
      if (Aglet.parse (h.block pc loc).agl).poison then h.setAglet pc loc (h.block pc loc).mended.agl else h) b.hbm }

/-- HBM_READ (R225, R226, R232 to R234): one block of the data space, or of the firmware region, read with its aglet; `demoted` says
that a LATENCY read was beyond the share and was served as BULK. What is delivered is payload and aglet. -/
def Blk.hbmRead (b : Blk) (fw : Bool) (blk : Nat) (e : HbmErr) (demoted : Bool) : Blk :=
  match mapBlock b.chanList (if fw then hbmD else 0) (if fw then 256 else hbmD) blk with
  | none => b
  | some (pc, loc) =>
    let b1 := if b.pcFenced pc then b else b.hbmError pc loc 0 e
    let x := b1.hbmBlock pc loc
    let b2 := if demoted then b1.bump ⟨.HBM_LC_DEMOTE_CNT, pcDie pc, 0⟩ else b1
    ({ b2 with readData := x.pay ++ leBytes 16 x.agl.toNat } : Blk).fwMend pc (if b.pcFenced pc then [] else e.spoils loc ++ [loc])

/-- HBM_WRITE (R222, R223, R233, R234): a whole block written with a freshly generated aglet. The interface's parity may fail: retried once, and after a
second failure handled as uncorrectable, with nothing written; a block that stands twice is then rewritten from its other copy (R401). -/
def Blk.hbmWrite (b : Blk) (fw : Bool) (blk : Nat) (pay : List Byte) (a : Aglet) (e : HbmErr) : Blk :=
  match mapBlock b.chanList (if fw then hbmD else 0) (if fw then 256 else hbmD) blk with
  | none => b
  | some (pc, loc) =>
    let p := (pay ++ zeros 4096).take 4096
    let put (c : Blk) : Blk := { c with hbm := c.hbm.put pc loc (Block.make p a false (payloadFlags a.format p).1 (payloadFlags a.format p).2 false) }
    if b.pcFenced pc then b
    else match e.ofWrite with
      | .parityFailed bank row burst =>
        let b1 := b.hbmError pc loc 0 (.parityFailed bank row burst)
        if b.fwDoubled pc loc then put (b1.fwMend pc (HbmErr.spoils loc (.parityFailed bank row burst))) else b1
      | e' => put (b.hbmError pc loc 0 e')

/-- Blocks of a pseudo-channel (R215). -/
abbrev pcBlocks : Nat := 262144

/-- The passes that the patrol scrub of a die has completed: every pseudo-channel in use has been read that often. -/
def Blk.scrubPasses (b : Blk) (d : Nat) : Nat :=
  let mine := b.chanList.filter (fun pc => pcDie pc == d)
  match mine with
  | [] => 0
  | p :: ps => ps.foldl (fun a pc => min a (Sp.get 0 b.hbm.scrubbed pc / pcBlocks)) (Sp.get 0 b.hbm.scrubbed p / pcBlocks)

/-- The patrol read of a pseudo-channel's next block (R235). -/
def Blk.patrol (b : Blk) (pc : Nat) (e : HbmErr) : Blk :=
  let d := pcDie pc
  if b.rf ⟨.HBM_SCRUB_CFG, d, 0⟩ Fld.HBM_SCRUB_CFG_ENABLE = 0 ∨ b.chanList.contains pc = false ∨ b.fenced d = true then b
  else
    let n := Sp.get 0 b.hbm.scrubbed pc
    let b1 := b.hbmError pc (n % pcBlocks) 1 e
    let before := b.scrubPasses d
    let b2 := { b1 with hbm := { b1.hbm with scrubbed := Sp.set 0 b1.hbm.scrubbed pc (n + 1) } }
    if before < b2.scrubPasses d then b2.bump ⟨.HBM_SCRUB_STAT, d, 0⟩ else b2

/-- The read of the next block of a SCRUB operation's range; the operation ends with its counts after the last. -/
def Blk.scrubOp (b : Blk) (h : Nat) (e : HbmErr) : Blk :=
  match b.op h with
  | some o =>
    if o.kind ≠ .scrub ∨ o.st ≠ .running ∨ o.ended = true then b
    else match b.dataBlock (o.first + o.done) with
      | none => b.setOp { o with ended := true, result := [(16, 8, o.done), (24, 4, o.corr), (28, 4, o.pois)] }
      | some (pc, loc) =>
        let corr := match e with | .corrected _ _ => 1 | _ => 0
        let pois := match e with
          | .parityFailed _ _ _ => 1 | .uncorrectable _ _ _ => 1 | .agletUncorrectable _ _ => 1 | _ => 0
        let o1 := { o with done := o.done + 1, corr := o.corr + corr, pois := o.pois + pois
                           progress := (o.done + 1) * 1000 / o.blocks }
        (if b.pcFenced pc then b else b.hbmError pc loc 1 e).setOp (if o1.done < o1.blocks then o1 else { o1 with
          ended := true, result := [(16, 8, o1.done), (24, 4, o1.corr), (28, 4, o1.pois)] })
  | none => b

/-! ### Re-lay (R240 to R242) -/

/-- The physical blocks that list a byte or an aglet. -/
def Hbm.touched (h : Hbm) : List (Nat × Nat) :=
  ((h.data.map (fun (p : Host.Cell) => p.1 / 4096)) ++ (h.aglets.map (fun p => p.1))).eraseDups.map (fun (k : Nat) => (k / 2 ^ 18, k % 2 ^ 18))

/-- The blocks of a physical range emptied: they read as blocks that have never been written. -/
def Hbm.clearWhere (h : Hbm) (p : Nat → Nat → Bool) : Hbm :=
  { h with data := h.data.filter (fun (c : Host.Cell) => !p (c.1 / 2 ^ 30) (c.1 % 2 ^ 30 / 4096))
           aglets := h.aglets.filter (fun a => !p (a.1 / 2 ^ 18) (a.1 % 2 ^ 18)) }

/-- RELAY_START (R240, R241): the master starts the copy of the pseudo-channels pending now. -/
def Blk.relayStart (b : Blk) : Blk :=
  let pend := b.pcMasks pendReg
  let out := (List.range (64 * b.pkg.sku.stacks)).filter (fun pc => inMasks pend pc)
  if out = [] ∨ b.hbm.relaying ≠ [] then b
  else
    let b1 := { b with hbm := { b.hbm with relaying := out } }
    ((List.range b.pkg.sku.iods).filter (fun i => b.present (4 + i))).foldl (fun c i =>
      c.wn ⟨.HBM_RELAY_STAT, 4 + i, 0⟩ 1) b1

/-- The first logical block of a half (R219, R240). -/
def halfBase (high : Bool) (p : Nat) : Nat := if high then p * hbmD / 2 else 0

/-- What a re-lay's read meets: `errs` by old logical block, of the firmware region where `fw`. The controllers class it as they do any read (R233). -/
def Blk.relayErrs (b : Blk) (l0 : List Nat) (errs : List (Bool × Nat × HbmErr)) : Blk :=
  errs.foldl (fun c e => match mapBlock l0 (if e.1 then hbmD else 0) (if e.1 then 256 else hbmD) e.2.1 with
    | some p => if c.pcFenced p.1 then c else c.hbmError p.1 p.2 2 e.2.2
    | none => c) b

/-- One region's blocks copied from the old map to the new, from half base `h0` to `h1`: those where `want` holds. Each passes checks 1 and 2 of R178 or is
written poisoned, as is one whose write fails (`wbad`, new logical blocks) and each of `runs`, as first block and count, that lies on a fenced die and cannot be read,
written or not; one that stands twice, by `twice`, is written from its other copy. Also the number of blocks written poisoned. -/
def relayBlocks (src : Hbm) (lost : Nat → Bool) (l0 l1 : List Nat) (base h0 h1 : Nat) (want twice : Nat → Bool) (runs : List (Nat × Nat)) (bad wbad : List Nat) (h : Hbm) :
    Hbm × Nat :=
  let gone := if l0.any lost then ((runs.map (fun r => (List.range r.2).filterMap (fun i => mapBlock l0 base (2 ^ 18) (r.1 + i)))).flatten).filter (fun k => lost k.1) else []
  let keys := src.touched ++ gone ++ (bad ++ wbad.map (fun x => x + h0 - h1)).filterMap (fun x => mapBlock l0 base (2 ^ 18) x)
  keys.eraseDups.foldl (fun (acc : Hbm × Nat) k =>
    match unmapBlock l0 base k.1 k.2 with
    | none => acc
    | some x =>
      if x < h0 ∨ want (x - h0) = false then acc
      else match mapBlock l1 base (2 ^ 18) (h1 + (x - h0)) with
        | none => acc
        | some (pc, loc) =>
          let stored := src.block k.1 k.2
          let blk := if lost k.1 then Block.lost k.1 k.2 stored else stored
          let crcBad := !agletCrcOk blk.agl || decide ((crc32c blk.pay).toNat ≠ (Aglet.parse blk.agl).pcrc)
          if twice x then (acc.1.put pc loc stored.mended, acc.2)
          else if crcBad || bad.contains x || lost k.1 || wbad.contains (h1 + (x - h0))
          then (acc.1.put pc loc blk.poisoned, acc.2 + 1) else (acc.1.put pc loc blk, acc.2)) (h, 0)

/-- A read's outcome leaves no sound block. -/
def HbmErr.bad : HbmErr → Bool
  | .parityFailed _ _ _ => true
  | .uncorrectable _ _ _ => true
  | .agletUncorrectable _ _ => true
  | _ => false

/-- The regions of a loaded last that its memory plan places in the held half, as (offset, blocks) from the half's start (R240). -/
def Part.heldRegions (x : Part) : List (Nat × Nat) :=
  if !x.loaded then []
  else match x.last with
    | none => x.regions
    | some l => match l.variants[x.variant]? with
      | none => x.regions
      | some v => ((v.places ++ v.regions ++ l.partnerRegion).filter (fun y => decide (y.1 = 1))).map (fun y => y.2)

/-- RELAY_COMPLETE (R239 to R242): the regions of the held half copied into the other half under the new channel list, the firmware region
rebuilt, the pseudo-channels moved from pending to out, the other half held. `errs` is what the reads meet, and `wbad` names the new logical blocks whose
write fails, each with whether it is of the firmware region. -/
def Blk.relayComplete (b : Blk) (errs : List (Bool × Nat × HbmErr)) (wbad : List (Bool × Nat)) : Blk :=
  if b.hbm.relaying = [] then b
  else
    let l0 := b.chanList
    let l1 := l0.filter (fun pc => !b.hbm.relaying.contains pc)
    let bad (fw : Bool) : List Nat := (errs.filter (fun e => e.1 == fw && e.2.2.bad)).map (fun e => e.2.1)
    let wrong (fw : Bool) : List Nat := (wbad.filter (fun e => e.1 == fw)).map (fun e => e.2)
    let b0 := b.relayErrs l0 errs
    let high := b.rf capReg Fld.HBM_CAP_HELD_HIGH == 1
    let h0 := halfBase high l0.length
    let h1 := halfBase (!high) l1.length
    let regs : List (Nat × Nat) := (b.parts.map (fun p => p.2.heldRegions)).flatten
    let want (x : Nat) : Bool := regs.any (fun (r : Nat × Nat) => decide (r.1 ≤ x) && decide (x < r.1 + r.2))
    let inNew (pc loc : Nat) : Bool := decide (loc < hbmD) && (match unmapBlock l1 0 pc loc with
      | some x => decide (h1 ≤ x) && want (x - h1)
      | none => false)
    let fw (_ loc : Nat) : Bool := decide (hbmD ≤ loc) && decide (loc < hbmD + 256)
    let dataSrc := b0.hbm.clearWhere (fun _ loc => decide (hbmD ≤ loc))
    let fwSrc := b0.hbm.clearWhere (fun pc loc => !fw pc loc)
    let base := (b0.hbm.clearWhere inNew).clearWhere fw
    let r1 := relayBlocks dataSrc b.pcFenced l0 l1 0 h0 h1 want (fun _ => false) (regs.map (fun r => (h0 + r.1, r.2))) (bad false) (wrong false) base
    let r2 := relayBlocks fwSrc b.pcFenced l0 l1 hbmD 0 0 (fun x => decide (x < 256 * l1.length)) (fun x => decide (fwOnce ≤ x)) [(0, 256 * l1.length)] (bad true) (wrong true) r1.1
    let poisoned := r1.2 + r2.2
    let b1 := { b0 with hbm := { r2.1 with relaying := [] } }
    let b2 := b.hbm.relaying.foldl (fun c pc =>
      let st := pc / 64
      (c.wn (outReg st) (setBit (c.rn (outReg st)) (pc % 64) true)).wn (pendReg st) (setBit (c.rn (pendReg st)) (pc % 64) false)) b1
    let b3 := (List.range b.pkg.sku.stacks).foldl (fun c st =>
      let r : RegRef := ⟨.HBM_STACK_STATE, stackDie st, stackQ st⟩
      if c.rn (outReg st) = 0 then c
      else c.wf r Fld.HBM_STACK_STATE_STATE (if c.rn (outReg st) = 2 ^ 64 - 1 then 4 else 3)) b2
    let b4 := (b3.wf capReg Fld.HBM_CAP_HELD_HIGH (b2n (!high))).capUpdate
    ((List.range b.pkg.sku.iods).filter (fun i => b.present (4 + i))).foldl (fun c i =>
      c.wn ⟨.HBM_RELAY_STAT, 4 + i, 0⟩ ((if poisoned = 0 then 2 else 3) + 4 * 63 + 256 * min poisoned (2 ^ 24 - 1))) b4

/-! ### Training (R214, R230, R238) -/

/-- The stacks of the present I/O dies begin to train at 8 Gb/s as the MEMORY stage begins (R213, R544). -/
def Blk.hbmTrainStart (b : Blk) : Blk :=
  ((List.range b.pkg.sku.stacks).filter (fun st => b.present (stackDie st))).foldl (fun c st =>
    c.wf ⟨.HBM_STACK_STATE, stackDie st, stackQ st⟩ Fld.HBM_STACK_STATE_STATE 1) b

/-- HBM_TRAINING (R212 to R214, R230, R232, R238): `failed` gives the channels of a stack that fail training as a mask, `errs` what the reads of the
repair records meet, by pseudo-channel. Stored map-outs stay out, repairs become permanent, and every block is cleared. -/
def Blk.hbmTraining (b : Blk) (failed : List (Nat × Nat)) (errs : List (Nat × HbmErr)) : Blk :=
  let n := b.pkg.sku.stacks
  let b1 := (List.range n).foldl (fun c st =>
    let sr : RegRef := ⟨.HBM_STACK_STATE, stackDie st, stackQ st⟩
    if !c.present (stackDie st) then c.wn (outReg st) (2 ^ 64 - 1)
    else
      let ch := Sp.get 0 failed st % 2 ^ 32
      let trainOut := (List.range 64).foldl (fun a p => if bitOf ch (p / 2) then a + 2 ^ p else a) 0
      let recOut := (List.range 64).foldl (fun a p =>
        if ((slotGet b.hbm.records (64 * st + p)).getD []).any (fun x => x.action == 3) then a + 2 ^ p else a) 0
      let out0 := trainOut ||| recOut
      let out := if 16 < maskPop out0 64 then 2 ^ 64 - 1 else out0
      (((c.wn (outReg st) out).wn (pendReg st) 0).wf sr Fld.HBM_STACK_STATE_STATE
        (if out = 0 then 2 else if out = 2 ^ 64 - 1 then 4 else 3)).wf sr Fld.HBM_STACK_STATE_CH_FAILED (min 31 (maskPop ch 32))) b
  let h := b1.hbm
  let b2 := { b1 with hbm := { h with
    data := [], aglets := [], rowFail := [], track := [], due := [], relaying := [], scrubbed := [], chFailed := failed
    records := h.records.map (fun (r : Nat × List RepairRec) => (r.1, r.2.map (fun (x : RepairRec) => if x.action = 3 then x else { x with hard := true }))) } }
  (errs.foldl (fun c e => c.hbmError e.1 262140 0 e.2) b2).capUpdate

/-! ### The BAR2 window (R231, R573) -/

/-- DBL_BAR2_BASE as the window uses it: bits below log2 W are ignored. -/
def Blk.bar2Base (b : Blk) : Nat :=
  let w := 2 ^ b.pins.bar2Log2
  b.rf ⟨.DBL_BAR2_BASE, 0, 0⟩ Fld.DBL_BAR2_BASE_BASE / w * w

/-- BAR2_READ: payload only; beyond the package's blocks 0. -/
def Blk.bar2Read (b : Blk) (x n : Nat) : Blk := { b with readData := b.hbmBytes (b.bar2Base + x) n }

/-- A RUN_STEPS that is RUNNING or SUSPENDED. -/
def Blk.runLive (b : Blk) : Bool :=
  b.mbx.ops.any (fun o => o.kind == .runSteps && (o.st == .running || o.st == .suspended))

/-- A host write into one logical block: payload bytes replaced, PCRC, poison, zero-block and non-finite-present renewed, the
other fields kept (R231). -/
def Blk.bar2Block (b : Blk) (blk off : Nat) (xs : List Byte) : Blk :=
  match b.dataBlock blk with
  | none => b
  | some (pc, loc) =>
    if b.pcFenced pc then b else
    let old := b.hbm.block pc loc
    let pay := old.pay.take off ++ xs ++ old.pay.drop (off + xs.length)
    let a := Aglet.parse old.agl
    let f := payloadFlags a.format pay
    let keep := setBit (setBit (setBit a.flags 0 false) 3 f.1) 4 f.2
    { b with hbm := b.hbm.put pc loc { pay := pay, agl := Aglet.pack { a with pcrc := (crc32c pay).toNat, flags := keep } } }

/-- The blocks that `n` bytes at logical address `a` touch, each with its offset and bytes. -/
def splitBlocks : Nat → Nat → List Byte → List (Nat × Nat × List Byte)
  | 0, _, _ => []
  | f + 1, a, xs =>
    if xs = [] then []
    else
      let k := min xs.length (4096 - a % 4096)
      (a / 4096, a % 4096, xs.take k) :: splitBlocks f (a + k) (xs.drop k)

/-- BAR2_WRITE (R231, R409, R573): discarded and counted while a run is live or beyond the package's blocks (in IOD0's counter where
no block takes it); a write into a region of LIFE 1 after the job's first RUN_STEPS clears FIN_ONLY. -/
def Blk.bar2Write (b : Blk) (x : Nat) (xs : List Byte) : Blk :=
  let a := b.bar2Base + x
  let last := (a + xs.length - 1) / 4096
  let die := match b.dataBlock (a / 4096) with | some p => pcDie p.1 | none => iod0
  if xs = [] then b
  else if b.runLive || (b.dataBlock last).isNone then b.bump ⟨.HBM_BAR2_DROP, die, 0⟩
  else
    let b1 := (splitBlocks (xs.length + 1) a xs).foldl (fun c p => c.bar2Block p.1 p.2.1 p.2.2) b
    let h0 := halfBase (b.rf capReg Fld.HBM_CAP_HELD_HIGH == 1) b.hbmP
    let hit (r : Nat × Nat) : Bool := decide (h0 + r.1 ≤ last) && decide (a / 4096 < h0 + r.1 + r.2)
    { b1 with parts := b1.parts.map (fun p =>
        if p.2.loaded && p.2.ranRun && (List.any p.2.regions hit) then (p.1, { p.2 with guar := setBit p.2.guar 2 false }) else p) }

/-! ### Insole (R166 to R169) -/

def Insole.block (x : Insole) (cl blk : Nat) : Block :=
  { pay := x.data.read (cl * 2 ^ 27 + 4096 * blk) 4096, agl := Sp.get aglet0 x.aglets (cl * 2 ^ 15 + blk) }

def Insole.put (x : Insole) (cl blk : Nat) (v : Block) : Insole :=
  { data := x.data.write (cl * 2 ^ 27 + 4096 * blk) (v.pay.take 4096), aglets := Sp.set aglet0 x.aglets (cl * 2 ^ 15 + blk) v.agl }

def Insole.poison (x : Insole) (cl blk : Nat) : Insole :=
  { x with aglets := Sp.set aglet0 x.aglets (cl * 2 ^ 15 + blk) (agletPoison (Sp.get aglet0 x.aglets (cl * 2 ^ 15 + blk))) }

/-- Bytes stored into part of a block: its aglet is generated anew with the fields that it had, and a poisoned or failing block that is not covered whole is poisoned. -/
def Block.patched (old : Block) (pay : List Byte) (whole : Bool) : Block :=
  let a := Aglet.parse old.agl
  let bad := !agletCrcOk old.agl || decide ((crc32c old.pay).toNat ≠ a.pcrc) || a.poison
  Block.make pay a (!whole && bad) (pay.all (fun y => y == 0)) false false

/-- Bytes that the cobbler, the sequencer or the layout engine stores into an insole, with the aglets of the blocks that they touch (R180, log entry 207). -/
def Insole.store (x : Insole) (cl a : Nat) (xs : List Byte) : Insole :=
  let y : Insole := { x with data := x.data.write (cl * 2 ^ 27 + a) xs }
  if xs = [] then x
  else (List.range ((a + xs.length - 1) / 4096 - a / 4096 + 1)).foldl (fun (z : Insole) i =>
    let k := a / 4096 + i
    z.put cl k ((x.block cl k).patched (y.block cl k).pay (decide (a ≤ 4096 * k) && decide (4096 * k + 4096 ≤ a + xs.length)))) y

/-- The bank of an insole address. -/
def insBank (a : Nat) : Nat := a / 256 % 64

/-- Insole errors met: counted, an uncorrectable one's block poisoned and its bank marked (R168, R169). -/
def Blk.insFound (b : Blk) (cl : Nat) (ce ue : List Nat) : Blk :=
  let b1 := (b.bump ⟨.SEQ_INS_CE, cl, 0⟩ ce.length).bump ⟨.SEQ_INS_UE, cl, 0⟩ ue.length
  let b2 := { b1 with ins := ue.foldl (fun i a => i.poison cl (a % 2 ^ 27 / 4096)) b1.ins }
  b2.wn ⟨.SEQ_INS_MAPOUT, cl, 0⟩ (ue.foldl (fun m a => m ||| 2 ^ insBank a) (b.rn ⟨.SEQ_INS_MAPOUT, cl, 0⟩))

/-- INSOLE_SCRUB (R168, R169): one pass; corrected and uncorrectable word addresses that it finds. A bank with 16 corrected errors in the pass is marked. -/
def Blk.insoleScrub (b : Blk) (cl : Nat) (ce ue : List Nat) : Blk :=
  let b1 := b.insFound cl ce ue
  b1.wn ⟨.SEQ_INS_MAPOUT, cl, 0⟩ ((List.range 64).foldl (fun m k =>
    if 16 ≤ (ce.filter (fun a => insBank a == k)).length then m ||| 2 ^ k else m) (b1.rn ⟨.SEQ_INS_MAPOUT, cl, 0⟩))

end Sys2Proof.Machine
end

