-- ==== Sys2Proof/Machine/Arrays.lean ====
section
/-!
DEFINITION. The matrix arrays: descriptor, checks, exact band sums, heritage sums, masks, banks, poison and faults (R46 to R83,
R118, R119), and the witness unit (R121 to R123, R205 to R208).
-/
namespace Sys2Proof.Machine

/-- A field of a 512-bit descriptor: word, low bit, width. -/
def dsc (d : BitVec 512) (w lo n : Nat) : Nat := bits d.toNat (32 * w + lo) n

/-- Bits outside the listed (word, low, width) fields are 0. -/
def reservedZero (d : BitVec 512) (fields : List (Nat × Nat × Nat)) : Bool :=
  decide (fields.foldl (fun v f => v - bits v (32 * f.1 + f.2.1) f.2.2 * 2 ^ (32 * f.1 + f.2.1)) d.toNat = 0)

/-! ### Core buffer -/

abbrev coreBuf : Nat := 2 ^ 22

def Cores.cbByte (c : Cores) (core a : Nat) : Byte := c.cb.byte (core * coreBuf + a)

/-- An element of the core buffer: `a` the byte address of a run, `i` its index (6-bit elements take one byte each, R49). -/
def Cores.elem (c : Cores) (core : Nat) (f : Fmt) (a i : Nat) : Nat :=
  match f.bits with
  | 4 => (c.cbByte core (a + i / 2)).toNat / 16 ^ (i % 2) % 16
  | 6 => (c.cbByte core (a + i)).toNat % 64
  | 8 => (c.cbByte core (a + i)).toNat
  | 16 => (c.cbByte core (a + 2 * i)).toNat + 256 * (c.cbByte core (a + 2 * i + 1)).toNat
  | _ => leNat ((List.range 4).map (fun j => c.cbByte core (a + 4 * i + j)))

def Cores.lineBits (c : Cores) (core line : Nat) : Nat := Sp.get 0 c.lines (core * 2 ^ 14 + line)
def Cores.linePois (c : Cores) (core line : Nat) : Bool := bitOf (c.lineBits core line) 0

/-! ### The descriptor (R79, R80) -/

/-- The operand classes: reduction elements per cell (R46), 0 for a format the arrays do not take. -/
def Fmt.packing : Fmt → Nat
  | .bf16 | .fp16 => 1
  | .e5m2 | .e4m3 | .int8 => 2
  | .e3m2 | .e2m3 | .e2m1 | .int4 => 4
  | _ => 0

/-- The operand pairs of R47. -/
def pairOk (s t : Fmt) : Bool :=
  match s, t with
  | .bf16, .bf16 | .fp16, .fp16 | .int8, .int8 | .int4, .int4 => true
  | .e5m2, .e5m2 | .e5m2, .e4m3 | .e4m3, .e5m2 | .e4m3, .e4m3 => true
  | .e3m2, .e3m2 | .e3m2, .e2m3 | .e3m2, .e2m1 | .e2m3, .e3m2 | .e2m3, .e2m3 | .e2m3, .e2m1 | .e2m1, .e3m2 | .e2m1, .e2m3
  | .e2m1, .e2m1 => true
  | _, _ => false

/-- The statuses of R80. -/
inductive AStat where
  | ok | badDesc | partition | feature | format | splitLimit | poisonIn | fault | faultShared | discarded
deriving DecidableEq, Repr

def AStat.code : AStat → Nat
  | .ok => 0 | .badDesc => 0x10 | .partition => 0x11 | .feature => 0x12 | .format => 0x13 | .splitLimit => 0x14
  | .poisonIn => 0x20 | .fault => 0x30 | .faultShared => 0x31 | .discarded => 0x32

/-- An array operation descriptor. -/
structure ArrDesc where
  op     : Nat
  orient : Nat
  gang   : Nat
  arrays : Nat
  split  : Bool
  half   : Nat
  bank   : Nat
  init   : Bool
  fmtS   : Nat
  fmtT   : Nat
  herit  : Nat
  rowM   : Bool
  blkM   : Bool
  drain  : Bool
  mRows  : Nat
  kTiles : Nat
  part   : Nat
  sBase  : Nat
  sK     : Nat
  sA     : Nat
  tBase  : Nat
  tK     : Nat
  tA     : Nat
  sclS   : Nat
  sclT   : Nat
  tsS    : Nat
  tsT    : Nat
  mask   : Nat
  tag    : Nat
  ctr    : Nat
deriving DecidableEq, Repr

def ArrDesc.parse (d : BitVec 512) : ArrDesc :=
  let f (w lo n : Nat) : Nat := dsc d w lo n
  { op := f 0 0 4, orient := f 0 4 2, gang := f 0 6 2, arrays := f 0 8 4, split := f 0 12 1 == 1, half := f 0 13 1
    bank := f 0 14 1, init := f 0 15 1 == 1, fmtS := f 0 16 4, fmtT := f 0 20 4, herit := f 0 24 2, rowM := f 0 26 1 == 1
    blkM := f 0 27 1 == 1, drain := f 0 28 1 == 1, mRows := f 1 0 8, kTiles := f 1 8 16, part := f 1 24 3, sBase := f 2 0 14
    sK := f 2 16 14, sA := f 3 0 14, tBase := f 3 16 14, tK := f 4 0 14, tA := f 4 16 14, sclS := f 5 0 14, sclT := f 5 16 14
    tsS := f 6 0 16, tsT := f 6 16 16, mask := f 7 0 14, tag := f 8 0 16, ctr := f 8 16 8 }

/-- The fields of R79 that are not reserved; bits [15:14] and [31:30] of words 2 to 5, which stand in no row, count as reserved (log entry 156). -/
def arrFields : List (Nat × Nat × Nat) :=
  [(0, 0, 29), (1, 0, 27), (2, 0, 14), (2, 16, 14), (3, 0, 14), (3, 16, 14), (4, 0, 14), (4, 16, 14), (5, 0, 14), (5, 16, 14),
   (6, 0, 32), (7, 0, 14), (8, 0, 24)]

/-- The named arrays in ascending order, each with its place. -/
def ArrDesc.named (d : ArrDesc) : List (Nat × Nat) := ((List.range 4).filter (fun a => bitOf d.arrays a)).zipIdx

/-- Lines of a stationary tile image (R50) and of a streamed tile's last line offset (R79). -/
def statLines (f : Fmt) : Nat := if f.bits = 6 then 256 else 128

def ArrDesc.streamLast (d : ArrDesc) (f : Fmt) : Nat :=
  if d.orient = 2 then 128 * max 1 f.packing - 1 else if f.bits = 6 then 2 * (d.mRows - 1) + 1 else d.mRows - 1

/-- Scale bytes per column or row of a tile (R81). -/
def Fmt.sclBytes : Fmt → Nat
  | .e5m2 | .e4m3 => 8 | .e3m2 | .e2m3 => 16 | .e2m1 => 32 | _ => 0

/-- Columns that the descriptor writes in an array. -/
def ArrDesc.cols (d : ArrDesc) : Nat := if d.split then 64 else 128
def ArrDesc.col0 (d : ArrDesc) : Nat := if d.split then 64 * d.half else 0

/-- Lines of a scale image per tile (R81). -/
def ArrDesc.sclSLines (d : ArrDesc) (f : Fmt) : Nat := (d.cols * f.sclBytes + 255) / 256
def ArrDesc.sclTLines (d : ArrDesc) (f : Fmt) : Nat := (d.mRows * f.sclBytes + 255) / 256

/-- The TSCALE field is 0 for an operand that is not E2M1, and positive and finite for one that is. -/
def tscaleOk (f : Option Fmt) (t : Nat) : Bool :=
  if f = some .e2m1 then (match Fmt.bf16.decode t with | .fin _ m => decide (m ≠ 0) | _ => false) else decide (t = 0)

/-- The highest line read lies within the core buffer (R80). -/
def ArrDesc.linesOk (d : ArrDesc) (s t : Fmt) : Bool :=
  let n := d.named.length - 1
  let k := d.kTiles - 1
  let sOff := if d.gang = 1 then n * d.sA else 0
  let tOff := if d.gang = 0 then n * d.tA else 0
  decide (d.sBase + k * d.sK + sOff + statLines s - 1 ≤ 16383) && decide (d.tBase + k * d.tK + tOff + d.streamLast t ≤ 16383) &&
  (decide (s.sclBytes = 0) || decide (d.sclS + sOff + (k + 1) * d.sclSLines s - 1 ≤ 16383)) &&
  (decide (t.sclBytes = 0) || decide (d.sclT + tOff + (k + 1) * d.sclTLines t - 1 ≤ 16383)) &&
  (!(d.rowM || d.blkM) || decide (d.mask + (32 * n + 31) / 256 ≤ 16383))

/-- The checks of R80 in their order. `feat` is the effective feature word, `part` the cluster's partition, `others` the other arrays of
the core that run a split descriptor. An operand of an unknown format counts with the lines that every format has (log entry 154); R80 has no check
of SINGLE against the number of named arrays without SPLIT, and such a descriptor runs on each of them (log entry 155). -/
def ArrDesc.check (raw : BitVec 512) (part feat : Nat) (others : List Nat) : AStat :=
  let d := ArrDesc.parse raw
  let fs := Fmt.ofCode d.fmtS
  let ft := Fmt.ofCode d.fmtT
  let mat := decide (d.op = 1)
  let clr := decide (d.op = 2)
  let nib := (fs.any (fun f => f.packing == 4) || ft.any (fun f => f.packing == 4))
  let lines := d.linesOk (fs.getD .bf16) (ft.getD .bf16)
  if 2 < d.op || !reservedZero raw arrFields || ((mat || clr) && (decide (d.arrays = 0) || (!d.split && decide (d.half = 1)))) ||
     (mat && (decide (d.orient = 3) || decide (d.gang = 3) || decide (d.herit = 3) || decide (d.mRows = 0) || decide (128 < d.mRows) ||
       decide (d.kTiles = 0) || !lines || !tscaleOk fs d.tsS || !tscaleOk ft d.tsT ||
       (decide (d.herit ≠ 0) && (d.split || d.rowM || d.blkM)))) then .badDesc
  else if d.part ≠ part then .partition
  else if (mat && nib && !bitOf feat 2) || ((mat || clr) && d.split && !bitOf feat 3) ||
     (mat && decide (d.herit = 1) && !bitOf feat 1) || (mat && decide (d.herit = 2) && !bitOf feat 0) then .feature
  else if mat && !(match fs, ft with
      | some s, some t => pairOk s t && (decide (d.herit = 0) || s == .bf16 || (s == .fp16 && decide (d.herit = 1)))
      | _, _ => false) then .format
  else if (mat || clr) && d.split && ((mat && decide (d.gang ≠ 2)) || decide (d.named.length ≠ 1) ||
      decide (2 ≤ (others.filter (fun a => !bitOf d.arrays a)).eraseDups.length)) then .splitLimit
  else .ok

/-! ### Operands of a product (R50, R55, R79, R81) -/

/-- The value of the stationary element of tile t at reduction index k (0 to 128 d - 1) of column c, for the n-th named array. A
split half has 64 columns: transposed, each is one full load line, lines 0 to 63 of the image (log entry 21). -/
def ArrDesc.statVal (d : ArrDesc) (c : Cores) (core n t : Nat) (f : Fmt) (k col : Nat) : FVal :=
  let off := if d.gang = 1 then n * d.sA else 0
  let per := if f.bits = 6 then 2 else 1
  let line := d.sBase + t * d.sK + off
  let w := f.packing
  let e := if d.orient = 1
    then c.elem core f (256 * (line + per * col)) k
    else c.elem core f (256 * (line + per * (k / w))) (k % w * d.cols + col)
  let sc := if f.sclBytes = 0 then FVal.fin false 1
    else (if f = .e2m1 then Fmt.ue4m3 else Fmt.e8m0).decode
      (c.cbByte core (256 * (d.sclS + off + t * d.sclSLines f) + col * f.sclBytes + k / (if f = .e2m1 then 16 else 32))).toNat
  scaled (f.decode e) sc (if f = .e2m1 then Fmt.bf16.decode d.tsS else .fin false 1)

/-- The value of the streamed element of tile t, row m, reduction index k. -/
def ArrDesc.strmVal (d : ArrDesc) (c : Cores) (core n t : Nat) (f : Fmt) (m k : Nat) : FVal :=
  let off := if d.gang = 0 then n * d.tA else 0
  let per := if f.bits = 6 then 2 else 1
  let line := d.tBase + t * d.tK + off
  let e := if d.orient = 2 then c.elem core f (256 * (line + k)) m else c.elem core f (256 * (line + per * m)) k
  let sc := if f.sclBytes = 0 then FVal.fin false 1
    else (if f = .e2m1 then Fmt.ue4m3 else Fmt.e8m0).decode
      (c.cbByte core (256 * (d.sclT + off + t * d.sclTLines f) + m * f.sclBytes + k / (if f = .e2m1 then 16 else 32))).toNat
  scaled (f.decode e) sc (if f = .e2m1 then Fmt.bf16.decode d.tsT else .fin false 1)

/-- A product of two values (R59). -/
def fmulExact (x y : FVal) : FVal :=
  match x, y with
  | .nan, _ | _, .nan => .nan
  | .inf a, .inf c => .inf (a ^^ c)
  | .inf a, .fin c m | .fin c m, .inf a => if m = 0 then .nan else .inf (a ^^ c)
  | .fin a m, .fin c n => .fin (a ^^ c) (m * n)

/-- The exact sum of products, or their non-finite value (R56, R59). -/
def sumExact (ps : List FVal) : FVal :=
  if ps.any (fun p => p == .nan) || (ps.contains (.inf true) && ps.contains (.inf false)) then .nan
  else if ps.contains (.inf true) then .inf true
  else if ps.contains (.inf false) then .inf false
  else .ofRat (ps.foldl (fun a p => a + p.rat) 0)

/-- One native band added to a value (R57 to R60). -/
def bandAdd (acc : FVal) (ps : List FVal) : FVal := addRnd .acc32 .near acc (sumExact ps)

/-- One Miomel group added to a value (R118). -/
def miomelAdd (acc : FVal) (ps : List FVal) : FVal :=
  addRnd .acc32 .near acc (match sumExact ps with | .fin _ _ => miomelGroup ps | x => x)

/-- A band or group added to a word: one whose products are all exact zeros leaves the word's bits as they are (R58, R118 step 7). -/
def wordAdd (f : FVal → List FVal → FVal) (w : BitVec 32) (ps : List FVal) : BitVec 32 :=
  if ps.all FVal.zero? then w else BitVec.ofNat 32 (Fmt.acc32.encode (f (Fmt.acc32.decode w.toNat) ps))

/-- The arithmetic of a descriptor: 0 native floating point, 1 Miomel, 2 Benium, 3 integer. -/
def ArrDesc.arith (d : ArrDesc) : Nat :=
  if d.herit ≠ 0 then d.herit
  else match Fmt.ofCode d.fmtS with | some f => if f.isInt then 3 else 0 | none => 0

/-- A saturating int32 addition. -/
def sat32 (i : Int) : Int × Bool := if i < -2147483648 then (-2147483648, true) else if 2147483647 < i then (2147483647, true) else (i, false)

/-- One tile's products added to an accumulator word: the new word and whether it saturated. -/
def accTile (arith : Nat) (w : BitVec 32) (ps : List FVal) : BitVec 32 × Bool :=
  if arith = 3 then
    let r := (chunks 32 ps.length ps).foldl (fun (a : Int × Bool) band =>
      let x := sat32 (a.1 + (band.foldl (fun s p => s + p.rat) (0 : Rat)).num)
      (x.1, a.2 || x.2)) (w.toInt, false)
    (BitVec.ofInt 32 r.1, r.2)
  else
    (if arith = 0 then (chunks 32 ps.length ps).foldl (wordAdd bandAdd) w
      else if arith = 1 then (chunks 8 ps.length ps).foldl (wordAdd miomelAdd) w
      else BitVec.ofNat 32 (Fmt.acc32.encode (ps.foldl addBenium (Fmt.acc32.decode w.toNat))), false)

/-- Whether a tile's products write the word at all: a word that no band is added to is not written (R58, R59). -/
def tileWrites (arith : Nat) (ps : List FVal) : Bool := decide (arith = 2) || !ps.all FVal.zero?

/-- The mask record of the n-th named array: the elements it covers (R64). DESIGN CHOICE: reserved bytes 18 to 31 that are not 0 are ignored (log entry 200). -/
def ArrDesc.masked (d : ArrDesc) (c : Cores) (core n m col : Nat) : Bool :=
  let byte (i : Nat) : Nat := (c.cbByte core (256 * d.mask + 32 * n + i)).toNat
  (d.rowM && bitOf (byte (m / 8)) (m % 8)) ||
  (d.blkM && bitOf (byte (16 + (4 * (m / 32) + col / 32) / 8)) ((4 * (m / 32) + col / 32) % 8))

/-- A row masked in every column that the descriptor writes (R65). -/
def ArrDesc.rowGone (d : ArrDesc) (c : Cores) (core n m : Nat) : Bool :=
  (List.range d.cols).all (fun j => d.masked c core n m (d.col0 + j))

/-! ### Banks (R66, R67) -/

def bankNo (core a bk : Nat) : Nat := 8 * core + 2 * a + bk

/-- The halves of a bank that a descriptor uses. -/
def ArrDesc.halves (d : ArrDesc) : List Nat := if d.split then [d.half] else [0, 1]

def Cores.bankState (c : Cores) (bn h : Nat) : Nat := Sp.get 0 c.banks (2 * bn + h)

def Cores.setBank (c : Cores) (bn : Nat) (hs : List Nat) (x : Nat) : Cores :=
  { c with banks := hs.foldl (fun m h => Sp.set 0 m (2 * bn + h) x) c.banks }

/-- The columns' words of a bank set to +0, their rows' poison and masking marks cleared. -/
def Cores.clearBank (c : Cores) (bn : Nat) (d : ArrDesc) : Cores :=
  { c with
    acc := c.acc.filter (fun p => !(decide (p.1 / 2 ^ 14 = bn) && decide (d.col0 ≤ p.1 % 128) && decide (p.1 % 128 < d.col0 + d.cols)))
    rowPois := c.rowPois.filter (fun p => !(decide (p.1 / 2 ^ 8 = bn) && d.halves.contains (p.1 % 2)))
    rowMask := c.rowMask.filter (fun p => !(decide (p.1 / 2 ^ 8 = bn) && d.halves.contains (p.1 % 2))) }

/-- The rows that a descriptor masks in every column it writes, marked in its halves of a bank: those masked by it and, unless it starts the bank, by all before it (R124,
log entry 203). -/
def Cores.markRows (c : Cores) (bn : Nat) (d : ArrDesc) (gone : Nat → Bool) : Cores :=
  { c with rowMask := (List.range d.mRows).foldl (fun x m => d.halves.foldl (fun y h =>
      let k := bn * 2 ^ 8 + 2 * m + h
      Sp.set 0 y k (b2n (gone m && (d.init || Sp.get 0 y k == 1)))) x) c.rowMask }

/-- Rows of a bank poisoned in the descriptor's halves. -/
def Cores.poisonRows (c : Cores) (bn : Nat) (hs ms : List Nat) : Cores :=
  { c with rowPois := ms.foldl (fun r m => hs.foldl (fun r2 h => Sp.set 0 r2 (bn * 2 ^ 8 + 2 * m + h) 1) r) c.rowPois }

/-! ### What happens physically while a descriptor runs -/

/-- A failed array-internal check (R75): the array, the check's code (R83) and for split-array mode the half it holds. -/
structure ArrFault where
  array : Nat
  check : Nat
  rng   : Bool := false
deriving DecidableEq, Repr

/-- Observations of one run: a failed check, corrected accumulator errors, words that a defect leaves in place of the right ones (as
array, row, column, word), and the stall counts of R83 (dry, stationary wait, drain wait, bubbles) and witness holds. -/
structure ArrPhys where
  fault  : Option ArrFault
  ce     : Nat
  upsets : List (Nat × Nat × Nat × BitVec 32)
  dry    : Nat
  sWait  : Nat
  dWait  : Nat
  bubble : Nat
  hold   : Nat
deriving DecidableEq, Repr

/-- What one array's part of a product leaves: words, saturation, non-finite words, poisoned rows, and whether it had work. -/
structure ArrOut where
  cores  : Cores
  sat    : Bool
  nonfin : Bool
  pois   : Bool
  work   : Bool
deriving DecidableEq, Repr

/-- The reduction depth of a tile of a product. -/
def depth (f : Fmt) : Nat := 128 * f.packing

/-- The products of tile t for one word. -/
def ArrDesc.products (d : ArrDesc) (c : Cores) (core n t : Nat) (fs ft : Fmt) (m col : Nat) : List FVal :=
  (List.range (depth fs)).map (fun k =>
    let a := d.statVal c core n t fs k col
    let x := d.strmVal c core n t ft m k
    if d.herit = 0 then fmulExact a x else fmulExact (heritIn fs a) (heritIn ft x))

/-- One named array's work: every tile in order for every unmasked word, with the poison of R77. -/
def ArrDesc.runArray (d : ArrDesc) (c : Cores) (core n a : Nat) (fs ft : Fmt) : ArrOut :=
  let bn := bankNo core a d.bank
  let c0 := (if d.init then c.clearBank bn d else c).markRows bn d (d.rowGone c core n)
  let live := (List.range d.mRows).filter (fun m => !d.rowGone c core n m)
  if live = [] then { cores := c0, sat := false, nonfin := false, pois := false, work := false }
  else
    let words := (live.map (fun m => ((List.range d.cols).filter (fun j => !d.masked c core n m (d.col0 + j))).map (fun j => (m, j)))).flatten
    let r := words.foldl (fun (s : List (Nat × BitVec 32) × Bool × Bool) w =>
      let key := bn * 2 ^ 14 + 128 * w.1 + d.col0 + w.2
      let v := (List.range d.kTiles).foldl (fun (x : BitVec 32 × Bool × Bool) t =>
        let ps := d.products c core n t fs ft w.1 w.2
        let y := accTile d.arith x.1 ps
        (y.1, x.2.1 || y.2, x.2.2 || (tileWrites d.arith ps && decide (d.arith ≠ 3) && !(Fmt.acc32.decode y.1.toNat).finite)))
        (Sp.get 0 s.1 key, false, false)
      (Sp.set 0 s.1 key v.1, s.2.1 || v.2.1, s.2.2 || v.2.2))
      (c0.acc, false, false)
    let off := if d.gang = 1 then n * d.sA else 0
    let toff := if d.gang = 0 then n * d.tA else 0
    let statBad := (List.range d.kTiles).any (fun t => (List.range (statLines fs)).any (fun i => c.linePois core (d.sBase + t * d.sK + off + i)))
    let rowBad (m : Nat) : Bool := (List.range d.kTiles).any (fun t =>
      let base := d.tBase + t * d.tK + toff
      if d.orient = 2 then (List.range (depth ft)).any (fun i => c.linePois core (base + i))
      else if ft.bits = 6 then c.linePois core (base + 2 * m) || c.linePois core (base + 2 * m + 1)
      else c.linePois core (base + m))
    let ms := if statBad then (List.range 128).filter (fun m => !d.rowGone c core n m) else live.filter rowBad
    { cores := ({ c0 with acc := r.1 }).poisonRows bn d.halves ms, sat := r.2.1, nonfin := r.2.2, pois := ms != [], work := true }

/-! ### The witness unit (R121, R205 to R207) -/

def witReg (cl : Nat) : RegRef := ⟨.WIT_CFG, cl, 0⟩

/-- WIT_STAT MODE: 3 while the witness unit is fenced, under test, suspect or FAILED (R208, R387), 2 without feature bit 4 or with DISABLE, else whether
it samples. -/
def Blk.witMode (b : Blk) (cl : Nat) : Nat :=
  let role := b.rf (unitReg (clUnit cl 13)) Fld.AWL_UNIT_ROLE
  if 2 ≤ role ∧ role ≤ 5 then 3
  else if !bitOf (b.rn ⟨.IDENT_FEATURE_EFF, 0, 0⟩) 4 || b.rf (witReg cl) Fld.WIT_CFG_DISABLE = 1 then 2
  else if (slotGet b.cores.samples cl).isSome then 1 else 0

/-- WITNESS_SELECT (R205, R206): the draw for the k-th accumulation of a schedule core, and the sample it may start. -/
def Blk.witSelect (b : Blk) (cl phys sched : Nat) (d : ArrDesc) (a : Nat) : Blk :=
  let k := Sp.get 0 b.cores.accCnt sched
  let b1 := { b with cores := { b.cores with accCnt := Sp.set 0 b.cores.accCnt sched (k + 1) } }
  let s := b.rn ⟨.SEQ_RNG_STEP, cl, 0⟩
  let out := philox (b.rn ⟨.SEQ_RNG_KEY, cl, 0⟩) s (d.tag + 0x06 * 65536 + (4 * (sched % 5) + a) * 2 ^ 24) k 0
  let rate := max 8 (min 16 (b.rf (witReg cl) Fld.WIT_CFG_RATE_LOG2))
  if b.witMode cl = 2 ∨ b.witMode cl = 3 ∨ 2 ^ (16 - rate) ≤ out % 65536 then b1
  else if (slotGet b.cores.samples cl).isSome then b1.bump ⟨.WIT_SKIPPED, cl, 0⟩
  else
    let smp : WitSample := { core := phys, array := a, bank := d.bank, half := d.half, split := d.split, arith := d.arith
                             words := [], final := [], closed := false, mb := 0xFFFF, shared := false }
    let r : RegRef := ⟨.WIT_STAT, cl, 0⟩
    (((({ b1 with cores := { b1.cores with samples := slotPut b1.cores.samples cl smp } }).wf r
      Fld.WIT_STAT_CORE (phys % 5)).wf r Fld.WIT_STAT_ARRAY a).wf r Fld.WIT_STAT_HALF (b2n d.split))

/-- A cluster's sample ends. -/
def Blk.witEnd (b : Blk) (cl : Nat) : Blk := { b with cores := { b.cores with samples := b.cores.samples.filter (fun x => x.1 != cl) } }

/-- A sample abandoned without comparison (R206). -/
def Blk.witAbandon (b : Blk) (cl : Nat) : Blk := (b.witEnd cl).bump ⟨.WIT_ABANDONED, cl, 0⟩

/-- The sample of this cluster that a descriptor on array `a` belongs to. -/
def Blk.witOf (b : Blk) (cl core a : Nat) (d : ArrDesc) : Option WitSample :=
  (slotGet b.cores.samples cl).filter (fun x => decide (x.core = core) && decide (x.array = a) && decide (x.bank = d.bank) &&
    decide (x.split = d.split) && decide (x.half = d.half) && !x.closed)

/-- A check that both halves of an array share (R73). -/
def ArrFault.shared (f : ArrFault) : Bool := !f.rng && (decide (f.check = 1) || decide (f.check = 2) || decide (f.check = 6) || decide (f.check = 7))

/-- The array faults under a sample of it (R206): a fault of one half leaves a sample of the other half alone. -/
def Blk.witFault (b : Blk) (cl core : Nat) (d : ArrDesc) (f : ArrFault) : Blk :=
  match slotGet b.cores.samples cl with
  | some x => if x.core = core ∧ x.array = f.array ∧ x.closed = false ∧ (d.split = false ∨ f.shared = true ∨ x.split = false ∨ x.half = d.half) then b.witAbandon cl else b
  | none => b

/-- The witness follows one descriptor on the sampled array: exact sums per word; the last descriptor's words are captured (R207). -/
def ArrDesc.witRun (d : ArrDesc) (c after : Cores) (core n a : Nat) (fs ft : Fmt) (x : WitSample) : WitSample :=
  let rows := (List.range d.mRows).map (fun m => (List.range d.cols).map (fun j => (m, j)))
  let ws := (rows.flatten.filter (fun w => !d.masked c core n w.1 (d.col0 + w.2))).foldl (fun (acc : List (Nat × WitWord)) w =>
    let key := 128 * w.1 + d.col0 + w.2
    let old : WitWord := (slotGet acc key).getD ⟨.fin false 0, 0, 0, 0, 0, 0⟩
    let ps := ((List.range d.kTiles).map (fun t => d.products c core n t fs ft w.1 w.2)).flatten
    let int := (chunks 32 ps.length ps).foldl (fun (i : Int) band => (sat32 (i + (band.foldl (fun s p => s + p.rat) (0 : Rat)).num)).1) old.i
    slotPut acc key { w := sumExact (old.w :: ps), a := ps.foldl (fun s p => match p with | .fin _ m => s + m | _ => s) old.a
                      nb := old.nb + (ps.length + 31) / 32, ng := old.ng + (ps.length + 7) / 8, k := old.k + ps.length, i := int }) x.words
  let cols := (List.range 128).map (fun m => (List.range d.cols).map (fun j => 128 * m + d.col0 + j))
  if d.drain then
    { x with words := ws, closed := true
             final := cols.flatten.map (fun key => (key, Sp.get 0 after.acc (bankNo core a d.bank * 2 ^ 14 + key))) }
  else { x with words := ws }

/-- The lines of a streamed tile that are issued: those of the rows that some column of the descriptor takes (R65); a transposed tile is read whole. -/
def ArrDesc.issuedLines (d : ArrDesc) (ft : Fmt) (live : List Nat) : List Nat :=
  if d.orient = 2 then List.range (d.streamLast ft + 1) else if ft.bits = 6 then (live.map (fun m => [2 * m, 2 * m + 1])).flatten else live

/-- The lines that the tap copies while a descriptor runs on its n-th named array (R207): of each tile the load lines, the streamed rows that are issued and the scale
lines of those; an array with no work reads none (R65). -/
def ArrDesc.tapLines (d : ArrDesc) (c : Cores) (core n : Nat) (fs ft : Fmt) : List Nat :=
  let off := if d.gang = 1 then n * d.sA else 0
  let toff := if d.gang = 0 then n * d.tA else 0
  let live := (List.range d.mRows).filter (fun m => !d.rowGone c core n m)
  if live = [] then []
  else ((List.range d.kTiles).map (fun t =>
    (List.range (statLines fs)).map (fun i => d.sBase + t * d.sK + off + i) ++ (d.issuedLines ft live).map (fun i => d.tBase + t * d.tK + toff + i) ++
    (if fs.sclBytes = 0 then [] else (List.range (d.sclSLines fs)).map (fun i => d.sclS + off + t * d.sclSLines fs + i)) ++
    (if ft.sclBytes = 0 then [] else ((List.range (d.sclTLines ft)).filter (fun i => live.any (fun m => decide (m * ft.sclBytes / 256 = i)))).map
      (fun i => d.sclT + toff + t * d.sclTLines ft + i)))).flatten

/-- The lines copied into the cluster's witness buffer (R167, R207): 4 MiB filled in the order of reading, round and round (log entry 28). -/
def Blk.witTap (b : Blk) (cl core tapped : Nat) (ls : List Nat) : Blk :=
  { b with ins := { b.ins with data := ls.zipIdx.foldl (fun m (x : Nat × Nat) =>
      m.write (cl * 2 ^ 27 + 0x7A00000 + 256 * ((tapped + x.2) % 16384)) (b.cores.cb.read (core * coreBuf + 256 * x.1) 256)) b.ins.data } }

/-- One word passes the comparison (R121, R122). -/
def witPass (arith shift : Nat) (acc : BitVec 32) (x : WitWord) : Bool :=
  if arith = 3 then decide (acc.toInt = x.i)
  else
    let bound := (if arith = 0 then (x.nb : Rat) * pow2 (-24) * x.a + (x.nb : Rat) * pow2 (-150)
      else if arith = 1 then (x.ng : Rat) * pow2 (-21) * x.a + (x.ng : Rat) * pow2 (-149)
      else (x.k : Rat) * pow2 (-23) * x.a + (x.k : Rat) * pow2 (-126)) * pow2 shift
    match Fmt.acc32.decode acc.toNat, x.w with
    | .nan, .nan => true
    | .inf n, .inf m => n == m
    | .inf n, .fin m q => decide (n = m) && decide (Fmt.acc32.maxFin < q)
    | .fin n p, .fin m q => decide (((FVal.fin n p).rat - (FVal.fin m q).rat).abs ≤ bound)
    | _, _ => false

/-- A sample is of an array, bank and half that a descriptor on a core uses. -/
def WitSample.of (x : WitSample) (core : Nat) (d : ArrDesc) : Bool :=
  decide (x.core = core) && decide (x.bank = d.bank) && decide (x.split = d.split) && decide (x.half = d.half) && d.named.any (fun n => n.1 == x.array)

/-- The sample that a descriptor has just followed notes the entry (R272) and the descriptor (R206). -/
def Blk.witMark (b : Blk) (cl core : Nat) (d : ArrDesc) (id mb : Nat) (shared : Bool) : Blk :=
  { b with cores := { b.cores with samples := b.cores.samples.map (fun (y : Nat × WitSample) =>
      if decide (y.1 = cl) && y.2.of core d then (y.1, { y.2 with mb := mb, shared := shared, ids := y.2.ids ++ [id] }) else y) } }

/-- The words of a sample that fail. -/
def Blk.witFails (b : Blk) (cl : Nat) (x : WitSample) : Bool :=
  let shift := bits (b.rn ⟨.WIT_TOL_CFG, cl, 0⟩) (4 * x.arith) 4
  x.final.any (fun f => !(witPass x.arith (if x.arith = 3 then 0 else shift) f.2 ((slotGet x.words f.1).getD ⟨.fin false 0, 0, 0, 0, 0, 0⟩)))

/-! ### Running a descriptor -/

/-- A fault of an array (R73, R76): the poison in the bank of every array that the descriptor names, SEQ_ARR_FAULT, the fences of the array that failed; in
split-array mode by half, or both for a shared check: there the bank poisoned is the descriptor's own in both halves, and the mate's in its half (log entry 199,
`Blk.sharedStop`). A failed check of the random source that feeds it fences no array (R381). -/
def Blk.arrFault (b : Blk) (core : Nat) (d : ArrDesc) (f : ArrFault) : Blk × AStat :=
  let shared := d.split && f.shared
  let hs := if d.split && !shared then [d.half] else [0, 1]
  let die := clDie (core / 5)
  let scope := if !d.split then 0 else if shared then 3 else 1 + d.half
  let st : RegRef := ⟨.SEQ_ARR_STATE, core, 0⟩
  let b1 := { b with cores := d.named.foldl (fun (c : Cores) (p : Nat × Nat) => c.poisonRows (bankNo core p.1 d.bank) hs (List.range 128)) b.cores }
  let b2 := b1.wn ⟨.SEQ_ARR_FAULT, core, 0⟩ (f.array + 4 * scope + 16 * f.check + 256 * d.tag + 2 ^ 24 * ((b.shankNow die).toNat % 2 ^ 40))
  let b3 := if hs.contains 0 then b2.wf st Fld.SEQ_ARR_STATE_FENCE_W (setBit (b2.rf st Fld.SEQ_ARR_STATE_FENCE_W) f.array true) else b2
  let b4 := if hs.contains 1 then b3.wf st Fld.SEQ_ARR_STATE_FENCE_E (setBit (b3.rf st Fld.SEQ_ARR_STATE_FENCE_E) f.array true) else b3
  if f.rng then (b1, .fault) else (b4.tick, if shared then .faultShared else .fault)

/-- The array may take the descriptor now: neither half is fenced (R74, R76), and the banks it names are not the vector engine's (R67). -/
def Blk.arrReady (b : Blk) (core : Nat) (d : ArrDesc) : Bool :=
  let st : RegRef := ⟨.SEQ_ARR_STATE, core, 0⟩
  d.named.all (fun p => d.halves.all (fun h => decide (b.cores.bankState (bankNo core p.1 d.bank) h ≠ 2)) &&
    !bitOf (b.rf st Fld.SEQ_ARR_STATE_FENCE_W) p.1 && !bitOf (b.rf st Fld.SEQ_ARR_STATE_FENCE_E) p.1)

/-- The stall counts and corrected errors of a run (R83). -/
def Blk.arrTally (b : Blk) (core : Nat) (ph : ArrPhys) : Blk :=
  ((((b.bump ⟨.SEQ_ARR_DRY, core, 0⟩ ph.dry).bump ⟨.SEQ_ARR_STAT_WAIT, core, 0⟩ ph.sWait).bump
    ⟨.SEQ_ARR_DRAIN_WAIT, core, 0⟩ ph.dWait).bump ⟨.SEQ_ARR_BUBBLE, core, 0⟩ ph.bubble).bump ⟨.SEQ_ARR_ACC_CE, core, 0⟩ ph.ce

/-- The 16-bit result word (R80). -/
def arrResult (st : AStat) (nonfin sat pois gone : Bool) : Nat := st.code + 256 * b2n nonfin + 512 * b2n sat + 1024 * b2n pois + 2048 * b2n gone

/-- A checked MATMUL runs on a physical core for a schedule core (R57 to R77): the result word. -/
def Blk.matmul (b : Blk) (cl core sched : Nat) (d : ArrDesc) (ph : ArrPhys) : Blk × Nat :=
  match Fmt.ofCode d.fmtS, Fmt.ofCode d.fmtT with
  | some fs, some ft =>
    let b0 := if d.init then d.named.foldl (fun c p => c.witSelect cl core sched d p.1) b else b
    let run := d.named.foldl (fun (s : Cores × Bool × Bool × List Nat × Bool) p =>
      let o := d.runArray s.1 core p.2 p.1 fs ft
      (o.cores.setBank (bankNo core p.1 d.bank) d.halves 1, s.2.1 || o.sat, s.2.2.1 || o.nonfin, s.2.2.2.1 ++ (if o.pois then [p.1] else []),
        s.2.2.2.2 || o.work)) (b0.cores, false, false, [], false)
    let pois := run.2.2.2.1 != []
    let cUp := ph.upsets.foldl (fun (c : Cores) u =>
      { c with acc := Sp.set 0 c.acc (bankNo core u.1 d.bank * 2 ^ 14 + 128 * u.2.1 + u.2.2.1) u.2.2.2 }) run.1
    let b1 := { b0 with cores := { cUp with samples := b0.cores.samples, accCnt := b0.cores.accCnt } }
    let held := d.named.any (fun p => (b1.witOf cl core p.1 d).isSome)
    let b1f := ph.fault.elim b1 (fun f => b1.witFault cl core d f)
    let b2 := d.named.foldl (fun c p =>
      match c.witOf cl core p.1 d with
      | some x =>
        if run.2.2.2.1.contains p.1 then c.witAbandon cl
        else
          let ls := d.tapLines b.cores core p.2 fs ft
          let y := d.witRun b.cores c.cores core p.2 p.1 fs ft x
          { c.witTap cl core x.tapped ls with cores := { c.cores with samples := slotPut c.cores.samples cl { y with tapped := x.tapped + ls.length } } }
      | none => c) b1f
    let b3 := if d.drain then { b2 with cores := d.named.foldl (fun c p => c.setBank (bankNo core p.1 d.bank) d.halves 2) b2.cores } else b2
    let b4 := b3.arrTally core ph
    let b5 := if held then b4.bump ⟨.WIT_HOLD, cl, 0⟩ ph.hold else b4
    match ph.fault with
    | some f => let r := b5.arrFault core d f; (r.1, arrResult r.2 run.2.2.1 run.2.1 true (!run.2.2.2.2))
    | none =>
      (b5, arrResult (if pois then .poisonIn else .ok) run.2.2.1 run.2.1 pois (!run.2.2.2.2))
  | _, _ => (b, arrResult .format false false false false)

/-- ACC_CLEAR (R79): the named banks, or their half, at +0, their state as it was (DESIGN CHOICE, log entry 201: R66 speaks of a first tile, and ACC_CLEAR has none); a failed check is a fault as in any descriptor (R75, R76). -/
def Blk.accClear (b : Blk) (cl core : Nat) (d : ArrDesc) (ph : ArrPhys) : Blk × Nat :=
  let b1 : Blk := { b with cores := d.named.foldl (fun (c : Cores) (p : Nat × Nat) => c.clearBank (bankNo core p.1 d.bank) d) b.cores }
  let b2 := b1.arrTally core ph
  match ph.fault with
  | some f => let r := (b2.witFault cl core d f).arrFault core d f; (r.1, arrResult r.2 false false true false)
  | none => (b2, arrResult .ok false false false false)

/-- The context of a descriptor that runs is discarded (R78): its banks poisoned and FREE. -/
def Blk.arrDiscard (b : Blk) (core : Nat) (d : ArrDesc) : Blk :=
  let c := d.named.foldl (fun (c : Cores) (p : Nat × Nat) =>
    (c.poisonRows (bankNo core p.1 d.bank) d.halves (List.range 128)).setBank (bankNo core p.1 d.bank) d.halves 0) b.cores
  { b with cores := c }

end Sys2Proof.Machine
end

