-- ==== Sys2Proof/Machine/Special.lean ====
section
/-!
DEFINITION. Square root, division and the special functions of R144. A transcendental result is found in fixed point of 128
fraction bits (its own error is far below the accuracies R144 states); within those accuracies the result is free
(Config.sfuPick).
-/
namespace Sys2Proof.Machine

/-- The integer square root, bit by bit. -/
def isqrtAux : Nat → Nat → Nat → Nat
  | 0, _, r => r
  | n + 1, v, r => let c := r + 2 ^ n; isqrtAux n v (if c * c ≤ v then c else r)

def isqrt (v : Nat) : Nat := isqrtAux (Nat.log2 v / 2 + 1) v 0

/-- A rational that rounds as the square root of q does, in every format of at most 60 significant bits: the root itself when it is
exact in the working precision, else the middle of its interval. -/
def sqrtProxy (q : Rat) : Rat :=
  if q = 0 then 0
  else
    let k : Int := 64 - flog2 q / 2
    let v := q * pow2 (2 * k)
    let s := isqrt v.floor.toNat
    if ((s * s : Nat) : Rat) = v then (s : Rat) * pow2 (-k) else ((2 * s + 1 : Nat) : Rat) * pow2 (-k - 1)

/-- The square root correctly rounded to binary32 (R143, R189). -/
def sqrtF (x : FVal) : FVal :=
  match x with
  | .nan => .nan
  | .inf n => if n then .nan else .inf false
  | .fin n m => if m = 0 then .fin n 0 else if n then .nan else f32 (.fin false (sqrtProxy m))

/-- Division correctly rounded to binary32. -/
def divF (x y : FVal) : FVal :=
  match x, y with
  | .nan, _ | _, .nan => .nan
  | .inf _, .inf _ => .nan
  | .inf a, .fin c _ => .inf (a ^^ c)
  | .fin a _, .inf c => .fin (a ^^ c) 0
  | .fin a m, .fin c n => if n = 0 then (if m = 0 then .nan else .inf (a ^^ c)) else f32 (.fin (a ^^ c) (m / n))

/-! ### Fixed point of 128 fraction bits -/

abbrev fx : Int := 2 ^ 128

def fxMul (a c : Int) : Int := a * c / fx
def fxOf (q : Rat) : Int := (q * (fx : Rat)).floor

/-- exp of a small argument by its series; `t` the current term, `n` the next index. -/
def expSeries : Nat → Int → Int → Nat → Int → Int
  | 0, _, _, _, s => s
  | f + 1, x, t, n, s => let t' := fxMul t x / (n : Int); expSeries f x t' (n + 1) (s + t')

def squareN : Nat → Int → Int
  | 0, x => x
  | n + 1, x => squareN n (fxMul x x)

/-- exp x for |x| below 64. -/
def expFx (x : Int) : Int := squareN 8 (expSeries 40 (x / 256) fx 1 fx)

/-- The series of atanh: sum of z^(2k+1)/(2k+1). -/
def atanhSeries : Nat → Int → Int → Nat → Int → Int
  | 0, _, _, _, s => s
  | f + 1, z2, t, n, s => let t' := fxMul t z2; atanhSeries f z2 t' (n + 2) (s + t' / (n : Int))

/-- ln y for y in [1, 2]. -/
def lnFx (y : Int) : Int := let z := (y - fx) * fx / (y + fx); 2 * atanhSeries 90 (fxMul z z) z 3 z

def ln2Fx : Int := lnFx (2 * fx)

/-- The series of erf: x - x^3/3 + x^5/(2!*5) - ... -/
def erfSeries : Nat → Int → Int → Nat → Int → Int
  | 0, _, _, _, s => s
  | f + 1, x2, t, n, s => let t' := -(fxMul t x2) / (n : Int); erfSeries f x2 t' (n + 1) (s + t' / (2 * n + 1 : Nat))

/-- 2 / sqrt(pi) in fixed point: 2 / sqrt(pi) = 1.12837916709551257389615890312154517... -/
def erfScale : Int := 112837916709551257389615890312154517 * fx / 10 ^ 35

/-- The real value of a special function (3 EXP2, 4 LOG2, 5 TANH, 6 ERF) at a finite argument, to about 2^-100. -/
def sfuReal (op : Nat) (x : Rat) : Rat :=
  if op = 3 then
    let n := x.floor
    (((expFx (fxMul (fxOf (x - (n : Rat))) ln2Fx)) : Int) : Rat) / (fx : Rat) * pow2 n
  else if op = 4 then
    let e := flog2 x
    (e : Rat) + ((lnFx (fxOf (x * pow2 (-e))) : Int) : Rat) / ((ln2Fx : Int) : Rat)
  else if op = 5 then
    if 30 < x then 1 else if x < -30 then -1
    else let e := expFx (fxOf (2 * x)); (((e - fx : Int)) : Rat) / ((e + fx : Int) : Rat)
  else
    if 6 < x then 1 else if x < -6 then -1
    else let z := fxOf x; (((fxMul erfScale (erfSeries 200 (fxMul z z) z 1 z)) : Int) : Rat) / (fx : Rat)

/-- The binary32 value `k` units of the last place away from a finite one, staying on its side of zero. -/
def ulpMove (v : FVal) (k : Int) : FVal :=
  match v with
  | .fin n m =>
    let e : Int := Fmt.acc32.encodeExact false m
    Fmt.acc32.decode ((max 0 (e + k)).toNat + (if n then 2 ^ 31 else 0))
  | x => x

/-- A result within `n` units of the last place of the exact value, or within `slack`: the free choice where it is allowed, else the
nearest value. -/
def sfuChoose (op n : Nat) (slack exact : Rat) (x : BitVec 32) : FVal :=
  let near := f32 (.ofRat exact)
  let c := ulpMove near (Config.sfuPick op x)
  let ulp := pow2 (max (flog2 exact.abs) (-126) - 23)
  if exact = 0 ∧ slack = 0 then near
  else match c with
  | .fin _ _ => if ((c.rat - exact).abs ≤ (n : Rat) * ulp) ∨ (c.rat - exact).abs ≤ slack then c else near
  | _ => near

/-- The flags of R157 that tile arithmetic raises. -/
abbrev flInvalid : Nat := 32
abbrev flOverflow : Nat := 64
abbrev flDivzero : Nat := 128

/-- Tile arithmetic's INVALID and OVERFLOW (R143) of a result on its operands. -/
def arithFlags (ops : List FVal) (r : FVal) : Nat :=
  (if r = .nan ∧ ops.all (fun x => x != .nan) = true then flInvalid else 0) +
  (match r with | .inf _ => if ops.all FVal.finite then flOverflow else 0 | _ => 0)

/-- The special functions (R142 class 3, R144): value and flags. RCP, RSQRT and LOG2 of a zero raise DIVZERO alone (log entry 162). EXP2 below -200 gives +0,
TANH and ERF of a zero that zero, and a free result keeps its side of zero (log entry 163). -/
def sfu (op : Nat) (bitsIn : BitVec 32) : FVal × Nat :=
  let x := Fmt.acc32.decode bitsIn.toNat
  match op, x with
  | _, .nan => (.nan, 0)
  | 0, .inf n => (.fin n 0, 0)
  | 0, .fin n m => if m = 0 then (.inf n, flDivzero) else
      let r := sfuChoose 0 1 0 ((FVal.fin n (1 / m)).rat) bitsIn; (r, arithFlags [x] r)
  | 1, .inf n => if n then (.nan, flInvalid) else (.fin false 0, 0)
  | 1, .fin n m => if m = 0 then (.inf n, flDivzero) else if n then (.nan, flInvalid) else
      (sfuChoose 1 1 0 (1 / sqrtProxy m) bitsIn, 0)
  | 2, _ => let r := sqrtF x; (r, arithFlags [x] r)
  | 3, .inf n => (if n then .fin false 0 else .inf false, 0)
  | 3, .fin n m =>
      if !n ∧ 128 < m then (.inf false, flOverflow)
      else if n ∧ 200 < m then (.fin false 0, 0)
      else let r := sfuChoose 3 2 0 (sfuReal 3 x.rat) bitsIn; (r, arithFlags [x] r)
  | 4, .inf n => if n then (.nan, flInvalid) else (.inf false, 0)
  | 4, .fin n m => if m = 0 then (.inf true, flDivzero) else if n then (.nan, flInvalid) else
      (sfuChoose 4 2 0 (sfuReal 4 m) bitsIn, 0)
  | 5, .inf n | 6, .inf n => (.fin n 1, 0)
  | op, .fin n m =>
      if m = 0 then (.fin n 0, 0) else (sfuChoose op 4 (pow2 (-26)) (sfuReal op x.rat) bitsIn, 0)
  | _, _ => (.nan, flInvalid)

end Sys2Proof.Machine
end

