-- ==== Sys2Proof/Machine/Vector.lean ====
section
/-!
DEFINITION. The vector engine: descriptors, programs, every instruction of R142, reductions, permutations, loads and stores, flags,
traps and faults (R131 to R165).
-/
namespace Sys2Proof.Machine

/-! ### Status and flags (R157, R162) -/

inductive VStat where
  | ok | badDesc | partition | format | badInstr | bank | bankTimeout | poisonIn | trap | fault | discarded
deriving DecidableEq, Repr

def VStat.code : VStat → Nat
  | .ok => 0 | .badDesc => 0x10 | .partition => 0x11 | .format => 0x13 | .badInstr => 0x15 | .bank => 0x16 | .bankTimeout => 0x17
  | .poisonIn => 0x20 | .trap => 0x21 | .fault => 0x30 | .discarded => 0x32

abbrev flNonfinite : Nat := 1
abbrev flSat : Nat := 2
abbrev flPoison : Nat := 4
abbrev flEmpty : Nat := 8
abbrev flOor : Nat := 16

/-! ### Tiles, predicates, present shape (R131 to R133) -/

def tileKey (core t r l : Nat) : Nat := core * 2 ^ 16 + t * 2 ^ 11 + 128 * r + l
def tpKey (core t r : Nat) : Nat := core * 2 ^ 9 + t * 16 + r
def predKey (core p r l : Nat) : Nat := core * 2 ^ 14 + p * 2 ^ 11 + 128 * r + l

def Vec.pvl1 (v : Vec) (core : Nat) : Nat := Sp.get 0 v.pvl core + 1
def Vec.prc1 (v : Vec) (core : Nat) : Nat := Sp.get 0 v.prc core + 1
def Vec.tile (v : Vec) (core t r l : Nat) : BitVec 32 := Sp.get 0 v.tiles (tileKey core t r l)
def Vec.tilePois (v : Vec) (core t r : Nat) : Bool := Sp.get 0 v.pois (tpKey core t r) == 1
def Vec.tileMask (v : Vec) (core t r : Nat) : Bool := Sp.get 0 v.mrow (tpKey core t r) == 1

/-- A predicate bit; P0 reads as all ones (R132). -/
def Vec.pred (v : Vec) (core p r l : Nat) : Bool := decide (p = 0) || Sp.get 0 v.preds (predKey core p r l) == 1

/-- A run of consecutive keys replaced by a function of the offset; entries equal to `d` are not listed. -/
def spFill {α : Type} [DecidableEq α] (d : α) (m : List (Nat × α)) (lo n : Nat) (f : Nat → α) : List (Nat × α) :=
  m.filter (fun p => decide (p.1 < lo)) ++ ((List.range n).map (fun i => (lo + i, f i))).filter (fun p => decide (p.2 ≠ d)) ++
    m.filter (fun p => decide (lo + n ≤ p.1))

/-! ### Instruction words (R140) -/

/-- The fields of a vector instruction word beside CLASS and OP. -/
structure VOps where
  dst  : Nat
  s1   : Nat
  s2   : Nat
  s3   : Nat
  pred : Nat
  pneg : Bool
  mod  : Nat
deriving DecidableEq, Repr

structure VWord where
  cls : Nat
  op  : Nat
  f   : VOps
deriving DecidableEq, Repr

def VWord.parse (w : Nat) : VWord :=
  { cls := bits w 0 4, op := bits w 4 6
    f := { dst := bits w 10 5, s1 := bits w 15 7, s2 := bits w 22 7, s3 := bits w 29 7, pred := bits w 36 3
           pneg := bits w 39 1 == 1, mod := bits w 40 24 } }

/-- How many sources an operation takes (R142). -/
def vSources (cls op : Nat) : Nat :=
  if cls = 1 then (if op = 3 then 3 else if op ≤ 5 then 2 else 1)
  else if cls = 2 then (if op = 10 then 1 else 2)
  else if cls = 3 ∨ cls = 4 then 1
  else if cls = 5 then (if op ≤ 1 then 2 else 1)
  else if cls = 6 then (if op ≤ 1 then 2 else 0)
  else if cls = 7 then (if op = 1 then 1 else 0)
  else 0

/-- The classes and operations that exist (R142). -/
def vExists (cls op : Nat) : Bool :=
  (decide (cls = 0) && decide (op ≤ 4)) || (decide (cls = 1) && decide (op ≤ 10)) || (decide (cls = 2) && decide (op ≤ 10)) ||
  (decide (cls = 3) && decide (op ≤ 6)) || (decide (cls = 4) && (decide (op ≤ 6) || (decide (8 ≤ op) && decide (op ≤ 10)))) ||
  (decide (cls = 5) && decide (op ≤ 4)) || (decide (cls = 6) && decide (op ≤ 7)) || (decide (cls = 7) && decide (op ≤ 1))

/-- The immediate is accepted in FALU, IALU, SFU, FCMP and ICMP (R141). -/
def immOk (cls op : Nat) : Bool := (decide (1 ≤ cls) && decide (cls ≤ 3)) || (decide (cls = 6) && decide (op ≤ 1))

/-- A source code that the operation accepts. -/
def srcOk (cls op s : Nat) : Bool :=
  decide (s ≤ 0x20) || (decide (s = 0x21) && immOk cls op) || (decide (0x22 ≤ s) && decide (s ≤ 0x24)) ||
  (decide (0x40 ≤ s) && decide (s ≤ 0x7F))

/-- The instruction checks of R140 to R142 that depend on the word alone; `split` bounds SETVL. Of the predicate operations SRC3 is unused, so 0x20, and so is
SRC2 of PNOT, which passes also as a predicate's number (log entry 164). DESIGN CHOICE: a condition code that R142's table does not list (FCMP 5 to 15, ICMP 3 and 5 to 15)
is an invalid instruction (log entry 204). -/
def VWord.ok (w : VWord) (split : Bool) : Bool :=
  let f := w.f
  let n := vSources w.cls w.op
  let plogic := decide (w.cls = 6) && decide (2 ≤ w.op) && decide (w.op ≤ 5)
  let wantsPred := decide (w.cls = 6)
  vExists w.cls w.op &&
  (if plogic then decide (f.s1 ≤ 7) && (decide (f.s2 ≤ 7) || (decide (w.op = 5) && decide (f.s2 = 0x20))) && decide (f.s3 = 0x20)
   else (if 1 ≤ n then srcOk w.cls w.op f.s1 else decide (f.s1 = 0x20)) &&
        (if 2 ≤ n then srcOk w.cls w.op f.s2 else decide (f.s2 = 0x20)) &&
        (if 3 ≤ n then srcOk w.cls w.op f.s3 else decide (f.s3 = 0x20))) &&
  (!wantsPred || decide (f.dst ≤ 7)) &&
  (match w.cls, w.op with
   | 0, 2 => decide (1 ≤ bits f.mod 0 8) && decide (bits f.mod 0 8 ≤ (if split then 64 else 128))
   | 0, 3 => decide (1 ≤ bits f.mod 0 5) && decide (bits f.mod 0 5 ≤ 16)
   | 4, 5 | 4, 6 => !bitOf f.mod 2
   | 6, 0 => decide (bits f.mod 16 4 ≤ 4)
   | 6, 1 => decide (bits f.mod 16 4 ≤ 4) && decide (bits f.mod 16 4 ≠ 3)
   | 7, 1 => decide (f.dst = 0) && decide (bits f.mod 11 2 ≤ 2)
   | _, _ => true)

/-- The context in which an instruction issues: the running program, or none (then iteration 0, both halves, no recompute). -/
structure VCtx where
  core   : Nat
  cl     : Nat
  split  : Bool
  half   : Nat
  i      : Nat
  ctx    : Nat
  diag   : Bool
  recomp : Bool
deriving DecidableEq, Repr

def Blk.vctx (b : Blk) (core : Nat) : VCtx :=
  match slotGet b.vec.runs core with
  | some r => { core := core, cl := r.cl, split := r.split, half := r.half, i := r.i, ctx := r.ctx, diag := r.diag, recomp := r.recomp }
  | none => { core := core, cl := core / 5, split := false, half := 0, i := 0, ctx := 0, diag := false, recomp := false }

/-- Accumulator slice codes: array, bank, slice. -/
def accArr (s : Nat) : Nat := bits s 4 2
def accBank (s : Nat) : Nat := bits s 3 1
def accSlice (s : Nat) : Nat := bits s 0 3

/-- A source element (R141, R134). -/
def Blk.vsrc (b : Blk) (x : VCtx) (isInt : Bool) (mod s r l : Nat) : BitVec 32 :=
  if s < 0x20 then b.vec.tile x.core s r l
  else if s = 0x21 then
    (if isInt then BitVec.ofInt 32 (sint 16 mod) else BitVec.ofNat 32 (mod % 65536 * 65536))
  else if s = 0x22 then BitVec.ofNat 32 x.i
  else if s = 0x23 then BitVec.ofNat 32 l
  else if s = 0x24 then BitVec.ofNat 32 r
  else if 0x40 ≤ s then
    Sp.get 0 b.cores.acc (bankNo x.core (accArr s) (accBank s) * 2 ^ 14 + 128 * (16 * accSlice s + r) + (if x.split ∧ x.half = 1 then l + 64 else l))
  else 0

/-- The poison of a source's row (R131, R134): of a slice's row, that of the half or halves whose lanes the instruction reads (`rd`). -/
def Blk.vsrcPois (b : Blk) (x : VCtx) (s r : Nat) (rd : Nat → Bool) : Bool :=
  if s < 0x20 then b.vec.tilePois x.core s r
  else if 0x40 ≤ s then
    let hs := if x.split then [x.half] else [0, 1].filter (fun h => (List.range 64).any (fun l => rd (64 * h + l)))
    hs.any (fun h => Sp.get 0 b.cores.rowPois (bankNo x.core (accArr s) (accBank s) * 2 ^ 8 + 2 * (16 * accSlice s + r) + h) == 1)
  else false

/-- The row of a source holds elements of a row masked in the arrays (R124), in the halves that the instruction reads. -/
def Blk.vsrcMask (b : Blk) (x : VCtx) (s r : Nat) (rd : Nat → Bool) : Bool :=
  if s < 0x20 then b.vec.tileMask x.core s r
  else if 0x40 ≤ s then
    let hs := if x.split then [x.half] else [0, 1].filter (fun h => (List.range 64).any (fun l => rd (64 * h + l)))
    hs.any (fun h => Sp.get 0 b.cores.rowMask (bankNo x.core (accArr s) (accBank s) * 2 ^ 8 + 2 * (16 * accSlice s + r) + h) == 1)
  else false

/-- Active elements (R133). -/
def Blk.vactive (b : Blk) (x : VCtx) (f : VOps) (r l : Nat) : Bool :=
  decide (l < b.vec.pvl1 x.core) && decide (r < b.vec.prc1 x.core) && decide (r < 16) && decide (l < 128) &&
  (b.vec.pred x.core f.pred r l ^^ f.pneg)

/-- A bank or half bank in VECTOR state (R134). -/
def Blk.vbankOk (b : Blk) (x : VCtx) (a bk : Nat) : Bool :=
  (if x.split then [x.half] else [0, 1]).all (fun h => decide (b.cores.bankState (bankNo x.core a bk) h = 2))

/-- Raised flags with the first element (lowest row, then lowest lane) of each. -/
abbrev Raised := List (Nat × Nat × Nat)

/-- What one instruction does: the new state, the flags raised by element, poison read, a row written that is poisoned, a stop, the end of the iteration. -/
structure VOut where
  b    : Blk
  fl   : Raised := []
  pois : Bool := false
  wpois : Bool := false
  stop : Option VStat := none
  done : Bool := false

/-- The tile elements of 16 rows of 128 lanes in order. -/
def grid : List (Nat × Nat) := (List.range 2048).map (fun k => (k / 128, k % 128))

/-- A destination tile written: active elements from `f`, rows poisoned by `p`; a row's old poison stays while any of its old
elements stays. -/
def Blk.vwrite (b : Blk) (x : VCtx) (act : Nat → Nat → Bool) (t : Nat) (f : Nat → Nat → BitVec 32) (p : Nat → Bool) : Blk :=
  let tiles := spFill 0 b.vec.tiles (tileKey x.core t 0 0) 2048 (fun k =>
    if act (k / 128) (k % 128) then f (k / 128) (k % 128) else b.vec.tile x.core t (k / 128) (k % 128))
  let pois := spFill 0 b.vec.pois (tpKey x.core t 0) 16 (fun r =>
    let any := (List.range 128).any (act r)
    let all := (List.range 128).all (act r)
    b2n ((any && p r) || (b.vec.tilePois x.core t r && !all)))
  { b with vec := { b.vec with tiles := tiles, pois := pois } }

/-- Some row that `vwrite` writes to is poisoned after it (R157). -/
def Blk.vwrotePois (b : Blk) (x : VCtx) (act : Nat → Nat → Bool) (t : Nat) (p : Nat → Bool) : Bool :=
  (List.range 16).any (fun r => (List.range 128).any (act r) && (p r || (b.vec.tilePois x.core t r && !(List.range 128).all (act r))))

/-- A predicate written; P0 ignores it (R132). -/
def Blk.vwriteP (b : Blk) (x : VCtx) (act : Nat → Nat → Bool) (t : Nat) (f : Nat → Nat → Bool) : Blk :=
  if t = 0 then b
  else { b with vec := { b.vec with preds := spFill 0 b.vec.preds (predKey x.core t 0 0) 2048 (fun k =>
    b2n (if act (k / 128) (k % 128) then f (k / 128) (k % 128) else b.vec.pred x.core t (k / 128) (k % 128))) } }

/-! ### Arithmetic of one element (R142 to R144) -/

def fdec (w : BitVec 32) : FVal := Fmt.acc32.decode w.toNat
def fenc (x : FVal) : BitVec 32 := BitVec.ofNat 32 (Fmt.acc32.encode x)

/-- IEEE maximum and minimum: NaN propagates, -0 below +0. -/
def fmaxv (x y : FVal) : FVal :=
  match x, y with
  | .nan, _ | _, .nan => .nan
  | .inf n, z | z, .inf n => if n then z else .inf false
  | .fin a p, .fin c q =>
    let u := (FVal.fin a p).rat
    let v := (FVal.fin c q).rat
    if u < v then .fin c q else if v < u then .fin a p else if a then .fin c q else .fin a p

def fminv (x y : FVal) : FVal := (fmaxv x.negate y.negate).negate

def fmulv (x y : FVal) : FVal := f32 (fmulExact x y)

/-- Fused multiply-add: the exact product and sum rounded once. -/
def ffmav (x y z : FVal) : FVal :=
  match fmulExact x y with
  | .fin n m =>
    match z with
    | .fin a p =>
      let s := (FVal.fin n m).rat + (FVal.fin a p).rat
      if s = 0 then .fin (n && a) 0 else f32 (.ofRat s)
    | w => w
  | w => addRnd .acc32 .near w z

/-- FALU and IALU and SFU on one element: the word and its flags. -/
def valu (cls op : Nat) (a c d : BitVec 32) : BitVec 32 × Nat :=
  let x := fdec a
  let y := fdec c
  let z := fdec d
  match cls, op with
  | 1, 0 => let r := addRnd .acc32 .near x y; (fenc r, arithFlags [x, y] r)
  | 1, 1 => let r := addRnd .acc32 .near x y.negate; (fenc r, arithFlags [x, y] r)
  | 1, 2 => let r := fmulv x y; (fenc r, arithFlags [x, y] r)
  | 1, 3 => let r := ffmav x y z; (fenc r, arithFlags [x, y, z] r)
  | 1, 4 => (fenc (fmaxv x y), 0)
  | 1, 5 => (fenc (fminv x y), 0)
  | 1, 6 => (fenc (match x with | .fin _ m => .fin false m | .inf _ => .inf false | .nan => .nan), 0)
  | 1, 7 => (fenc x.negate, 0)
  | 1, 8 => (fenc x, 0)
  | 1, 9 =>
    match x with
    | .nan => (0, flInvalid)
    | .inf n => (BitVec.ofInt 32 (if n then -2147483648 else 2147483647), flSat)
    | .fin n m =>
      let i : Int := (Rnd.near.units m : Nat)
      let r := sat32 (if n then -i else i)
      (BitVec.ofInt 32 r.1, if r.2 then flSat else 0)
  | 1, 10 => (fenc (f32 (.ofRat a.toInt)), 0)
  | 2, 0 => (a + c, 0)
  | 2, 1 => (a - c, 0)
  | 2, 2 => (a * c, 0)
  | 2, 3 => (if a.toInt < c.toInt then c else a, 0)
  | 2, 4 => (if a.toInt < c.toInt then a else c, 0)
  | 2, 5 => (a &&& c, 0)
  | 2, 6 => (a ||| c, 0)
  | 2, 7 => (a ^^^ c, 0)
  | 2, 8 => (a <<< (c.toNat % 32), 0)
  | 2, 9 => (a.sshiftRight (c.toNat % 32), 0)
  | 2, _ => (a, 0)
  | 3, op => let r := sfu op a; (fenc r.1, r.2)
  | _, _ => (a, 0)

/-- The sources that read accumulators. -/
def VOps.accs (f : VOps) (n : Nat) : List Nat := ([f.s1, f.s2, f.s3].take n).filter (fun s => decide (0x40 ≤ s))

/-- The flags of every active element. -/
def raisedOf (es : List (Nat × Nat × Nat)) : Raised := es.filter (fun e => decide (e.2.2 ≠ 0))

/-- Element-wise classes FALU, IALU, SFU. -/
def Blk.vElem (b : Blk) (x : VCtx) (w : VWord) : VOut :=
  let isInt := decide (w.cls = 2) || (decide (w.cls = 1) && decide (w.op = 10))
  let act := b.vactive x w.f
  let n := vSources w.cls w.op
  let val (r l : Nat) : BitVec 32 × Nat := valu w.cls w.op (b.vsrc x isInt w.f.mod w.f.s1 r l)
    (if 2 ≤ n then b.vsrc x isInt w.f.mod w.f.s2 r l else 0) (if 3 ≤ n then b.vsrc x isInt w.f.mod w.f.s3 r l else 0)
  let pois (r : Nat) : Bool := ([w.f.s1, w.f.s2, w.f.s3].take n).any (fun s => b.vsrcPois x s r (act r))
  { b := b.vwrite x act w.f.dst (fun r l => (val r l).1) pois
    fl := raisedOf ((grid.filter (fun e => act e.1 e.2)).map (fun e => (e.1, e.2, (val e.1 e.2).2)))
    pois := (List.range 16).any (fun r => (List.range 128).any (act r) && pois r)
    wpois := b.vwrotePois x act w.f.dst pois }

/-! ### Reductions (R151 to R154) -/

/-- One level of the pairwise tree: nodes 2k and 2k + 1; an absent child passes the other on. -/
def treeLevel {α : Type} (f : α → α → α) : List (Option α) → List (Option α)
  | x :: y :: r => (match x, y with
      | some u, some v => some (f u v)
      | some u, none => some u
      | none, v => v) :: treeLevel f r
  | [x] => [x]
  | [] => []

def treeReduce {α : Type} (f : α → α → α) : Nat → List (Option α) → Option α
  | 0, xs => xs.headD none
  | n + 1, xs => treeReduce f n (treeLevel f xs)

/-- Combination of two words by a reduction, with flags carried beside. -/
def redComb (op : Nat) (p q : BitVec 32 × Nat) : BitVec 32 × Nat :=
  let x := fdec p.1
  let y := fdec q.1
  let fl := p.2 ||| q.2
  match op with
  | 0 | 1 => let r := addRnd .acc32 .near x y; (fenc r, fl ||| arithFlags [x, y] r)
  | 2 => let r := fmulv x y; (fenc r, fl ||| arithFlags [x, y] r)
  | 3 => (fenc (fmaxv x y), fl)
  | 4 => (fenc (fminv x y), fl)
  | 8 => (p.1 + q.1, fl)
  | 9 => (if p.1.toInt < q.1.toInt then q.1 else p.1, fl)
  | _ => (if q.1.toInt < p.1.toInt then q.1 else p.1, fl)

/-- The identity of an operation (R153). -/
def redId (op : Nat) : BitVec 32 :=
  match op with
  | 0 | 1 | 8 => 0
  | 2 => fenc (.fin false 1)
  | 3 => fenc (.inf true)
  | 4 => fenc (.inf false)
  | 5 | 6 => 0xFFFF
  | 9 => BitVec.ofInt 32 (-2147483648)
  | _ => BitVec.ofInt 32 2147483647

/-- Whether a candidate takes over as the extreme: a NaN ranks above every number for ARGMAX, below every number for ARGMIN; a tie
stays with the lower position. -0 ranks below +0, as for MAX and MIN (log entry 159). -/
def argTakes (op : Nat) (best cand : FVal) : Bool :=
  match best, cand with
  | .nan, _ => false
  | _, .nan => true
  | u, v => if op = 5 then decide (fmaxv u v ≠ u) else decide (fminv u v ≠ u)

/-- A reduction of present values with their positions; a NaN that a float reduction passes on unchanged is written canonical (R143). -/
def redValue (op : Nat) (xs : List (Option (BitVec 32))) : Option (BitVec 32 × Nat) :=
  if op = 5 ∨ op = 6 then
    (xs.zipIdx.foldl (fun (best : Option (FVal × Nat)) e =>
      match e.1, best with
      | none, b => b
      | some w, none => some (fdec w, e.2)
      | some w, some u => if argTakes op u.1 (fdec w) then some (fdec w, e.2) else some u) none).map (fun u => (BitVec.ofNat 32 u.2, 0))
  else
    treeReduce (redComb op) 7 (xs.map (fun o => o.map (fun w =>
      if op = 1 then let r := fmulv (fdec w) (fdec w); (fenc r, arithFlags [fdec w] r) else if op ≤ 4 then (fenc (fdec w), 0) else (w, 0))))

/-- RED (R151): AXIS, BCAST, ACCUM in MOD. An empty reduction writes its identity at the result position of the present shape, and with ACCUM leaves the
destination alone (R153). With ACCUM the destination
row is read, and its poison with it (R157). -/
def Blk.vRed (b : Blk) (x : VCtx) (w : VWord) : VOut :=
  let f := w.f
  let act := b.vactive x f
  let axis1 := bitOf f.mod 0
  let bcast := bitOf f.mod 1
  let accum := bitOf f.mod 2
  let src (r l : Nat) : BitVec 32 := b.vsrc x (decide (8 ≤ w.op)) f.mod f.s1 r l
  let lines := if axis1 then b.vec.pvl1 x.core else b.vec.prc1 x.core
  let elems (k : Nat) : List (Option (BitVec 32)) :=
    if axis1 then (List.range 16).map (fun r => if act r k then some (src r k) else none)
    else (List.range 128).map (fun l => if act k l then some (src k l) else none)
  let old (k : Nat) : BitVec 32 := if axis1 then b.vec.tile x.core f.dst 0 k else b.vec.tile x.core f.dst k 0
  let res := (List.range lines).map (fun k =>
    match redValue w.op (elems k) with
    | none => (if accum then old k else redId w.op, flEmpty, true)
    | some v => let y := if accum then redComb w.op (old k, v.2) (v.1, 0) else v; (y.1, y.2, false))
  let val (k : Nat) : BitVec 32 × Nat × Bool := res.getD k (0, 0, false)
  let wr (r l : Nat) : Bool :=
    let k := if axis1 then l else r
    let pos := if axis1 then r else l
    let e := (val k).2.2
    decide (k < lines) && (if e then !accum && decide (pos = 0) else (decide (pos = 0) || bcast) && act r l)
  let srcP (r : Nat) : Bool := b.vsrcPois x f.s1 r (act r) && (List.range 128).any (act r)
  let oldP (k : Nat) : Bool := accum && decide (k < lines) && !(val k).2.2 && b.vec.tilePois x.core f.dst (if axis1 then 0 else k)
  let anyOld := (List.range lines).any oldP
  let anyP := (List.range 16).any srcP
  let pois (r : Nat) : Bool := if axis1 then anyP || anyOld else srcP r || oldP r
  { b := b.vwrite x wr f.dst (fun r l => (val (if axis1 then l else r)).1) pois
    fl := raisedOf (res.zipIdx.map (fun e => (if axis1 then 0 else e.2, if axis1 then e.2 else 0, e.1.2.1)))
    pois := anyP || anyOld
    wpois := b.vwrotePois x wr f.dst pois }

/-! ### Permutations (R155, R156) -/

/-- The source position of a permuted element, or none when it is out of range. -/
def Blk.vPermPos (b : Blk) (x : VCtx) (w : VWord) (r l : Nat) : Option (Nat × Nat) :=
  let pvl := b.vec.pvl1 x.core
  let prc := b.vec.prc1 x.core
  let idx := (b.vsrc x true w.f.mod w.f.s2 r l).toNat
  match w.op with
  | 0 => if idx < pvl then some (r, idx) else none
  | 1 => if idx < prc then some (idx, l) else none
  | 2 => let k := bits w.f.mod 0 7; if k < pvl then some (r, k) else none
  | 3 => let k := bits w.f.mod 0 4; if k < prc then some (k, l) else none
  | _ => some (r, (l + bits w.f.mod 0 7) % pvl)

def Blk.vPerm (b : Blk) (x : VCtx) (w : VWord) : VOut :=
  let act := b.vactive x w.f
  let val (r l : Nat) : BitVec 32 := match b.vPermPos x w r l with
    | some p => b.vsrc x false 0 w.f.s1 p.1 p.2
    | none => 0
  let idxP (r : Nat) : Bool := decide (w.op ≤ 1) && (List.range 128).any (act r) && b.vsrcPois x w.f.s2 r (act r)
  let pois (r : Nat) : Bool := idxP r || (List.range 128).any (fun l => act r l && (match b.vPermPos x w r l with
    | some p => b.vsrcPois x w.f.s1 p.1 (fun k => k == p.2)
    | none => false))
  { b := b.vwrite x act w.f.dst val pois
    fl := raisedOf ((grid.filter (fun e => act e.1 e.2)).map (fun e =>
      (e.1, e.2, if (b.vPermPos x w e.1 e.2).isNone then flOor else 0)))
    pois := (List.range 16).any pois
    wpois := b.vwrotePois x act w.f.dst pois }

/-! ### Context records (R145, R146) -/

structure VRec where
  cbBase : Nat
  fmt    : Nat
  cbIter : Nat
  cbRow  : Nat
  scBase : Nat
  scIter : Nat
  scRow  : Nat
  tag    : Nat
  inst   : Nat
  tscale : Nat
  lBase  : Nat
  lIter  : Nat
  lRow   : Nat
deriving DecidableEq, Repr

def Blk.vrec (b : Blk) (x : VCtx) (n : Nat) : VRec :=
  let a := 256 * x.ctx + 64 * n
  let u (w lo k : Nat) : Nat := bits (leNat ((List.range 64).map (fun i => b.cores.cbByte x.core (a + i)))) (32 * w + lo) k
  { cbBase := u 0 0 22, fmt := u 0 22 4, cbIter := u 1 0 22, cbRow := u 2 0 22, scBase := u 3 0 22, scIter := u 4 0 22
    scRow := u 5 0 22, tag := u 6 0 16, inst := u 6 16 8, tscale := u 7 0 16, lBase := u 8 0 48, lIter := u 10 0 48, lRow := u 12 0 48 }

/-- Bytes of `n` elements of a container width; 4-bit elements stand two in a byte. -/
def eoff (f : Fmt) (n : Nat) : Nat :=
  match f.bits with | 4 => n / 2 | 6 => n | 8 => n | 16 => 2 * n | _ => 4 * n

def ebytes (f : Fmt) : Nat := match f.bits with | 16 => 2 | 32 => 4 | _ => 1

def VRec.addr (c : VRec) (i r n : Nat) (f : Fmt) : Nat := c.cbBase + i * c.cbIter + r * c.cbRow + eoff f n
def VRec.logical (c : VRec) (i r n : Nat) : Nat := c.lBase + i * c.lIter + r * c.lRow + n
def VRec.scale (c : VRec) (i r n blk : Nat) : Nat := c.scBase + i * c.scIter + r * c.scRow + n / blk

/-- Formats with a block scale, and their run. -/
def vScaled : Fmt → Nat
  | .e5m2 | .e4m3 | .e3m2 | .e2m3 => 32
  | .e2m1 => 16
  | _ => 0

/-- The draws of a recomputed instruction count as requests (R183, log entry 37). -/
def Blk.vRecomp (b : Blk) (x : VCtx) (n : Nat) : Blk := if x.recomp then b.bump ⟨.SEQ_RNG_RECOMP, x.cl, 0⟩ n else b

def Blk.vdraw (b : Blk) (x : VCtx) (c : VRec) (purpose : Nat) : Draw :=
  { key := b.rn ⟨.SEQ_RNG_KEY, x.cl, 0⟩, s := b.rn ⟨.SEQ_RNG_STEP, x.cl, 0⟩, tag := c.tag, purpose := purpose, inst := c.inst }

/-! ### Predicates (R142, R148) -/

def fcmp (cond : Nat) (x y : FVal) : Bool :=
  let un := x == .nan || y == .nan
  let eq := !un && (x == y || (x.zero? && y.zero?))
  let lt := !un && !eq && fmaxv x y == y
  match cond with
  | 0 => eq
  | 1 => lt
  | 2 => lt || eq
  | 3 => un
  | _ => !eq

def icmp (cond : Nat) (a c : BitVec 32) : Bool :=
  match cond with
  | 0 => a == c
  | 1 => decide (a.toInt < c.toInt)
  | 2 => decide (a.toInt ≤ c.toInt)
  | _ => a != c

def Blk.vPred (b : Blk) (x : VCtx) (w : VWord) : VOut :=
  let f := w.f
  let act := b.vactive x f
  let p1 (r l : Nat) : Bool := b.vec.pred x.core (f.s1 % 8) r l
  let p2 (r l : Nat) : Bool := b.vec.pred x.core (f.s2 % 8) r l
  let cond := bits f.mod 16 4
  let rec_ := b.vrec x (bits f.mod 12 3)
  let val (r l : Nat) : Bool :=
    match w.op with
    | 0 => fcmp cond (fdec (b.vsrc x false f.mod f.s1 r l)) (fdec (b.vsrc x false f.mod f.s2 r l))
    | 1 => icmp cond (b.vsrc x true f.mod f.s1 r l) (b.vsrc x true f.mod f.s2 r l)
    | 2 => p1 r l && p2 r l
    | 3 => p1 r l || p2 r l
    | 4 => p1 r l ^^ p2 r l
    | 5 => !p1 r l
    | 6 => decide (l + bits f.mod 0 8 ≤ r + 16 * x.i + bits f.mod 8 8)
    | _ => decide (bits f.mod 0 12 ≤ (b.vdraw x rec_ 5).field (rec_.logical x.i r (128 * bits f.mod 15 8 + l)))
  let b1 := if w.op = 7 then b.vRecomp x (grid.filter (fun e => act e.1 e.2)).length else b
  { b := b1.vwriteP x act (f.dst % 8) val
    pois := decide (w.op ≤ 1) && (List.range 16).any (fun r => (List.range 128).any (act r) && (b.vsrcPois x f.s1 r (act r) || b.vsrcPois x f.s2 r (act r))) }

/-! ### Loads and stores (R147, R149, R150) -/

/-- VLD: the word an element loads and whether it overflowed. -/
def vload (f : Fmt) (code : Nat) (scale tscale : FVal) : BitVec 32 × Nat :=
  if f.isInt then (BitVec.ofInt 32 (f.decode code).rat.num, 0)
  else
    let v := scaled (f.decode code) scale tscale
    let r := f32 v
    (fenc r, match v, r with | .fin _ _, .inf _ => flOverflow | _, _ => 0)

def Blk.vLd (b : Blk) (x : VCtx) (w : VWord) : VOut :=
  let c := b.vrec x (bits w.f.mod 0 3)
  let lb := bits w.f.mod 3 8
  let act := b.vactive x w.f
  match (Fmt.ofCode c.fmt).filter (fun f => f != .ext16 && f != .acc32) with
  | none => { b := b, stop := some .format }
  | some f =>
    let live := grid.filter (fun e => act e.1 e.2)
    let blk := vScaled f
    let ad (r l : Nat) : Nat := c.addr x.i r (128 * lb + l) f
    if live.any (fun e => decide (coreBuf < ad e.1 e.2 + ebytes f) ||
        (decide (blk ≠ 0) && decide (coreBuf ≤ c.scale x.i e.1 (128 * lb + e.2) blk))) then { b := b, stop := some .badInstr }
    else
      let code (r l : Nat) : Nat :=
        if f.bits = 4 then (b.cores.cbByte x.core (ad r l)).toNat / 16 ^ ((128 * lb + l) % 2) % 16 else b.cores.elem x.core f (ad r l) 0
      let sc (r l : Nat) : FVal := if blk = 0 then .fin false 1 else
        (if f = .e2m1 then Fmt.ue4m3 else Fmt.e8m0).decode (b.cores.cbByte x.core (c.scale x.i r (128 * lb + l) blk)).toNat
      let ts : FVal := if f = .e2m1 then Fmt.bf16.decode c.tscale else .fin false 1
      let val (r l : Nat) : BitVec 32 × Nat := vload f (code r l) (sc r l) ts
      let pois (r : Nat) : Bool := (List.range 128).any (fun l => act r l && (b.cores.linePois x.core (ad r l / 256) ||
        b.cores.linePois x.core ((ad r l + ebytes f - 1) / 256) || (decide (blk ≠ 0) && b.cores.linePois x.core (c.scale x.i r (128 * lb + l) blk / 256))))
      { b := b.vwrite x act w.f.dst (fun r l => (val r l).1) pois
        fl := raisedOf (live.map (fun e => (e.1, e.2, (val e.1 e.2).2)))
        pois := (List.range 16).any pois
        wpois := b.vwrotePois x act w.f.dst pois }

/-- Rounding of a VST by its mode: stochastic, Miomel or Benium. -/
def vstRnd (mode field : Nat) : Rnd := match mode with | 0 => .stoch field | 1 => .near | _ => .zero

/-- A Benium-rounded BF16: results below 2^-126 as +0 (R120). -/
def beniumBf16 (x : FVal) : Nat × CFlags :=
  match Fmt.bf16.roundVal .zero x with
  | .fin n m => (Fmt.bf16.encode (if m < pow2 (-126) then .fin false 0 else .fin n m), {})
  | y => (Fmt.bf16.encode y, ⟨false, true⟩)

/-- One stored element: its code and the flags it raises; a float written as a non-finite one raises NONFINITE, whatever its source (R157). A raw
accumulator word counts as the binary32 it spells (DESIGN CHOICE, log entry 202). -/
def vstOne (f : Fmt) (mode field : Nat) (raw : BitVec 32) : Nat × CFlags :=
  if f = .acc32 then (raw.toNat, ⟨false, !(fdec raw).finite⟩)
  else if mode = 2 then beniumBf16 (fdec raw)
  else
    let y := f.conv (vstRnd mode field) (fdec raw)
    (y.1, ⟨y.2.sat, y.2.nonfinite || (!f.isInt && !(f.decode y.1).finite)⟩)

/-- A stored piece: byte address, code, container format, row, lane, flags, and whether it is an element that takes part in the
underflow counts (written, flushed); `nan` that its block scale is NaN. -/
structure VPiece where
  addr  : Nat
  n     : Nat
  code  : Nat
  row   : Nat
  lane  : Nat
  fl    : CFlags
  live  : Bool
  flush : Bool
  nan   : Bool := false
deriving DecidableEq, Repr

/-- The bytes of a core buffer with a piece stored. -/
def storePiece (m : Mem) (core : Nat) (f : Fmt) (p : VPiece) : Mem :=
  let a := core * coreBuf + p.addr
  if f.bits = 4 then
    let o := (m.byte a).toNat
    m.write a (leBytes 1 (if p.n % 2 = 0 then o / 16 * 16 + p.code else o % 16 + 16 * p.code))
  else m.writeNat a (ebytes f) p.code

/-- A line's summary after a VST of pieces and scales on it (R150). -/
def lineAfter (old : Nat) (allZero nonfin pois : Bool) : Nat :=
  setBit (setBit (setBit old 1 (bitOf old 1 || !allZero)) 2 (bitOf old 2 || nonfin)) 0 (bitOf old 0 || pois)

/-- The elements of an unscaled store. -/
def Blk.vstPlain (b : Blk) (x : VCtx) (w : VWord) (c : VRec) (f : Fmt) (mode lb : Nat) : List VPiece :=
  let d := b.vdraw x c 1
  (grid.filter (fun e => b.vactive x w.f e.1 e.2)).map (fun e =>
    let n := 128 * lb + e.2
    let raw := b.vsrc x false 0 w.f.s1 e.1 e.2
    let y := vstOne f mode (d.field (c.logical x.i e.1 n)) raw
    { addr := c.addr x.i e.1 n f, n := n, code := y.1, row := e.1, lane := e.2, fl := y.2, live := !f.isInt && f != .acc32
      flush := (fdec raw).finite && !(fdec raw).zero? && (f.decode y.1).zero? })

/-- The elements and scale bytes (address, row, byte) of a scaled store: each run of 32 with an active element is written whole. The flags of a run stand at
each of its active lanes, so that a record names the lowest (log entry 160). In a run whose scale is NaN nothing counts as flushed (R124). DESIGN
CHOICE: the inactive elements of a run, which are written as +0, count as neither written nor flushed (log entry 206). -/
def Blk.vstScaled (b : Blk) (x : VCtx) (w : VWord) (c : VRec) (f : Fmt) (lb : Nat) : List VPiece × List (Nat × Nat × Nat) :=
  let d := b.vdraw x c 1
  let runs := (List.range 64).map (fun k => (k / 4, k % 4))
  runs.foldl (fun (acc : List VPiece × List (Nat × Nat × Nat)) rj =>
    let r := rj.1
    let ls := (List.range 32).map (fun q => 32 * rj.2 + q)
    if ls.any (b.vactive x w.f r) = false then acc
    else
      let src (l : Nat) : FVal := if b.vactive x w.f r l then fdec (b.vsrc x false 0 w.f.s1 r l) else .fin false 0
      let y := castMx f (ls.map src) (fun q => .stoch (d.field (c.logical x.i r (128 * lb + 32 * rj.2 + q))))
      let ps := (ls.zip y.2.1).map (fun p =>
        let a := b.vactive x w.f r p.1
        { addr := c.addr x.i r (128 * lb + p.1) f, n := 128 * lb + p.1, code := p.2, row := r, lane := p.1
          fl := if a then y.2.2.1 else {}, live := a, flush := a && decide (y.1 ≠ 255) && (src p.1).finite && !(src p.1).zero? && (f.decode p.2).zero?
          nan := decide (y.1 = 255) : VPiece })
      (acc.1 ++ ps, acc.2 ++ [(c.scale x.i r (128 * lb + 32 * rj.2) 32, r, y.1)])) ([], [])

/-- VST (R149, R150). Elements of rows masked in the arrays are left out of the underflow counts (R124). -/
def Blk.vSt (b : Blk) (x : VCtx) (w : VWord) : VOut :=
  let c := b.vrec x (bits w.f.mod 0 3)
  let lb := bits w.f.mod 3 8
  let mode := bits w.f.mod 11 2
  let okFmt (f : Fmt) : Bool := [Fmt.bf16, .fp16, .e5m2, .e4m3, .e3m2, .e2m3, .int8, .int4, .uint8, .int16].contains f || (f == .acc32 && x.diag)
  match (Fmt.ofCode c.fmt).filter okFmt with
  | none => { b := b, stop := some .format }
  | some f =>
    if mode ≠ 0 ∧ f ≠ .bf16 then { b := b, stop := some .format }
    else
      let sc := vScaled f ≠ 0
      let ps : List VPiece := if sc then (b.vstScaled x w c f lb).1 else b.vstPlain x w c f mode lb
      let ss : List (Nat × Nat × Nat) := if sc then (b.vstScaled x w c f lb).2 else []
      if ps.any (fun p => decide (coreBuf < p.addr + ebytes f)) || ss.any (fun s => decide (coreBuf ≤ s.1)) then
        { b := b, stop := some .badInstr }
      else
        let cb1 := ps.foldl (fun m p => storePiece m x.core f p) b.cores.cb
        let cb2 := ss.foldl (fun m s => Mem.writeNat m (x.core * coreBuf + s.1) 1 s.2.2) cb1
        let on (p : VPiece) (ln : Nat) : Bool := p.addr / 256 == ln || (p.addr + ebytes f - 1) / 256 == ln
        let lns : List Nat := ((ps.map (fun (p : VPiece) => [p.addr / 256, (p.addr + ebytes f - 1) / 256])).flatten ++
          (ss.map (fun (s : Nat × Nat × Nat) => s.1 / 256))).eraseDups
        let rowP (r : Nat) : Bool := b.vsrcPois x w.f.s1 r (b.vactive x w.f r)
        let lines := lns.foldl (fun m ln =>
          let here := ps.filter (fun p => on p ln)
          let scs := ss.filter (fun s => s.1 / 256 == ln)
          Sp.set 0 m (x.core * 2 ^ 14 + ln) (lineAfter (Sp.get 0 m (x.core * 2 ^ 14 + ln))
            (here.all (fun p => (f.decode p.code).zero?))
            (here.any (fun p => p.nan || (!f.isInt && !(f.decode p.code).finite)) ||
              scs.any (fun s => decide (s.2.2 = 255)))
            (here.any (fun p => rowP p.row) || scs.any (fun s => rowP s.2.1)))) b.cores.lines
        let b1 := { b with cores := { b.cores with cb := cb2, lines := lines } }
        let counted := ps.filter (fun p => p.live && !b.vsrcMask x w.f.s1 p.row (fun k => k == p.lane))
        let b2 := (b1.bump ⟨.FIN_UF_WRITTEN, x.cl, 0⟩ counted.length).bump ⟨.FIN_UF_FLUSHED, x.cl, 0⟩ (counted.filter (fun p => p.flush)).length
        let b3 := if mode = 0 ∧ f ≠ .acc32 ∧ f ≠ .uint8 ∧ f ≠ .int16 then b2.vRecomp x (grid.filter (fun e => b.vactive x w.f e.1 e.2)).length else b2
        let b4 := match slotGet b3.vec.runs x.core with
          | some r => { b3 with vec := { b3.vec with runs := slotPut b3.vec.runs x.core { r with stored := (r.stored ++ lns).eraseDups } } }
          | none => b3
        { b := b4
          fl := raisedOf (ps.map (fun p => (p.row, p.lane, flNonfinite * b2n p.fl.nonfinite + flSat * b2n p.fl.sat)))
          pois := (List.range 16).any (fun r => ps.any (fun p => p.row == r) && rowP r) }

/-! ### Issue of one instruction (R137, R142) -/

/-- CTRL: NOP, END, SETVL, SETRC, ACCREL (R133, R135). -/
def Blk.vCtrl (b : Blk) (x : VCtx) (w : VWord) : VOut :=
  match w.op with
  | 1 => { b := b, done := true }
  | 2 => { b := { b with vec := { b.vec with pvl := Sp.set 0 b.vec.pvl x.core (bits w.f.mod 0 8 - 1) } } }
  | 3 => { b := { b with vec := { b.vec with prc := Sp.set 0 b.vec.prc x.core (bits w.f.mod 0 5 - 1) } } }
  | 4 =>
    let a := bits w.f.mod 0 2
    let bk := bits w.f.mod 2 1
    if b.vbankOk x a bk then
      { b := { b with cores := b.cores.setBank (bankNo x.core a bk) (if x.split then [x.half] else [0, 1]) 0 } }
    else { b := b, stop := some .bank }
  | _ => { b := b }

/-- An instruction that waits at issue: an accumulator source whose bank is not in VECTOR state. -/
def Blk.vWaits (b : Blk) (x : VCtx) (w : VWord) : Bool :=
  (w.f.accs (vSources w.cls w.op)).any (fun s => !b.vbankOk x (accArr s) (accBank s))

/-- The marks of masked rows follow the rows that an instruction writes into a tile (R124, log entry 203): an element-wise one marks a row with a marked source row, a
permutation one whose elements all come from marked rows, any other none. -/
def Blk.vMarks (b : Blk) (x : VCtx) (w : VWord) (o : VOut) : VOut :=
  if o.stop.isSome || decide (w.cls = 0) || decide (w.cls = 6) || (decide (w.cls = 7) && decide (w.op ≠ 0)) then o
  else
    let act := b.vactive x w.f
    let bit (r : Nat) : Bool :=
      if w.cls = 5 then (List.range 128).all (fun l => !act r l || (match b.vPermPos x w r l with | some p => b.vsrcMask x w.f.s1 p.1 (fun k => k == p.2) | none => false))
      else decide (w.cls ≤ 3) && ([w.f.s1, w.f.s2, w.f.s3].take (vSources w.cls w.op)).any (fun s => b.vsrcMask x s r (act r))
    { o with b := { o.b with vec := { o.b.vec with mrow := spFill 0 o.b.vec.mrow (tpKey x.core w.f.dst 0) 16 (fun r =>
        b2n (((List.range 128).any (act r) && bit r) || (b.vec.tileMask x.core w.f.dst r && !(List.range 128).all (act r)))) } } }

/-- What one instruction word does by its class. -/
def Blk.vAct (b : Blk) (x : VCtx) (w : VWord) : VOut :=
  match w.cls with
  | 0 => b.vCtrl x w
  | 1 | 2 | 3 => b.vElem x w
  | 4 => b.vRed x w
  | 5 => b.vPerm x w
  | 6 => b.vPred x w
  | _ => if w.op = 0 then b.vLd x w else b.vSt x w

/-- The effect of one instruction word whose checks passed and whose sources are ready. -/
def Blk.vDo (b : Blk) (x : VCtx) (w : VWord) : VOut := b.vMarks x w (b.vAct x w)

/-- The run of a core replaced. -/
def Blk.setRun (b : Blk) (core : Nat) (r : Vrun) : Blk := { b with vec := { b.vec with runs := slotPut b.vec.runs core r } }

/-- SEQ_VEC_STATE shows activity, waits, the present shape and the position (R165). -/
def Blk.vShow (b : Blk) (core : Nat) : Blk :=
  let st : RegRef := ⟨.SEQ_VEC_STATE, core, 0⟩
  let b1 := (b.wf st Fld.SEQ_VEC_STATE_PVL_M1 (b.vec.pvl1 core - 1)).wf st Fld.SEQ_VEC_STATE_PRC_M1 (b.vec.prc1 core - 1)
  match slotGet b.vec.runs core with
  | some r => ((b1.wf st Fld.SEQ_VEC_STATE_BUSY (b2n r.result.isNone)).wf st Fld.SEQ_VEC_STATE_WAIT_BANK (b2n r.waiting)).wf st
      Fld.SEQ_VEC_STATE_PC r.pc
  | none => b1.wf st Fld.SEQ_VEC_STATE_BUSY 0

/-- The descriptor of a core completes with a status: result word and flags (R157). -/
def Blk.vFinish (b : Blk) (core : Nat) (st : VStat) : Blk :=
  match slotGet b.vec.runs core with
  | some r =>
    if r.result.isSome then b
    else
      let st' := if st = .ok ∧ r.poison = true then VStat.poisonIn else st
      (b.setRun core { r with result := some (st'.code + 256 * r.flags), waiting := false }).vShow core
  | none => b

/-- The trap or fault record (R158, R159, R165). -/
def Blk.vRecord (b : Blk) (core kind flag row lane : Nat) : Blk :=
  let r := (slotGet b.vec.runs core)
  let g (f : Vrun → Nat) : Nat := (r.map f).getD 0
  (b.wn ⟨.SEQ_VEC_FAULT, core, 0⟩ (kind + 16 * flag + 2 ^ 8 * (g (·.pc)) + 2 ^ 18 * (g (·.i)) + 2 ^ 34 * row + 2 ^ 38 * lane +
    2 ^ 64 * (g (·.tag)) + 2 ^ 80 * ((b.shankNow (clDie (core / 5))).toNat % 2 ^ 40))).tick

/-- The record that a trap is about to replace, kept with the program for a discard that takes precedence over the trap (R161). -/
def Blk.vKeep (b : Blk) (core : Nat) : Blk :=
  match slotGet b.vec.runs core with
  | some r => b.setRun core { r with before := b.rn ⟨.SEQ_VEC_FAULT, core, 0⟩ }
  | none => b

/-- Flags enabled for trapping on a core. -/
def Blk.vTrapEn (b : Blk) (core : Nat) : Nat :=
  (b.rn ⟨.SEQ_VEC_TRAP_EN, core, 0⟩ ||| ((slotGet b.vec.runs core).map (·.trapEn)).getD 0) &&& 0xFB

/-- The flags of a raised list. -/
def Raised.all (fl : Raised) : Nat := fl.foldl (fun a e => a ||| e.2.2) 0

/-- The lowest enabled flag bit of an element: the one that the record names where an element raises several (log entry 161). -/
def lowBit (m : Nat) : Nat := ((List.range 8).find? (fun i => bitOf m i)).getD 0

/-- The position after an instruction: the next word, or the next iteration after END or the last word, or the end (R137). At the
start of an iteration PVL and PRC come from the descriptor. -/
def Blk.vAdvance (b : Blk) (core : Nat) (ended : Bool) : Blk :=
  match slotGet b.vec.runs core with
  | some r =>
    if !ended ∧ r.pc + 1 < r.len then b.setRun core { r with pc := r.pc + 1 }
    else if r.i + 1 < r.iters then
      { b.setRun core { r with pc := 0, i := r.i + 1 } with
        vec := { (b.setRun core { r with pc := 0, i := r.i + 1 }).vec with
          pvl := Sp.set 0 b.vec.pvl core r.pvl0, prc := Sp.set 0 b.vec.prc core r.prc0 } }
    else b.vFinish core .ok
  | none => b

/-- The flags that an issued instruction raises, on its core and its descriptor (R157), and the issue counted. -/
def Blk.vRaise (o : VOut) (core : Nat) : Blk :=
  let fl := Raised.all o.fl ||| (if o.pois || o.wpois then flPoison else 0)
  let b1 := o.b.bump ⟨.SEQ_VEC_INSTR_CNT, core, 0⟩
  let b2 := b1.wn ⟨.SEQ_VEC_FLAGS, core, 0⟩ (b1.rn ⟨.SEQ_VEC_FLAGS, core, 0⟩ ||| fl)
  match slotGet b2.vec.runs core with
  | some r => b2.setRun core { r with flags := r.flags ||| fl, poison := r.poison || o.pois, waiting := false }
  | none => b2

/-- One instruction issues on a core (R137, R142, R157, R158): its checks, a bank wait, its effect, its flags, a trap, and the
program's advance. -/
def Blk.vIssue (b : Blk) (core : Nat) (w : VWord) : Blk :=
  let x := b.vctx core
  if b.rf ⟨.SEQ_VEC_STATE, core, 0⟩ Fld.SEQ_VEC_STATE_FENCED = 1 then b
  else if !w.ok x.split then b.vFinish core .badInstr
  else if b.vWaits x w then
    (match slotGet b.vec.runs core with | some r => b.setRun core { r with waiting := true } | none => b).vShow core
  else
    let o := b.vDo x w
    let b3 := Blk.vRaise o core
    match o.stop with
    | some st => b3.vFinish core st
    | none =>
      let en := b3.vTrapEn core
      match o.fl.find? (fun e => decide (e.2.2 &&& en ≠ 0)) with
      | some e =>
        if (slotGet b3.vec.runs core).isSome then
          (((b3.vKeep core).vRecord core 1 (lowBit (e.2.2 &&& en)) e.1 e.2.1).wf ⟨.SEQ_VEC_STATE, core, 0⟩ Fld.SEQ_VEC_STATE_TRAPPED 1).vFinish core .trap
        else b3.vShow core
      | none => (b3.vAdvance core o.done).vShow core

/-! ### Descriptors (R138, R139) -/

/-- A vector descriptor is the first 32 bytes of its entry. -/
def vecFields : List (Nat × Nat × Nat) := [(0, 0, 29), (1, 0, 24), (2, 0, 30), (3, 0, 24)]

/-- The checks of R139 in their order; check 1 is of every descriptor, a NOP among them. -/
def vecCheck (raw : BitVec 512) (part : Nat) (cobbler : Bool) : VStat :=
  let f (w lo n : Nat) : Nat := dsc raw w lo n
  let op := f 0 0 4
  let reserved := !reservedZero raw vecFields || decide (op ≠ 0 ∧ op ≠ 3)
  let progEnd := f 1 0 14 + f 1 14 10 / 32
  if reserved || ((decide (f 2 0 16 = 0) || (decide (f 0 5 1 = 1) && decide (f 0 4 1 = 0)) ||
      (decide (f 0 4 1 = 1) && decide (63 < f 0 6 7)) || decide (16383 < progEnd) || decide (16383 < f 2 16 14 + 1) ||
      bitOf (f 0 20 8) 2 || (decide (f 0 28 1 = 1) && !cobbler))) then .badDesc
  else if f 0 17 3 ≠ part then .partition
  else .ok

/-- A checked RUN descriptor takes the core (R137): PVL and PRC from the descriptor, iteration 0, first word. -/
def Blk.vStart (b : Blk) (core cl : Nat) (raw : BitVec 512) (recomp : Bool) : Blk :=
  let f (w lo n : Nat) : Nat := dsc raw w lo n
  let r : Vrun := {
    cl := cl, split := f 0 4 1 == 1, half := f 0 5 1, pvl0 := f 0 6 7, prc0 := f 0 13 4, trapEn := f 0 20 8, diag := f 0 28 1 == 1
    base := f 1 0 14, len := f 1 14 10 + 1, iters := f 2 0 16, ctx := f 2 16 14, tag := f 3 0 16, i := 0, pc := 0, flags := 0
    poison := false, stored := [], recomp := recomp, waiting := false, result := none }
  { b with vec := { b.vec with runs := slotPut b.vec.runs core r, pvl := Sp.set 0 b.vec.pvl core r.pvl0, prc := Sp.set 0 b.vec.prc core r.prc0 } }

/-- The next instruction word of a core's program. -/
def Blk.vFetch (b : Blk) (core : Nat) (r : Vrun) : VWord :=
  VWord.parse (leNat ((List.range 8).map (fun i => b.cores.cbByte core (256 * r.base + 8 * r.pc + i))))

/-- A failed vector-engine check (R159): the iteration and instruction it strikes, the record's KIND and the first element. -/
structure VFault where
  iter : Nat
  pc   : Nat
  kind : Nat
  row  : Nat
  lane : Nat
  rng  : Bool := false
deriving DecidableEq, Repr

/-- Lines that the descriptor has stored are poison-marked. -/
def Blk.vMark (b : Blk) (core : Nat) (lns : List Nat) : Blk :=
  { b with cores := { b.cores with lines := lns.foldl (fun m ln =>
      Sp.set 0 m (core * 2 ^ 14 + ln) (setBit (Sp.get 0 m (core * 2 ^ 14 + ln)) 0 true)) b.cores.lines } }

/-- The rows of its destination tile that an instruction writes. -/
def Blk.vDestRows (b : Blk) (x : VCtx) (w : VWord) : List Nat :=
  let act := b.vactive x w.f
  let any (r : Nat) : Bool := (List.range 128).any (act r)
  if (decide (1 ≤ w.cls) && decide (w.cls ≤ 3)) || decide (w.cls = 5) || (decide (w.cls = 7) && decide (w.op = 0)) then (List.range 16).filter any
  else if w.cls = 4 then
    let bcast := bitOf w.f.mod 1
    if bitOf w.f.mod 0 then (List.range 16).filter (fun r => decide (r = 0) || (bcast && any r))
    else (List.range (b.vec.prc1 x.core)).filter (fun r => !any r || act r 0 || bcast)
  else []

/-- The fault of R159: destination rows poisoned, stored lines marked, the record, VEC_FAULT, the fence. A failed check of the random source that feeds the instruction is
no fault of the core (R381). -/
def Blk.vFault (b : Blk) (core : Nat) (k : VFault) : Blk :=
  match slotGet b.vec.runs core with
  | some r =>
    let w := b.vFetch core r
    let b1 := { b with vec := { b.vec with pois := (b.vDestRows (b.vctx core) w).foldl (fun m n => Sp.set 0 m (tpKey core w.f.dst n) 1) b.vec.pois } }
    if k.rng then (b1.vMark core r.stored).vFinish core .fault
    else (((b1.vMark core r.stored).vRecord core k.kind 0 k.row k.lane).wf ⟨.SEQ_VEC_STATE, core, 0⟩ Fld.SEQ_VEC_STATE_FENCED 1).vFinish core .fault
  | none => b

/-- The program runs until it ends, stops or waits. -/
def Blk.vRunAll (b : Blk) (core : Nat) (k : Option VFault) : Nat → Blk
  | 0 => b
  | n + 1 =>
    match slotGet b.vec.runs core with
    | some r =>
      if r.result.isSome then b
      else
        let w := b.vFetch core r
        let hit := k.any (fun f => decide (f.iter = r.i) && decide (f.pc = r.pc))
        let b2 :=
          if hit && w.ok r.split && !b.vWaits (b.vctx core) w then
            (match k with | some f => (Blk.vRaise (b.vDo (b.vctx core) w) core).vFault core f | none => b)
          else b.vIssue core w
        if ((slotGet b2.vec.runs core).map (·.waiting)).getD false then b2 else b2.vRunAll core k n
    | none => b

/-- VEC_BANK_TIMEOUT (R136): an instruction has waited for a FREE bank beyond the limit. -/
def Blk.vTimeout (b : Blk) (core : Nat) : Blk :=
  match slotGet b.vec.runs core with
  | some r =>
    let w := b.vFetch core r
    let free := (w.f.accs (vSources w.cls w.op)).any (fun s =>
      (if r.split then [r.half] else [0, 1]).any (fun h => decide (b.cores.bankState (bankNo core (accArr s) (accBank s)) h = 0)))
    if r.result.isNone && r.waiting && free then (b.vRecord core 6 0 0 0).vFinish core .bankTimeout else b
  | none => b

/-- What the discard of a vector context leaves (R160): the lines that its descriptor stored marked, the banks or half banks that it holds in VECTOR state
poisoned and FREE, no trap shown. DESIGN CHOICE: the context holds every bank of the core in VECTOR state, or that half of each (log entry 205). -/
def Blk.vRelease (b : Blk) (core : Nat) (hs lns : List Nat) : Blk :=
  let m := b.vMark core lns
  let c := (List.range 8).foldl (fun (c : Cores) bk =>
    hs.foldl (fun (c : Cores) h =>
      if c.bankState (8 * core + bk) h = 2 then (c.poisonRows (8 * core + bk) [h] (List.range 128)).setBank (8 * core + bk) [h] 0
      else c) c) m.cores
  { m with cores := c }.wf ⟨.SEQ_VEC_STATE, core, 0⟩ Fld.SEQ_VEC_STATE_TRAPPED 0

/-- A discard that falls on a descriptor whose trap has not retired: no trap record stands (R161). -/
def Blk.vUntrap (b : Blk) (core : Nat) : Blk :=
  match slotGet b.vec.runs core with
  | some r => if (r.result.getD 0) % 256 = VStat.trap.code then b.wn ⟨.SEQ_VEC_FAULT, core, 0⟩ r.before else b
  | none => b

/-- The discard of the program that runs on a core. -/
def Blk.vDiscard (b : Blk) (core : Nat) : Blk :=
  match slotGet b.vec.runs core with
  | some r => (b.vRelease core (if r.split then [r.half] else [0, 1]) r.stored).vFinish core .discarded
  | none => b

end Sys2Proof.Machine
end

