-- ==== Sys2Proof/Machine/Engines.lean ====
section
/-!
DEFINITION. The engines round the insole: addresses, DMA, finisher, stash engine (R166 to R196).
-/
namespace Sys2Proof.Machine

/-! ### Engine addresses (R170) -/

/-- The context of a descriptor: its cluster and partition, queue, replay and recompute marks, the cobbler as issuer, whether the
step's closing skipped the update, and the physical core of each core of the cluster. -/
structure ECtx where
  cl      : Nat
  part    : Nat
  queue   : Nat
  replay  : Bool
  recomp  : Bool
  cobbler : Bool
  skip    : Bool
deriving DecidableEq, Repr

/-- An engine address read as a place; reserved spaces and bits have none. -/
def locOf (cl v : Nat) : Option Loc :=
  let sp := bits v 44 4
  if sp = 0 then some (.hbm (bits v 0 44))
  else if sp = 1 then (if bits v 27 17 = 0 then some (.ins cl (bits v 0 27)) else none)
  else if sp = 2 then
    (if bits v 27 1 = 0 ∧ bits v 36 8 = 0 ∧ bits v 32 4 < 4 ∧ bits v 28 4 < 9
     then some (.ins (9 * bits v 32 4 + bits v 28 4) (bits v 0 27)) else none)
  else if sp = 3 then
    (if bits v 22 6 = 0 ∧ bits v 31 13 = 0 ∧ bits v 28 3 < 5 then some (.cb (5 * cl + bits v 28 3) (bits v 0 22)) else none)
  else none

def Loc.add : Loc → Nat → Loc
  | .hbm a, n => .hbm (a + n)
  | .ins c a, n => .ins c (a + n)
  | .cb c a, n => .cb c (a + n)

def Loc.isCb : Loc → Bool
  | .cb _ _ => true
  | _ => false

def Loc.off : Loc → Nat
  | .hbm a => a
  | .ins _ a => a
  | .cb _ a => a

/-- The regions that clicking gave a partition hold `n` bytes at a place. -/
def Blk.granted (b : Blk) (p : Nat) (l : Loc) (n : Nat) : Bool :=
  match b.part p with
  | none => false
  | some x =>
    let high := b.rf capReg Fld.HBM_CAP_HELD_HIGH == 1
    match l with
    | .hbm a => x.grants.any (fun g => decide (g.1 ≤ 1) &&
        (let base := 4096 * halfBase (if g.1 = 0 then high else !high) b.hbmP + g.2.1
         decide (base ≤ a) && decide (a + n ≤ base + g.2.2)))
    | .ins cl a => bitOf x.clusters cl && x.grants.any (fun g => decide (g.1 = 2 + cl) && decide (g.2.1 ≤ a) && decide (a + n ≤ g.2.1 + g.2.2))
    | .cb _ _ => true

/-- The address check of R170 on `n` bytes. -/
def Blk.locOk (b : Blk) (x : ECtx) (l : Loc) (n : Nat) : Bool :=
  match l with
  | .hbm a => decide (a + n ≤ 4096 * (b.hbmP * hbmD)) && (x.cobbler || b.granted x.part l n)
  | .ins _ a => decide (a + n ≤ 2 ^ 27) && (x.cobbler || (decide (a + n ≤ 0x7A00000) && b.granted x.part l n))
  | .cb _ a => decide (a + n ≤ coreBuf)

/-- A place in the seat aperture while the seat is fenced (R27). -/
def Blk.seatDownAt (b : Blk) (l : Loc) : Bool :=
  match l with
  | .hbm a => b.pkg.sku.seat && (b.pkg.seatDown || b.fenced 9) && decide (b.pkg.seatBase ≤ a) && decide (a < b.pkg.seatBase + b.pkg.seatSize)
  | _ => false

/-- The key of an insole byte among the bytes that a transaction with a fenced die carries (log entry 150); physical HBM lies below. -/
def insLost (cl a : Nat) : Nat := 2 ^ 40 + cl * 2 ^ 27 + a

/-- An insole block as it is delivered: a fenced die's is completed with poison (R37). -/
def Blk.insGet (b : Blk) (cl blk : Nat) : Block :=
  if b.fenced (clDie cl) then Block.lostAt (insLost cl (4096 * blk)) (b.ins.block cl blk) else b.ins.block cl blk

/-- An insole block written; nothing reaches a fenced die (R37). -/
def Blk.insPut (b : Blk) (cl blk : Nat) (x : Block) : Blk :=
  if b.fenced (clDie cl) then b else { b with ins := b.ins.put cl blk x }

/-- Bytes of a record stored into an insole with their aglets (R180); nothing reaches a fenced die (R37). -/
def Blk.insStore (b : Blk) (cl a : Nat) (xs : List Byte) : Blk :=
  if b.fenced (clDie cl) then b else { b with ins := b.ins.store cl a xs }

/-- One byte, and `n` bytes, of a place. -/
def Blk.locBytes (b : Blk) (l : Loc) (n : Nat) : List Byte :=
  match l with
  | .hbm a => b.hbmBytes a n
  | .ins cl a => if b.fenced (clDie cl) then (List.range n).map (fun i => Config.lostByte (insLost cl (a + i))) else b.ins.data.read (cl * 2 ^ 27 + a) n
  | .cb core a => b.cores.cb.read (core * coreBuf + a) n

/-- A whole block of memory (not of a core buffer). -/
def Blk.locBlock (b : Blk) (l : Loc) : Block :=
  match l with
  | .hbm a => (b.hbmGet (a / 4096)).getD ⟨zeros 4096, aglet0⟩
  | .ins cl a => b.insGet cl (a / 4096)
  | .cb core a => ⟨b.cores.cb.read (core * coreBuf + a) 4096, 0⟩

def Blk.setBlock (b : Blk) (l : Loc) (x : Block) : Blk :=
  match l with
  | .hbm a => b.hbmPut (a / 4096) x
  | .ins cl a => b.insPut cl (a / 4096) x
  | .cb core a => { b with cores := { b.cores with cb := b.cores.cb.write (core * coreBuf + a) x.pay } }

/-- Written blocks marked poisoned (R175, R176); a place in a core buffer stands for its line, which is poison-marked. -/
def Blk.poisonAt (b : Blk) (l : Loc) : Blk :=
  match l with
  | .cb core a => b.vMark core [a / 256]
  | _ => b.setBlock l (b.locBlock l).poisoned

/-- The blocks that a run of `n` bytes at a place touches. -/
def Loc.blocks (l : Loc) (n : Nat) : List Loc :=
  if n = 0 then []
  else (List.range ((l.off + n - 1) / 4096 - l.off / 4096 + 1)).map (fun i =>
    match l with
    | .hbm a => Loc.hbm ((a / 4096 + i) * 4096)
    | .ins c a => .ins c ((a / 4096 + i) * 4096)
    | .cb c a => .cb c ((a / 4096 + i) * 4096))

/-- A check that expects only sound blocks. -/
def anyEx (a : Aglet) : Expect := { tag := a.tag, format := 0, epoch := none, version := none }

/-- The check that a stored block meets when nothing particular is expected of it: AGLET_CRC, POISON_IN or OK. -/
def Blk.soundCheck (b : Blk) (l : Loc) : EStat := ((b.locBlock l).check (anyEx (Aglet.parse (b.locBlock l).agl))).1

/-- The check of the insole blocks that hold records, given as address and length, at their last hop into an engine (R180). -/
def Blk.recCheck (b : Blk) (cl : Nat) (rs : List (Nat × Nat)) : EStat :=
  ((rs.map (fun r => Loc.blocks (.ins cl r.1) r.2)).flatten.eraseDups).foldl (fun s k => s.worse (b.soundCheck k)) .ok

/-- The records lie where the descriptor's partition may read (R170). -/
def Blk.recOk (b : Blk) (x : ECtx) (rs : List (Nat × Nat)) : Bool := rs.all (fun r => b.locOk x (.ins x.cl r.1) r.2)

/-! ### Results (R174) -/

/-- What a descriptor leaves: the state, its status, the flags of the result word, the index of the block or unit that gave the status, the first failing block
or unit with its own status (R174), the blocks written, and a recompute segment that it must run. -/
structure EOut where
  b   : Blk
  st  : EStat := .ok
  fl  : Nat := 0
  idx : Nat := 0
  err : Option (EStat × Nat) := none
  wr  : List Loc := []
  seg : Option (Nat × Nat) := none

abbrev efNonfinite : Nat := 1
abbrev efSat : Nat := 2
abbrev efPoison : Nat := 4
abbrev efOor : Nat := 8
abbrev efFallback : Nat := 16

/-- A status met at an index: the higher-ranked status stays, with its first index, and the first failure with its own. -/
def EOut.meet (o : EOut) (st : EStat) (i : Nat) : EOut :=
  let o1 := { o with err := some (o.err.getD (st, i)) }
  if st.rank < o.st.rank then { o1 with st := st, idx := i } else o1

def EOut.flag (o : EOut) (f : Nat) : EOut := { o with fl := o.fl ||| f }

/-- The engine-internal check that fails at a block or unit, if one does (R175). -/
abbrev EPhys := Option Nat

/-- What is observed while an engine runs a descriptor: the block, unit or row at which a check fails, and the insole words of clusters at which its reads meet a
corrected or an uncorrectable error (R168), as (cluster, address). -/
structure EngPhys where
  fault : EPhys := none
  insCe : List (Nat × Nat) := []
  insUe : List (Nat × Nat) := []
  rng   : Bool := false
deriving DecidableEq, Repr

/-- The insole errors that a descriptor's reads meet: counted, and the blocks of uncorrectable words delivered as poisoned. -/
def Blk.insErrs (b : Blk) (ph : EngPhys) : Blk :=
  let c := ph.insCe.foldl (fun (c : Blk) e => c.insFound e.1 [e.2] []) b
  ph.insUe.foldl (fun (c : Blk) e => c.insFound e.1 [] [e.2]) c

/-- The fault of R175: what was written is poisoned, FAULT. -/
def EOut.faulted (o : EOut) (i : Nat) (poison : Bool) : EOut :=
  { o.meet .fault i with b := if poison then o.wr.foldl (fun c l => c.poisonAt l) o.b else o.b }

/-- The end of a descriptor's work: the fault where an engine check failed, at the index that `off` gives the place where it did. -/
def EOut.endFaultAt (o : EOut) (ph : EPhys) (off : Nat → Nat) : EOut := match ph with | some k => o.faulted (off k) true | none => o

/-- The end of a descriptor's work whose blocks or units number themselves. -/
def EOut.endFault (o : EOut) (ph : EPhys) : EOut := o.endFaultAt ph id

/-- How much of `n` blocks, units or rows is done before a check fails. -/
def EPhys.upTo (ph : EPhys) (n : Nat) : Nat := match ph with | some k => min k n | none => n

/-- A failed check at issue (R174: no data moves). -/
def EOut.refuse (b : Blk) (st : EStat) : EOut := { b := b, st := st }

/-- A record fails its check at the last hop into the engine: nothing moves (R180). -/
def EOut.badRecord (b : Blk) (st : EStat) : EOut := (EOut.meet { b := b } st 0).flag efPoison

/-- The header checks of R171: reserved bits beyond the engine's own fields, PARTITION. -/
def headCheck (x : ECtx) (raw : BitVec 512) (fields : List (Nat × Nat × Nat)) : Option EStat :=
  if !reservedZero raw ([(0, 0, 9), (0, 16, 16), (1, 0, 8)] ++ fields) then some .badDesc
  else if dsc raw 0 6 3 ≠ x.part then some .partition
  else none

/-- ENGINE_NOP: opcode 0x00 of every engine, after the header checks. The words 2 to 15, which the spec gives to each engine and to no NOP, must be 0 as reserved
bits are (log entry 208). -/
def engNop (b : Blk) (x : ECtx) (raw : BitVec 512) (ph : EPhys) : EOut :=
  match headCheck x raw [] with
  | some st => .refuse b st
  | none => EOut.endFault { b := b } ph

/-! ### DMA (R177 to R179) -/

structure DmaDesc where
  src     : Nat
  dst     : Nat
  blocks  : Nat
  mode    : Nat
  chkVer  : Bool
  tag     : Nat
  epoch   : Nat
  kind    : Nat
  version : Nat
  format  : Nat
  samples : Nat
  sStride : Nat
  dStride : Nat
deriving DecidableEq, Repr

def DmaDesc.parse (r : BitVec 512) : DmaDesc :=
  { src := dsc r 2 0 48, dst := dsc r 4 0 48, blocks := dsc r 6 0 20, mode := dsc r 6 20 3, chkVer := dsc r 6 23 1 == 1
    tag := dsc r 7 0 16, epoch := dsc r 7 16 12, kind := dsc r 7 28 4, version := dsc r 8 0 16, format := dsc r 8 16 8
    samples := dsc r 9 0 16, sStride := dsc r 10 0 32, dStride := dsc r 11 0 32 }

def dmaFields : List (Nat × Nat × Nat) :=
  [(2, 0, 32), (3, 0, 16), (4, 0, 32), (5, 0, 16), (6, 0, 24), (7, 0, 32), (8, 0, 24), (9, 0, 16), (10, 0, 32), (11, 0, 32)]

/-- Bytes that a block takes in the core buffer: 6-bit elements are expanded to a byte each (R49, R85). -/
def cbSpan (format : Nat) : Nat := match Fmt.ofCode format with | some f => if f.bits = 6 then 5460 else 4096 | none => 4096

/-- A payload as the core buffer holds it. -/
def cbImage (format : Nat) (pay : List Byte) : List Byte :=
  match Fmt.ofCode format with
  | some f => if f.bits = 6 then (List.range 5460).map (fun i => BitVec.ofNat 8 (f.getElem (fun j => pay.getD j 0) i)) else pay
  | none => pay

/-- The payload of a core-buffer image. -/
def memImage (format : Nat) (img : List Byte) : List Byte :=
  match Fmt.ofCode format with
  | some f => if f.bits = 6 then (f.pack (img.map (fun x => x.toNat % 64)) ++ zeros 1).take 4096 else img
  | none => img

/-- The lines of a core-buffer run. -/
def linesAt (a n : Nat) : List Nat := (List.range ((a + n - 1) / 256 - a / 256 + 1)).map (fun i => a / 256 + i)

/-- The lines of a core-buffer run as places. -/
def lineLocs (core a n : Nat) : List Loc := (linesAt a n).map (fun ln => Loc.cb core (256 * ln))

/-- The lines that a core-buffer run covers whole. -/
def wholeLines (a n : Nat) : List Nat := (List.range ((a + n) / 256 - (a + 255) / 256)).map (fun i => (a + 255) / 256 + i)

/-- The poison marks of lines set to a value (R177 IN). -/
def Blk.setPois (b : Blk) (core : Nat) (lns : List Nat) (p : Bool) : Blk :=
  { b with cores := { b.cores with lines := lns.foldl (fun m ln =>
      Sp.set 0 m (core * 2 ^ 14 + ln) (setBit (Sp.get 0 m (core * 2 ^ 14 + ln)) 0 p)) b.cores.lines } }

/-- The poison marks that a run leaves: a line that it covers whole takes its mark, a line that holds other bytes as well keeps a mark it has (R77, log entry
165). -/
def Blk.runPois (b : Blk) (core a n : Nat) (p : Bool) : Blk :=
  if p then b.setPois core (linesAt a n) true else b.setPois core (wholeLines a n) false

/-- Summary bits of lines reset, the poison marks left (R150). -/
def Blk.resetLines (b : Blk) (core : Nat) (lns : List Nat) : Blk :=
  { b with cores := { b.cores with lines := lns.foldl (fun m ln =>
      Sp.set 0 m (core * 2 ^ 14 + ln) (b2n (bitOf (Sp.get 0 m (core * 2 ^ 14 + ln)) 0))) b.cores.lines } }

/-- The lines whose summary bits the OUT of block `i` resets: not the last one where the next block of a contiguous run begins in it and has yet to be read (R179). -/
def DmaDesc.doneLines (d : DmaDesc) (a i : Nat) : List Nat :=
  let n := cbSpan d.format
  if d.sStride = 0 ∧ i + 1 < d.blocks ∧ (a + n) % 256 ≠ 0 then (linesAt a n).dropLast else linesAt a n

/-- One block of a DMA descriptor. -/
def dmaBlock (x : ECtx) (d : DmaDesc) (s t : Loc) (i : Nat) (o : EOut) : EOut :=
  let b := o.b
  if b.seatDownAt s || b.seatDownAt t then o.meet .seatDown i
  else
    let o1 := { o with b := b.bump ⟨.SEQ_DMA_BLK_CNT, x.cl, 0⟩ }
    let ex : Expect := { tag := d.tag, format := d.format, epoch := some d.epoch, version := if d.chkVer then some d.version else none }
    let agl : Aglet := { pcrc := 0, tag := d.tag, version := d.version, format := d.format, flags := 0, epoch := d.epoch, kind := d.kind
                         samples := d.samples }
    let note (r : EStat) (o : EOut) : EOut :=
      let o2 := if r = .agletCrc ∨ r = .poisonIn ∨ r = .agletId then
        { o with b := if r = .poisonIn then o.b else o.b.bump ⟨.SEQ_DMA_AGLET_CNT, x.cl, 0⟩, fl := o.fl ||| efPoison } else o
      if r = .ok then o2 else o2.meet r i
    match d.mode with
    | 0 =>
      let r := (b.locBlock s).check ex
      let o2 := note r.1 o1
      { o2 with b := o2.b.setBlock t r.2, wr := o2.wr ++ [t] }
    | 1 =>
      let r := (b.locBlock s).check ex
      let o2 := note r.1 o1
      let f := (Aglet.parse r.2.agl).format
      (match t with
        | .cb core a =>
          let img := cbImage f r.2.pay
          let c := o2.b.setBlock t ⟨img, 0⟩
          { o2 with b := if (Aglet.parse r.2.agl).poison then c.setPois core (linesAt a img.length) true else c, wr := o2.wr ++ lineLocs core a img.length }
        | _ => o2)
    | 2 =>
      (match s with
        | .cb core a =>
          let lns := linesAt a (cbSpan d.format)
          let pois := lns.any (fun ln => b.cores.linePois core ln)
          let zero := lns.all (fun ln => !bitOf (b.cores.lineBits core ln) 1)
          let nonf := lns.any (fun ln => bitOf (b.cores.lineBits core ln) 2)
          let blk := Block.make (memImage d.format (b.locBytes s (cbSpan d.format))) agl pois zero nonf x.replay
          let o2 := { o1 with b := (o1.b.setBlock t blk).resetLines core (d.doneLines a i), wr := o1.wr ++ [t] }
          if pois then (o2.meet .poisonIn i).flag efPoison else o2
        | _ => o1)
    | _ => { o1 with b := o1.b.setBlock t (Block.make (zeros 4096) agl false true false x.replay), wr := o1.wr ++ [t] }

/-- The error register of an engine (R209). -/
def errReg (cl code : Nat) : RegRef :=
  if code = 0x10 then ⟨.FIN_ERR, cl, 0⟩ else if code = 0x11 then ⟨.STH_ERR, cl, 0⟩ else if code = 0x12 then ⟨.GTH_ERR, cl, 0⟩
  else if code = 0x13 then ⟨.LAY_ERR, cl, 0⟩ else ⟨.SEQ_DMA_ERR, cl, 0⟩

/-- SEQ_DMA_ERR and the x_ERR registers: the first failing block's or unit's status, queue, tag, index, shank (R174, R209). -/
def Blk.engErr (b : Blk) (r : RegRef) (x : ECtx) (raw : BitVec 512) (o : EStat) (i : Nat) : Blk :=
  if o = .ok ∨ o = .skipped then b
  else (b.wn r (o.code + 2 ^ 8 * (x.queue % 16) + 2 ^ 16 * dsc raw 0 16 16 + 2 ^ 32 * (i % 2 ^ 32) +
    2 ^ 64 * ((b.shankNow (clDie x.cl)).toNat % 2 ^ 40))).tick

/-- The status of a result word, which may be one of an array or a vector descriptor, left in STH_ERR (R174, R194). -/
def Blk.stashErr (b : Blk) (x : ECtx) (raw : BitVec 512) (res i : Nat) : Blk :=
  if res % 256 ≤ 1 then b
  else (b.engErr ⟨.STH_ERR, x.cl, 0⟩ x raw .fault i).wf ⟨.STH_ERR, x.cl, 0⟩ Fld.STH_ERR_STATUS (res % 256)

/-- A DMA descriptor of a given mode (R177): checks at issue, then every block in order. -/
def dmaRun (b : Blk) (x : ECtx) (raw : BitVec 512) (ph : EPhys) : EOut :=
  let d := DmaDesc.parse raw
  match headCheck x raw dmaFields with
  | some st => .refuse b st
  | none =>
    if dsc raw 0 0 6 ≠ 1 ∨ d.blocks = 0 ∨ 3 < d.mode then .refuse b .badDesc
    else match (if d.mode = 3 then some (Loc.hbm 0) else locOf x.cl d.src), locOf x.cl d.dst with
      | some s, some t =>
        let align (l : Loc) : Bool := decide (l.off % (if l.isCb then 256 else 4096) = 0)
        let shape := (match d.mode with
          | 0 => !s.isCb && !t.isCb | 1 => !s.isCb && t.isCb | 2 => s.isCb && !t.isCb | _ => !t.isCb)
        let step (l : Loc) (st : Nat) : Nat := if st ≠ 0 then st else if l.isCb then cbSpan d.format else 4096
        let at_ (l : Loc) (st i : Nat) : Loc := l.add (i * step l st)
        if !shape || !(align t) || (decide (d.mode ≠ 3) && !align s) ||
            (decide (d.sStride % (if s.isCb then 256 else 4096) ≠ 0)) || (decide (d.dStride % (if t.isCb then 256 else 4096) ≠ 0)) then .refuse b .badDesc
        else if !((List.range d.blocks).all (fun i =>
            (decide (d.mode = 3) || b.locOk x (at_ s d.sStride i) (if s.isCb then cbSpan d.format else 4096)) &&
            b.locOk x (at_ t d.dStride i) (if t.isCb then cbSpan d.format else 4096))) then .refuse b .address
        else
          let n := ph.upTo d.blocks
          let b0 := match d.mode, t with
            | 1, .cb core a =>
              let m := ((List.range n).takeWhile (fun i => !b.seatDownAt (at_ s d.sStride i))).length
              let whole := if d.dStride = 0 then wholeLines a (cbSpan d.format * m)
                else ((List.range m).map (fun i => wholeLines (a + d.dStride * i) (cbSpan d.format))).flatten
              b.setPois core whole false
            | _, _ => b
          let o := (List.range n).foldl (fun (o : EOut) i =>
            if o.st = .seatDown then o else dmaBlock x d (at_ s d.sStride i) (at_ t d.dStride i) i o) { b := b0 }
          if o.st = .seatDown then o else o.endFault ph
      | _, _ => .refuse b .address

/-! ### The finisher (R184 to R190) -/

structure FinRec where
  hi    : Nat
  lo    : Nat
  g     : Nat
  m     : Nat
  v     : Nat
  tagW  : Nat
  tagG  : Nat
  tagM  : Nat
  tagV  : Nat
  ver   : Nat
  l0    : Nat
  hyper : Nat
deriving DecidableEq, Repr

def FinRec.parse (xs : List Byte) : FinRec :=
  let u (off n : Nat) : Nat := leNat ((xs.drop off).take n)
  { hi := u 0 6, lo := u 8 6, g := u 16 6, m := u 24 6, v := u 32 6, tagW := u 40 2, tagG := u 42 2, tagM := u 44 2, tagV := u 46 2
    ver := u 48 2, l0 := u 50 6, hyper := u 56 4 % 2 ^ 27 }

def finFields : List (Nat × Nat × Nat) := [(2, 0, 27), (3, 0, 26), (4, 0, 24)]

/-- The five places of unit u. -/
def FinRec.unit (r : FinRec) (cl u : Nat) : List (Option Loc) :=
  [r.hi, r.lo, r.g, r.m, r.v].map (fun a => (locOf cl a).map (fun l => l.add (4096 * u)))

/-- A block of accumulator words, which no engine takes (R96). -/
def Blk.accBlock (b : Blk) (l : Loc) : Bool :=
  let w := (b.locBlock l).agl
  agletCrcOk w && decide ((Aglet.parse w).format = 0x0F)

/-- FIN_SCAN (R185): the aglets of the g blocks. -/
def finScan (b : Blk) (x : ECtx) (raw : BitVec 512) (ph : EPhys) : EOut :=
  match headCheck x raw finFields with
  | some st => .refuse b st
  | none =>
    let units := dsc raw 3 0 24
    let first := dsc raw 4 0 24
    let frec := dsc raw 2 0 27
    let rec_ := FinRec.parse (b.ins.data.read (x.cl * 2 ^ 27 + frec) 64)
    if dsc raw 0 0 6 ≠ 1 ∨ units = 0 ∨ dsc raw 3 24 2 = 3 ∨ frec % 64 ≠ 0 then .refuse b .badDesc
    else if !b.recOk x [(frec, 64)] then .refuse b .address
    else if b.recCheck x.cl [(frec, 64)] ≠ .ok then .badRecord b (b.recCheck x.cl [(frec, 64)])
    else match locOf x.cl rec_.g with
      | none => .refuse b .address
      | some g =>
        if !((List.range units).all (fun i => b.locOk x (g.add (4096 * (first + i))) 4096)) then .refuse b .address
        else if (List.range units).any (fun i => b.accBlock (g.add (4096 * (first + i)))) then .refuse b .format
        else
          let o := (List.range (ph.upTo units)).foldl (fun (o : EOut) i =>
            let w := (b.locBlock (g.add (4096 * (first + i)))).agl
            let a := Aglet.parse w
            let o1 := if a.nonfin then o.flag efNonfinite else o
            if !agletCrcOk w then (o1.flag efPoison).meet .agletCrc i
            else if a.poison then (o1.flag efPoison).meet .poisonIn i else o1) { b := b }
          match ph with
          | some k => o.faulted k false
          | none => o

/-- The hyperparameters (R186): LR, B1, OMB1, B2, OMB2, EPS, WD, C1, C2. -/
def hyper (b : Blk) (cl a i : Nat) : FVal := Fmt.acc32.decode (b.ins.data.readNat (cl * 2 ^ 27 + a + 4 * i) 4)

/-- One element's update (R189): the new master, m and v before their stochastic rounding. `q` is 1 / N, `sc` is 2^-n. -/
def finElem (algo : Nat) (h : Nat → FVal) (q sc : FVal) (w g m v : FVal) : FVal × FVal × FVal :=
  let gr := f32 (fmulExact (fmulExact g sc) q)
  let m1 := if algo = 0 then ffmav (h 1) m (fmulv (h 2) gr) else if algo = 1 then ffmav (h 1) m gr else .fin false 0
  let v1 := if algo = 0 then ffmav (h 3) v (fmulv (h 4) (fmulv gr gr)) else .fin false 0
  let d := if algo = 0 then divF (fmulv m1 (h 7)) (addRnd .acc32 .near (sqrtF (fmulv v1 (h 8))) (h 5)) else if algo = 1 then m1 else gr
  let t := ffmav (h 6) w d
  let p := fmulExact (h 0) t
  let w1 := match w, p with
    | .fin a x, .fin c y =>
      let s := (FVal.fin a x).rat - (FVal.fin c y).rat
      if s = 0 then FVal.fin (a && !c) 0 else .ofRat s
    | u, z => addRnd .acc32 .near u z.negate
  (w1, m1, v1)

/-- The pair check of R94 on a hi block and its lo block: the same tag, version and epoch, formats 0x01 and 0x0E. -/
def Blk.isPair (b : Blk) (h l : Loc) : Bool :=
  let a := Aglet.parse (b.locBlock h).agl
  let c := Aglet.parse (b.locBlock l).agl
  a.tag == c.tag && a.version == c.version && a.epoch == c.epoch && a.format == 1 && c.format == 0x0E

/-- The five checks of a unit (R188): their highest-ranked status (R174), the pair check of R94 included. -/
def finUnitCheck (b : Blk) (r : FinRec) (algo : Nat) (ls : List Loc) : EStat :=
  let ex (tag f : Nat) : Expect := { tag := tag, format := f, epoch := none, version := some r.ver }
  let es := [ex r.tagW 1, ex r.tagW 0x0E, ex r.tagG 1] ++ (if algo ≤ 1 then [ex r.tagM 1] else []) ++ (if algo = 0 then [ex r.tagV 1] else [])
  let st := (ls.zip es).foldl (fun s p => s.worse ((b.locBlock p.1).check p.2).1) EStat.ok
  st.worse (if b.isPair (ls.getD 0 (.hbm 0)) (ls.getD 1 (.hbm 0)) then .ok else .agletId)

/-- One unit written (R188, R189). -/
def finUnit (x : ECtx) (r : FinRec) (algo u : Nat) (ls : List Loc) (o : EOut) : EOut :=
  let b := o.b
  let blk (i : Nat) : Block := b.locBlock (ls.getD i (.hbm 0))
  let el (i e : Nat) : Nat := leNat (((blk i).pay.drop (2 * e)).take 2)
  let q := divF (.fin false 1) (.fin false ((b.rn ⟨.FIN_STEP_COUNT, x.cl, 0⟩ : Nat) : Rat))
  let n := Fld.FIN_LSCALE_EXP.getInt (b.rd ⟨.FIN_LSCALE, x.cl, 0⟩)
  let sc : FVal := .fin false (pow2 (-n))
  let dr (tag p : Nat) : Draw := { key := b.rn ⟨.SEQ_RNG_KEY, x.cl, 0⟩, s := b.rn ⟨.SEQ_RNG_STEP, x.cl, 0⟩, tag := tag, purpose := p, inst := 0 }
  let outs := (List.range 2048).map (fun e =>
    let l := r.l0 + 2048 * u + e
    let y := finElem algo (hyper b x.cl r.hyper) q sc (Fmt.acc32.decode (el 0 e * 65536 + el 1 e)) (Fmt.bf16.decode (el 2 e))
      (Fmt.bf16.decode (el 3 e)) (Fmt.bf16.decode (el 4 e))
    let w := Fmt.acc32.encode (Fmt.acc32.roundVal (.stoch ((dr r.tagW 3).field l)) y.1)
    let m := Fmt.bf16.encode (Fmt.bf16.roundVal (.stoch ((dr r.tagM 4).field l)) y.2.1)
    let v := Fmt.bf16.encode (Fmt.bf16.roundVal (.stoch ((dr r.tagV 4).field l)) y.2.2)
    (w, m, v, y))
  let pay (f : Nat × Nat × Nat × FVal × FVal × FVal → Nat) : List Byte := (outs.map (fun t => leBytes 2 (f t))).flatten
  let put (c : Blk) (i : Nat) (p : List Byte) : Blk :=
    let a := Aglet.parse (blk i).agl
    let fl := payloadFlags (if i = 1 then 0x0E else 1) p
    c.setBlock (ls.getD i (.hbm 0)) (Block.make p { a with version := (r.ver + 1) % 65536 } false fl.1 fl.2 x.replay)
  let c1 := put (put b 0 (pay (fun t => t.1 / 65536))) 1 (pay (fun t => t.1 % 65536))
  let c2 := if algo ≤ 1 then put c1 3 (pay (fun t => t.2.1)) else c1
  let c3 := if algo = 0 then put c2 4 (pay (fun t => t.2.2.1)) else c2
  let bad := outs.any (fun t => !(Fmt.acc32.decode t.1).finite || (decide (algo ≤ 1) && !(Fmt.bf16.decode t.2.1).finite) ||
    (decide (algo = 0) && !(Fmt.bf16.decode t.2.2.1).finite))
  let fl (s : FVal) (z : Bool) : Nat := b2n (s.finite && !s.zero? && z)
  let flushed := (outs.map (fun t => fl t.2.2.2.1 (Fmt.acc32.decode t.1).zero? +
    (if algo ≤ 1 then fl t.2.2.2.2.1 (Fmt.bf16.decode t.2.1).zero? else 0) +
    (if algo = 0 then fl t.2.2.2.2.2 (Fmt.bf16.decode t.2.2.1).zero? else 0))).sum
  let c4 := ((c3.bump ⟨.FIN_UNIT_CNT, x.cl, 0⟩).bump ⟨.FIN_UF_WRITTEN, x.cl, 0⟩ (2048 * (if algo = 0 then 3 else if algo = 1 then 2 else 1))).bump
    ⟨.FIN_UF_FLUSHED, x.cl, 0⟩ flushed
  { o with b := c4, fl := o.fl ||| (if bad then efNonfinite else 0) }

/-- The hyperparameter record stands in a region of the partition or in the staging range, where the cobbler writes it (R167, R170, R186). -/
def Blk.hyperOk (b : Blk) (x : ECtx) (a : Nat) : Bool := (decide (0x7E00000 ≤ a) && decide (a + 36 ≤ 2 ^ 27)) || b.recOk x [(a, 36)]

/-- FIN_APPLY (R187 to R189): SKIPPED when the closing skipped the update; else unit by unit until one fails. -/
def finApply (b : Blk) (x : ECtx) (raw : BitVec 512) (ph : EPhys) : EOut :=
  match headCheck x raw finFields with
  | some st => .refuse b st
  | none =>
    let units := dsc raw 3 0 24
    let algo := dsc raw 3 24 2
    let first := dsc raw 4 0 24
    let frec := dsc raw 2 0 27
    let r := FinRec.parse (b.ins.data.read (x.cl * 2 ^ 27 + frec) 64)
    if dsc raw 0 0 6 ≠ 2 ∨ units = 0 ∨ algo = 3 ∨ frec % 64 ≠ 0 then .refuse b .badDesc
    else if x.skip then { b := b.bump ⟨.FIN_SKIP_CNT, x.cl, 0⟩, st := .skipped }
    else if !b.recOk x [(frec, 64)] then .refuse b .address
    else if b.recCheck x.cl [(frec, 64)] ≠ .ok then .badRecord b (b.recCheck x.cl [(frec, 64)])
    else if !b.hyperOk x r.hyper then .refuse b .address
    else if b.recCheck x.cl [(r.hyper, 36)] ≠ .ok then .badRecord b (b.recCheck x.cl [(r.hyper, 36)])
    else
      let used := if algo = 0 then 5 else if algo = 1 then 4 else 3
      let places (i : Nat) : Option (List Loc) := ((r.unit x.cl (first + i)).take used).foldr (fun l acc => match l, acc with
        | some a, some as => some (a :: as) | _, _ => none) (some [])
      if !((List.range units).all (fun i => match places i with
          | some ls => ls.all (fun l => !l.isCb && b.locOk x l 4096)
          | none => false)) then .refuse b .address
      else if (List.range units).any (fun i => (places i).any (fun ls => ls.any b.accBlock)) then .refuse b .format
      else
        (List.range units).foldl (fun (o : EOut) i =>
          if o.st ≠ .ok then o
          else if ph = some i then o.meet .fault i
          else match places i with
            | none => o
            | some ls =>
              let c := finUnitCheck o.b r algo ls
              if c = .ok then finUnit x r algo (first + i) ls o else (if c = .version then o else o.flag efPoison).meet c i) { b := b }

/-! ### The stash engine (R191 to R196) -/

structure StashDesc where
  op     : Nat
  entry  : Nat
  slot   : Nat
  policy : Nat
  fall   : Nat
  addr   : Nat
  blocks : Nat
  tag    : Nat
  seg    : Nat
  segLen : Nat
deriving DecidableEq, Repr

def StashDesc.parse (r : BitVec 512) : StashDesc :=
  { op := dsc r 0 0 6, entry := dsc r 2 0 12, slot := dsc r 2 12 4, policy := dsc r 2 16 2, fall := dsc r 2 18 2, addr := dsc r 3 0 48
    blocks := dsc r 5 0 20, tag := dsc r 6 0 16, seg := dsc r 7 0 27, segLen := dsc r 8 0 16 }

def stashFields : List (Nat × Nat × Nat) := [(2, 0, 20), (3, 0, 32), (4, 0, 16), (5, 0, 20), (6, 0, 16), (7, 0, 27), (8, 0, 16)]

/-- The policy that a SAVE can use (R195): the policy, whether it is a fallback; none when it is exhausted. The second Bool says that
the SAVE found no room under its own policy. -/
def stashPick (d : StashDesc) (sw keepRoom offRoom : Bool) : Option (Nat × Bool) × Bool :=
  let viaFall : Option (Nat × Bool) :=
    if d.fall = 1 then (if offRoom then some (1, true) else if d.segLen ≠ 0 then some (2, true) else none)
    else if d.fall = 2 then some (2, true) else none
  if d.policy = 0 then (if !sw && keepRoom then (some (0, false), false) else (viaFall, !sw))
  else if d.policy = 1 then (if offRoom then (some (1, false), false) else (viaFall, true))
  else (some (2, false), false)

/-- `n` blocks copied with their aglets, checked by R178 for the tag (COPY). -/
def stashCopy (s t : Loc) (n tag : Nat) (o : EOut) : EOut :=
  (List.range n).foldl (fun (o : EOut) i =>
    let a := s.add (4096 * i)
    let c := t.add (4096 * i)
    let r := (o.b.locBlock a).check { tag := tag, format := 0, epoch := none, version := none }
    let o1 := { o with b := o.b.setBlock c r.2, wr := o.wr ++ [c] }
    if r.1 = .ok then o1 else (o1.flag efPoison).meet r.1 i) o

def Blk.setStash (b : Blk) (k : Nat) (e : StashEnt) : Blk := { b with stash := { b.stash with ents := slotPut b.stash.ents k e } }

/-- SAVE (R192, R195): a region that STH_SLOT places in the reserved insole holds nothing (R167). -/
def stashSave (b : Blk) (x : ECtx) (d : StashDesc) (src : Loc) (ph : EPhys) : EOut :=
  let k := 16 * x.cl + d.slot
  let sr : RegRef := ⟨.STH_SLOT, x.cl, d.slot⟩
  let insUsed := Sp.get 0 b.stash.insUse k
  let hbmUsed := Sp.get 0 b.stash.hbmUse k
  let keepRoom := decide (insUsed + 4096 * d.blocks ≤ b.rf sr Fld.STH_SLOT_INS_SIZE) &&
    decide (b.rf sr Fld.STH_SLOT_INS_BASE + insUsed + 4096 * d.blocks ≤ 0x7A00000)
  let offRoom := decide (hbmUsed + d.blocks ≤ b.rf sr Fld.STH_SLOT_HBM_BLOCKS)
  let pick := stashPick d (bitOf b.stash.swtch x.cl) keepRoom offRoom
  let b0 := if pick.2 then { b with stash := { b.stash with swtch := setBit b.stash.swtch x.cl true } } else b
  match pick.1 with
  | none => { b := b0, st := .stashExhausted }
  | some (pol, fb) =>
    let b1 := if fb then { (b0.bump ⟨.STH_FALLBACK_CNT, x.cl, 0⟩) with stash := { b0.stash with fell := setBit b0.stash.fell x.cl true } } else b0
    let ent (a : Nat) : StashEnt := { slot := d.slot, policy := pol, addr := a, blocks := d.blocks, tag := d.tag, seg := d.seg, segLen := d.segLen }
    let key := 4096 * x.cl + d.entry
    let o : EOut :=
      if pol = 0 then
        let a := b.rf sr Fld.STH_SLOT_INS_BASE + insUsed
        let b2 := { b1 with stash := { b1.stash with insUse := Sp.set 0 b1.stash.insUse k (insUsed + 4096 * d.blocks) } }
        stashCopy src (.ins x.cl a) (ph.upTo d.blocks) d.tag { b := b2.setStash key (ent (2 ^ 44 + a)) }
      else if pol = 1 then
        let a := b.rf sr Fld.STH_SLOT_HBM_BASE + 4096 * hbmUsed
        let b2 := { b1 with stash := { b1.stash with hbmUse := Sp.set 0 b1.stash.hbmUse k (hbmUsed + d.blocks) } }
        stashCopy src (.hbm a) (ph.upTo d.blocks) d.tag { b := b2.setStash key (ent a) }
      else { b := b1.setStash key (ent 0) }
    if fb then o.flag efFallback else o

/-- LOAD (R192 to R194): the blocks back to ADDR, or the recompute segment. -/
def stashLoad (b : Blk) (x : ECtx) (d : StashDesc) (dst : Loc) (ph : EPhys) : EOut :=
  match slotGet b.stash.ents (4096 * x.cl + d.entry) with
  | none => { b := b, st := .missing }
  | some e =>
    if e.policy = 2 then { b := b.bump ⟨.STH_RECOMP_CNT, x.cl, 0⟩, seg := some (e.seg, e.segLen) }
    else match locOf x.cl e.addr with
      | some s => stashCopy s dst (ph.upTo e.blocks) d.tag { b := b }
      | none => { b := b, st := .missing }

/-- FREE (R192): the entry cleared. -/
def stashFree (b : Blk) (x : ECtx) (d : StashDesc) : EOut :=
  { b := { b with stash := { b.stash with ents := b.stash.ents.filter (fun e => e.1 != 4096 * x.cl + d.entry) } } }

/-- The blocks that a stash descriptor moves: those of the entry for a LOAD (R192, log entry 166). -/
def StashDesc.moves (b : Blk) (x : ECtx) (d : StashDesc) : Nat :=
  if d.op = 2 then match slotGet b.stash.ents (4096 * x.cl + d.entry) with | some e => max e.blocks d.blocks | none => d.blocks else d.blocks

/-- A stash descriptor. -/
def stashRun (b : Blk) (x : ECtx) (raw : BitVec 512) (ph : EPhys) : EOut :=
  let d := StashDesc.parse raw
  match headCheck x raw stashFields with
  | some st => .refuse b st
  | none =>
    if d.op = 0 ∨ 3 < d.op ∨ (d.op = 1 ∧ (d.policy = 3 ∨ d.fall = 3 ∨ ((d.policy = 2 ∨ d.fall = 2) ∧ d.segLen = 0))) ∨ (d.op ≠ 3 ∧ d.blocks = 0) then .refuse b .badDesc
    else if d.op = 3 then (if ph.isSome then { b := b } else stashFree b x d : EOut).endFault ph
    else match locOf x.cl d.addr with
      | none => .refuse b .address
      | some l =>
        if l.isCb || decide (l.off % 4096 ≠ 0) || !b.locOk x l (4096 * d.moves b x) then .refuse b .address
        else (if d.op = 1 then stashSave b x d l ph else stashLoad b x d l ph).endFault ph

end Sys2Proof.Machine
end

