-- ==== Sys2Proof/Machine/Movers.lean ====
section
/-!
DEFINITION. The gather engine and the layout engine (R197 to R204, R107 to R112).
-/
namespace Sys2Proof.Machine

/-! ### Runs of bytes with generated aglets -/

/-- Part of a run that falls into one block, patched into its payload. -/
def patch (old : List Byte) (blkOff runOff : Nat) (xs : List Byte) : List Byte :=
  (List.range 4096).map (fun i =>
    let a := blkOff + i
    if runOff ≤ a ∧ a < runOff + xs.length then xs.getD (a - runOff) 0 else old.getD i 0)

/-- A run to write: its place, bytes, whether what it came from was poisoned, and the byte offsets that stand under a non-finite scale or are one (R100). -/
structure Run where
  loc    : Loc
  bytes  : List Byte
  pois   : Bool
  nonfin : List Nat
deriving DecidableEq, Repr

/-- What a run leaves for a discard to mark: the blocks of memory, or the lines of a core buffer, that it touches (R175, R176). -/
def Loc.parts (l : Loc) (n : Nat) : List Loc := match l with | .cb core a => lineLocs core a n | _ => l.blocks n

/-- The zeros that fill the last block of a tensor of `n` bytes (R179). -/
def tailPad (l : Loc) (n : Nat) : List Run :=
  if l.isCb || decide ((l.off + n) % 4096 = 0) then [] else [⟨l.add n, zeros (4096 - (l.off + n) % 4096), false, []⟩]

/-- One run written: memory blocks get aglets generated as on OUT (R179, R197); a block that a poisoned run touches is poisoned, and
stays so while another run of the same descriptor completes it. -/
def writeRun (agl : Aglet) (replay : Bool) (done : List Loc) (b : Blk) (r : Run) : Blk :=
  match r.loc with
  | .cb core a =>
    (b.setBlock r.loc ⟨r.bytes, 0⟩).runPois core a r.bytes.length r.pois
  | l =>
    (l.blocks r.bytes.length).foldl (fun c k =>
      let old := c.locBlock k
      let pay := patch old.pay k.off l.off r.bytes
      let f := payloadFlags agl.format pay
      let was := done.contains k && (Aglet.parse old.agl).poison
      let nf := (done.contains k && (Aglet.parse old.agl).nonfin) || r.nonfin.any (fun i => decide ((l.off + i) / 4096 = k.off / 4096))
      c.setBlock k (Block.make pay agl (r.pois || was) f.1 (f.2 || nf) replay)) b

/-- Runs written in order; `wr` the blocks of memory that they touch. -/
def writeRuns (agl : Aglet) (replay : Bool) (rs : List Run) (o : EOut) : EOut :=
  rs.foldl (fun (o : EOut) r =>
    { o with b := writeRun agl replay o.wr o.b r, wr := (o.wr ++ r.loc.parts r.bytes.length).eraseDups }) o

/-- One block that an engine reads: what its check gives, its place, and whether it is the lo half of a pair that fails the check of R94. -/
structure Read where
  st   : EStat
  at_  : Loc
  pair : Bool := false
deriving DecidableEq, Repr

/-- The reads of a run: every memory block under it; a run of a core buffer is one read, poisoned where one of its lines is marked. -/
def srcReads (b : Blk) (ex : Aglet → Expect) (l : Loc) (n : Nat) : List Read :=
  match l with
  | .cb core a => [{ st := if (linesAt a n).any (fun ln => b.cores.linePois core ln) then .poisonIn else .ok, at_ := l }]
  | _ => (l.blocks n).map (fun k => let x := b.locBlock k; { st := (x.check (ex (Aglet.parse x.agl))).1, at_ := k })

/-- The status of a list of reads (R174). -/
def worstOf (rs : List Read) : EStat := rs.foldl (fun s r => s.worse r.st) .ok

/-- The check of every block under a run. -/
def srcCheck (b : Blk) (ex : Aglet → Expect) (l : Loc) (n : Nat) : EStat := worstOf (srcReads b ex l n)

/-- The index within a descriptor of the first read of item `k`, where `base` reads come before the items: reads number in the order of work (log entry 209). -/
def readsBefore (base : Nat) (items : List (List Read)) (k : Nat) : Nat := base + ((items.take k).map List.length).sum

/-- A block that stands under a scale that is not finite: it has the non-finite-present flag, and no element of it shows why (R100). -/
def Blk.underNan (b : Blk) (k : Loc) : Bool :=
  let x := b.locBlock k
  !k.isCb && (Aglet.parse x.agl).nonfin && !(payloadFlags (Aglet.parse x.agl).format x.pay).2

/-- The offsets in a run, first and last byte of each, of its blocks that stand under a scale that is not finite: a mover, which reads no scales, keeps their flag
(log entry 210). -/
def Blk.nonfinAt (b : Blk) (l : Loc) (n : Nat) : List Nat :=
  (((l.blocks n).filter b.underNan).map (fun k => [k.off - l.off, min n (k.off + 4096 - l.off) - 1])).flatten

/-! ### Gather (R197 to R200) -/

structure GthDesc where
  op       : Nat
  table    : Nat
  data     : Nat
  idx      : Nat
  count    : Nat
  idx32    : Bool
  chkVer   : Bool
  rowLines : Nat
  rows     : Nat
  tTag     : Nat
  dTag     : Nat
  version  : Nat
  format   : Nat
deriving DecidableEq, Repr

def GthDesc.parse (r : BitVec 512) : GthDesc :=
  { op := dsc r 0 0 6, table := dsc r 2 0 48, data := dsc r 4 0 48, idx := dsc r 6 0 48, count := dsc r 8 0 20
    idx32 := dsc r 8 20 1 == 1, chkVer := dsc r 8 21 1 == 1, rowLines := dsc r 9 0 16, rows := dsc r 10 0 32, tTag := dsc r 11 0 16
    dTag := dsc r 11 16 16, version := dsc r 12 0 16, format := dsc r 12 16 8 }

def gthFields : List (Nat × Nat × Nat) :=
  [(2, 0, 32), (3, 0, 16), (4, 0, 32), (5, 0, 16), (6, 0, 32), (7, 0, 16), (8, 0, 22), (9, 0, 16), (10, 0, 32), (11, 0, 32), (12, 0, 24)]

/-- Index `i` of a vector. -/
def GthDesc.index (d : GthDesc) (xs : List Byte) (i : Nat) : Nat :=
  let w := if d.idx32 then 4 else 2
  leNat ((xs.drop (w * i)).take w)

def GthDesc.pad (d : GthDesc) : Nat := if d.idx32 then 0xFFFFFFFF else 0xFFFF

def GthDesc.agl (d : GthDesc) (kind : Nat) : Aglet :=
  { pcrc := 0, tag := d.dTag, version := d.version, format := d.format, flags := 0, epoch := 0, kind := kind, samples := 0 }

def GthDesc.rowEx (d : GthDesc) (_ : Aglet) : Expect := { tag := d.tTag, format := d.format, epoch := none, version := none }

/-- A stable insertion of an index by value. -/
def sortIns (p : Nat × Nat) : List (Nat × Nat) → List (Nat × Nat)
  | [] => [p]
  | q :: qs => if p.1 < q.1 then p :: q :: qs else q :: sortIns p qs

/-- Indices with their positions, ascending by index and then by position (R199). -/
def sortIdx (xs : List (Nat × Nat)) : List (Nat × Nat) := xs.foldl (fun acc p => sortIns p acc) []

/-- The status of a run met, with its poison flag. -/
def EOut.meetSrc (o : EOut) (st : EStat) (i : Nat) : EOut :=
  if st = .ok then o else (if st = .version then o else o.flag efPoison).meet st i

/-- The statuses of reads met in their order, the first of them at an index. -/
def EOut.meetReads (o : EOut) (base : Nat) (rs : List Read) : EOut := rs.zipIdx.foldl (fun (o : EOut) r => o.meetSrc r.1.st (base + r.2)) o

/-- A place of `n` bytes any of whose blocks lies in the fenced seat's aperture (R27). -/
def Blk.seatDownIn (b : Blk) (l : Loc) (n : Nat) : Bool := (l.blocks n).any b.seatDownAt

/-- Items done in order until the work ends at a failed check or at the seat (R27, R175): how many of `n` are done, and whether the seat stopped it. -/
def upToSeat (ph : EPhys) (n : Nat) (down : Nat → Bool) : Nat × Bool :=
  match (List.range (ph.upTo n)).find? down with
  | some k => (k, true)
  | none => (ph.upTo n, false)

/-- A row of GATHER or SCATTER: its destination, its source where it has one, the reads that it makes, and where it keeps a non-finite-present flag. -/
structure GRow where
  dst    : Loc
  src    : Option Loc
  reads  : List Read
  nonfin : List Nat
deriving DecidableEq, Repr

/-- Rows moved one by one (GATHER, SCATTER); `base` reads come before them. -/
def gthRows (b : Blk) (x : ECtx) (agl : Aglet) (len base : Nat) (rows : List GRow) (ph : EPhys) (o0 : EOut) : EOut :=
  let n := upToSeat ph rows.length (fun i => (rows[i]?).any (fun r => b.seatDownIn r.dst len || r.src.any (fun s => b.seatDownIn s len)))
  let some_ := rows.take n.1
  let off := readsBefore base (rows.map GRow.reads)
  let o1 := o0.meetReads base (some_.map GRow.reads).flatten
  let o2 := writeRuns agl x.replay (some_.map (fun r =>
    ⟨r.dst, match r.src with | some s => b.locBytes s len | none => zeros len, decide (worstOf r.reads ≠ .ok), r.nonfin⟩)) o1
  let o3 := { o2 with b := o2.b.bump ⟨.GTH_ROW_CNT, x.cl, 0⟩ some_.length }
  if n.2 then o3.meet .seatDown (off n.1) else o3.endFaultAt ph off

/-- GATHER (R198): every row of the index vector, a row of +0 for padding and for an index out of range. -/
def gthGather (b : Blk) (x : ECtx) (d : GthDesc) (t dl : Loc) (is_ : List (Nat × Nat)) (base : Nat) (ph : EPhys) (o : EOut) : EOut :=
  let len := 256 * d.rowLines
  let rows := is_.map (fun p =>
    let s := t.add (p.1 * len)
    if p.1 = d.pad ∨ d.rows ≤ p.1 then GRow.mk (dl.add (p.2 * len)) none [] []
    else ⟨dl.add (p.2 * len), some s, srcReads b d.rowEx s len, b.nonfinAt s len⟩)
  let o1 := gthRows b x (d.agl 0) len base rows ph o
  if o1.st = .seatDown ∨ o1.st = .fault then o1 else writeRuns (d.agl 0) x.replay (tailPad dl (d.count * len)) o1

/-- SCATTER (R198): the rows whose index is in range, in ascending position. -/
def gthScatter (b : Blk) (x : ECtx) (d : GthDesc) (t dl : Loc) (is_ : List (Nat × Nat)) (base : Nat) (ph : EPhys) (o : EOut) : EOut :=
  let len := 256 * d.rowLines
  let live := is_.filter (fun p => decide (p.1 ≠ d.pad ∧ p.1 < d.rows))
  gthRows b x (d.agl 0) len base (live.map (fun p =>
    let s := dl.add (p.2 * len)
    let e := t.add (p.1 * len)
    ⟨e, some s, srcReads b anyEx s len ++ srcReads b d.rowEx e len, b.nonfinAt s len ++ b.nonfinAt e len⟩)) ph o

/-- SORT (R199): the count, the permutation and the segments. -/
def gthSort (b : Blk) (x : ECtx) (d : GthDesc) (dl : Loc) (is_ : List (Nat × Nat)) (ph : EPhys) (o : EOut) : EOut :=
  let ss := sortIdx is_
  let segs := (ss.zipIdx).filter (fun p => decide (p.2 = 0) || decide ((ss.getD (p.2 - 1) (0, 0)).1 ≠ p.1.1))
  let bytes := leBytes 4 segs.length ++ (ss.map (fun p => leBytes 4 p.2)).flatten ++ (segs.map (fun p => leBytes 4 p.2 ++ leBytes 4 p.1.1)).flatten
  if b.seatDownIn dl bytes.length then o.meet .seatDown 0
  else
    let n := match ph with | some k => min (4096 * k) bytes.length | none => bytes.length
    (writeRuns (d.agl 0xD) x.replay (⟨dl, bytes.take n, decide (o.st ≠ .ok), []⟩ :: (if ph.isSome then [] else tailPad dl bytes.length)) o).endFault ph

/-- PARAM (R200): the shards in list order, each block checked for its tag and, with CHK_VERSION, its version. A FORMAT of 0 leaves each block the format it has
(log entry 167). -/
def gthParam (b : Blk) (x : ECtx) (d : GthDesc) (dl : Loc) (blks : List (Option Loc)) (base : Nat) (ph : EPhys) (o : EOut) : EOut :=
  let n := upToSeat ph blks.length (fun i => b.seatDownIn (dl.add (4096 * i)) 4096 || (blks.getD i none).any (fun l => b.seatDownIn l 4096))
  let o1 := ((blks.take n.1).zipIdx).foldl (fun (o : EOut) p =>
    match p.1 with
    | none => o
    | some l =>
      let r := (o.b.locBlock l).check { tag := d.tTag, format := 0, epoch := none, version := if d.chkVer then some d.version else none }
      let a := Aglet.parse r.2.agl
      writeRuns { d.agl 9 with format := if d.format = 0 then a.format else d.format } x.replay [⟨dl.add (4096 * p.2), r.2.pay, a.poison, b.nonfinAt l 4096⟩]
        (o.meetSrc r.1 (base + p.2))) o
  if n.2 then o1.meet .seatDown (base + n.1) else o1.endFaultAt ph (base + ·)

/-- A gather descriptor. The block count of a shard-list entry stands in bits [67:48] (log entry 168). -/
def gatherRun (b : Blk) (x : ECtx) (raw : BitVec 512) (ph : EPhys) : EOut :=
  let d := GthDesc.parse raw
  let len := 256 * d.rowLines
  match headCheck x raw gthFields with
  | some st => .refuse b st
  | none =>
    if d.op = 0 ∨ 4 < d.op ∨ d.count = 0 ∨ (d.op ≤ 2 ∧ d.rowLines = 0) then .refuse b .badDesc
    else if d.format = 0x0F ∨ (d.op ≤ 2 ∧ (Fmt.ofCode d.format).isNone) ∨ (d.op = 4 ∧ d.format ≠ 0 ∧ (Fmt.ofCode d.format).isNone) then .refuse b .format
    else match (if d.op = 3 then some (Loc.cb 0 0) else locOf x.cl d.table), locOf x.cl d.data, (if d.op = 4 then some (Loc.cb 0 0) else locOf x.cl d.idx) with
      | some t, some dl, some il =>
        let iBytes := d.count * (if d.idx32 then 4 else 2)
        let entry (i : Nat) : Nat := leNat (b.locBytes (t.add (16 * i)) 16)
        let shards := (List.range d.count).map (fun i => (bits (entry i) 0 48, bits (entry i) 48 20))
        let dataLen := if d.op = 3 then 4 + 4 * d.count + 8 * d.count
          else if d.op = 4 then 4096 * (shards.map (·.2)).sum else d.count * len
        if d.op = 4 ∧ b.locOk x t (16 * d.count) = true ∧ (List.range d.count).any (fun i => decide (2 ^ 68 ≤ entry i)) = true then .refuse b .badDesc
        else if (d.op ≠ 4 ∧ b.locOk x il iBytes = false) ∨ b.locOk x dl dataLen = false ∨ (d.op ≤ 2 ∧ b.locOk x t (d.rows * len) = false) ∨
            (d.op = 4 ∧ (b.locOk x t (16 * d.count) = false ∨
              shards.all (fun s => (locOf x.cl s.1).any (fun l => b.locOk x l (4096 * s.2))) = false)) ∨
            (d.op ≤ 2 ∧ (t.off % 256 ≠ 0 ∨ dl.off % 256 ≠ 0)) then .refuse b .address
        else if (if d.op = 4 then b.seatDownIn t (16 * d.count) else b.seatDownIn il iBytes) then EOut.meet { b := b } .seatDown 0
        else
          let idxs := b.locBytes il iBytes
          let is_ := (List.range d.count).map (fun i => (d.index idxs i, i))
          let first := if d.op = 4 then srcReads b anyEx t (16 * d.count) else srcReads b anyEx il iBytes
          let base := first.length
          let o0 : EOut := EOut.meetReads { b := b } 0 first
          let oor := if d.op ≤ 2 then (is_.filter (fun p => decide (p.1 ≠ d.pad ∧ d.rows ≤ p.1))).length else 0
          let o : EOut := match d.op with
            | 1 => gthGather b x d t dl is_ base ph o0
            | 2 => gthScatter b x d t dl is_ base ph o0
            | 3 => gthSort b x d dl is_ ph o0
            | _ => gthParam b x d dl (shards.map (fun s => (List.range s.2).map (fun i => (locOf x.cl s.1).map (fun l => l.add (4096 * i))))).flatten base ph o0
          if oor = 0 then o else { o with b := o.b.bump ⟨.GTH_OOR_CNT, x.cl, 0⟩ oor }.flag efOor
      | _, _, _ => .refuse b .address

/-- Where the reads of a gather descriptor lie, in the order of work: its index vector or shard list, then the blocks of its rows or shards. -/
def Blk.gthPlaces (b : Blk) (cl : Nat) (d : GthDesc) : List Loc :=
  let ofOpt (l : Option Loc) (n : Nat) : List Loc := match l with | some (.cb c a) => [.cb c a] | some l => l.blocks n | none => []
  let len := 256 * d.rowLines
  let iBytes := d.count * (if d.idx32 then 4 else 2)
  let listAt := locOf cl (if d.op = 4 then d.table else d.idx)
  let row (base : Nat) (i : Nat) : List Loc := ofOpt ((locOf cl base).map (fun l => l.add (i * len))) len
  let idxs := match listAt with | some l => b.locBytes l iBytes | none => []
  let live := ((List.range d.count).map (fun i => (d.index idxs i, i))).filter (fun p => decide (p.1 ≠ d.pad ∧ p.1 < d.rows))
  ofOpt listAt (if d.op = 4 then 16 * d.count else iBytes) ++
    (match d.op with
      | 1 => (live.map (fun p => row d.table p.1)).flatten
      | 2 => (live.map (fun p => row d.data p.2 ++ row d.table p.1)).flatten
      | 4 => ((List.range d.count).map (fun i =>
          let e := match listAt with | some l => leNat (b.locBytes (l.add (16 * i)) 16) | none => 0
          ((List.range (bits e 48 20)).map (fun j => ((locOf cl (bits e 0 48)).map (fun l => l.add (4096 * j))).toList)).flatten)).flatten
      | _ => [])

/-! ### Layout: view records (R201) -/

structure View where
  base    : Nat
  stride  : Nat
  rows    : Nat
  cols    : Nat
  fmt     : Nat
  axis    : Nat
  tag     : Nat
  epoch   : Nat
  version : Nat
  samples : Nat
  scBase  : Nat
  scRow   : Nat
  lBase   : Nat
  lRow    : Nat
  tscale  : Nat
  inst    : Nat
deriving DecidableEq, Repr

def Blk.view (b : Blk) (cl a : Nat) : View :=
  let v := b.ins.data.readNat (cl * 2 ^ 27 + a) 64
  let u (w lo n : Nat) : Nat := bits v (32 * w + lo) n
  { base := u 0 0 48, stride := u 2 0 32, rows := u 3 0 20, cols := u 4 0 20, fmt := u 5 0 4, axis := u 5 4 2, tag := u 5 16 16
    epoch := u 6 0 12, version := u 7 0 16, samples := u 7 16 16, scBase := u 8 0 48, scRow := u 10 0 32, lBase := u 11 0 48
    lRow := u 13 0 48, tscale := u 15 0 16, inst := u 15 16 8 }

/-- Bytes of `n` elements of a row: in memory 6-bit elements stand in blocks of 5,460, in a core buffer one to a byte. -/
def rowSize (f : Fmt) (cb : Bool) (n : Nat) : Nat :=
  if f.bits = 6 then (if cb then n else n / 5460 * 4096 + (n % 5460 + 3) / 4 * 3) else (n * f.bits + 7) / 8

/-- The place of a view's row. -/
def View.rowLoc (v : View) (cl r : Nat) : Option Loc := (locOf cl v.base).map (fun l => l.add (r * v.stride))

/-- Element codes of a row of bytes. -/
def rowCodes (f : Fmt) (cb : Bool) (xs : List Byte) (n : Nat) : List Nat :=
  (List.range n).map (fun c =>
    if f.bits = 6 ∧ cb = false then f.getElem (fun j => xs.getD (4096 * (c / 5460) + j) 0) (c % 5460)
    else if f.bits = 6 then (xs.getD c 0).toNat % 64
    else f.getElem (fun j => xs.getD j 0) c)

/-- A row of codes as bytes. -/
def rowPack (f : Fmt) (cb : Bool) (cs : List Nat) : List Byte :=
  if f.bits = 6 then
    (if cb then cs.map (fun c => BitVec.ofNat 8 (c % 64))
     else ((chunks 5460 cs.length cs).map (fun g => if g.length = 5460 then (f.pack g ++ zeros 1) else f.pack g)).flatten)
  else f.pack cs

/-- A view's run of a block scale: along the row, down the column, or 32 by 32 (R81, R201). -/
def View.scaleAt (v : View) (f : Fmt) (r c : Nat) : Nat :=
  let n := if f = .e2m1 then 16 else 32
  if v.axis = 2 then c * v.scRow + r / n else r * v.scRow + c / n

/-- The value of every element of a view's row (R91), from its codes, its scales and TSCALE. -/
def Blk.viewRow (b : Blk) (cl : Nat) (v : View) (f : Fmt) (r : Nat) : List FVal :=
  match v.rowLoc cl r with
  | none => []
  | some l =>
    let cs := rowCodes f l.isCb (b.locBytes l (rowSize f l.isCb v.cols)) v.cols
    cs.zipIdx.map (fun p =>
      let s : FVal := if v.axis = 0 ∨ vScaled f = 0 then .fin false 1 else
        match locOf cl v.scBase with
        | some sl => (if f = .e2m1 then Fmt.ue4m3 else Fmt.e8m0).decode (leNat (b.locBytes (sl.add (v.scaleAt f r p.2)) 1))
        | none => .nan
      scaled (f.decode p.1) s (if f = .e2m1 then Fmt.bf16.decode v.tscale else .fin false 1))

/-- A split master's row as binary32 (R92). -/
def Blk.masterRow (b : Blk) (cl : Nat) (hi lo : View) (r : Nat) : List FVal :=
  match hi.rowLoc cl r, lo.rowLoc cl r with
  | some h, some l =>
    let a := rowCodes .bf16 false (b.locBytes h (2 * hi.cols)) hi.cols
    let c := rowCodes .ext16 false (b.locBytes l (2 * hi.cols)) hi.cols
    (a.zip c).map (fun p => Fmt.acc32.decode (65536 * p.1 + p.2))
  | _, _ => []

/-- The format code of a scale image (R81). -/
def scaleFmt (f : Fmt) : Nat := if f = .e2m1 then 0x0D else 0x0C

/-- The scale bytes that a view's row needs, as runs: along the row, or one byte of each column's line. -/
def View.scaleRow (v : View) (cl : Nat) (f : Fmt) (r : Nat) : List (Loc × Nat) :=
  if v.axis = 0 ∨ vScaled f = 0 then []
  else match locOf cl v.scBase with
    | none => []
    | some l =>
      if v.axis = 2 then (List.range v.cols).map (fun c => (l.add (v.scaleAt f r c), 1))
      else [(l.add (v.scaleAt f r 0), v.scaleAt f r (v.cols - 1) - v.scaleAt f r 0 + 1)]

/-- The reads of a view's row, elements and then scales, checked for tag, format and epoch (R178, R180). -/
def Blk.viewReads (b : Blk) (cl : Nat) (v : View) (f : Fmt) (r : Nat) : List Read :=
  match v.rowLoc cl r with
  | some l =>
    srcReads b (fun _ => { tag := v.tag, format := v.fmt, epoch := some v.epoch, version := none }) l (rowSize f l.isCb v.cols) ++
      (((v.scaleRow cl f r).map (fun k => srcReads b (fun _ => { tag := v.tag, format := scaleFmt f, epoch := some v.epoch, version := none }) k.1 k.2)).flatten).eraseDups
  | none => []

/-- The reads of a row of a split master: the hi half's blocks, then the lo half's, each with the pair check of R94 against its hi block. -/
def Blk.masterReads (b : Blk) (cl : Nat) (hi lo : View) (r : Nat) : List Read :=
  let hs := b.viewReads cl hi .bf16 r
  hs ++ (b.viewReads cl lo .ext16 r).zipIdx.map (fun x =>
    let ok := (hs[x.2]?).all (fun h => b.isPair h.at_ x.1.at_)
    { x.1 with st := x.1.st.worse (if ok then .ok else .agletId), pair := !ok })

/-! ### Layout operations (R202 to R204) -/

structure LayDesc where
  op     : Nat
  src    : Nat
  src2   : Nat
  dst    : Nat
  sc2    : Nat
  master : Bool
deriving DecidableEq, Repr

def LayDesc.parse (r : BitVec 512) : LayDesc :=
  { op := dsc r 0 0 6, src := dsc r 2 0 27, src2 := dsc r 3 0 27, dst := dsc r 4 0 27, sc2 := dsc r 5 0 48, master := dsc r 7 0 1 == 1 }

def layFields : List (Nat × Nat × Nat) := [(2, 0, 27), (3, 0, 27), (4, 0, 27), (5, 0, 32), (6, 0, 16), (7, 0, 1)]

/-- A destination's random field of element (r, c) (R104, R202). -/
def Blk.layDraw (b : Blk) (x : ECtx) (v : View) (r c : Nat) : Rnd :=
  .stoch (({ key := b.rn ⟨.SEQ_RNG_KEY, x.cl, 0⟩, s := b.rn ⟨.SEQ_RNG_STEP, x.cl, 0⟩, tag := v.tag, purpose := 2, inst := v.inst : Draw }).field
    (v.lBase + r * v.lRow + c))

/-- A block of elements at positions cast to the destination format with its scale byte; also flags and flushed count. -/
def castBlock (f : Fmt) (ts : Nat) (xs : List FVal) (rnd : Nat → Rnd) : Nat × List Nat × CFlags × Nat :=
  if f = .e2m1 then castFine ts xs rnd else castMx f xs rnd

/-- The cast of a whole tensor: codes by row, scale bytes as (row, column, byte) of each scale block's first element, flags, flushed; `sat` how many elements
saturated. -/
structure Cast where
  codes  : List (List Nat)
  scales : List (Nat × Nat × Nat)
  fl     : CFlags
  flush  : Nat
  sat    : Nat
deriving DecidableEq, Repr

/-- How many elements of a scale block saturate (R98): those beyond the format's largest value under the block's scale. -/
def satCount (f : Fmt) (ts scale : Nat) (xs : List FVal) : Nat :=
  if xs.any (fun x => !x.finite) then 0
  else
    let d := if f = .e2m1 then (Fmt.ue4m3.decode scale).rat * (Fmt.bf16.decode ts).rat else (Fmt.e8m0.decode scale).rat
    (xs.filter (fun x => match x with | .fin _ m => decide (d ≠ 0) && decide (f.maxFin * d < m) | _ => false)).length

def castTensor (v : View) (f : Fmt) (src : List (List FVal)) (rnd : Nat → Nat → Rnd) : Cast :=
  let at_ (r c : Nat) : FVal := (src.getD r []).getD c (.fin false 0)
  if vScaled f = 0 ∨ v.axis = 0 then
    let rows := (List.range v.rows).map (fun r => (List.range v.cols).map (fun c => (f.conv (rnd r c) (at_ r c), at_ r c)))
    { codes := rows.map (fun r => r.map (·.1.1)), scales := [], fl := rows.flatten.foldl (fun a y => a.or y.1.2) {}
      flush := (rows.flatten.filter (fun y => !f.isInt && y.2.finite && !y.2.zero? && (f.decode y.1.1).zero?)).length
      sat := (rows.flatten.filter (fun y => y.1.2.sat)).length }
  else
    let n := vScaled f
    let h := if v.axis = 1 then 1 else n
    let w := if v.axis = 2 then 1 else n
    let corners := ((List.range ((v.rows + h - 1) / h)).map (fun i => (List.range ((v.cols + w - 1) / w)).map (fun j => (h * i, w * j)))).flatten
    let blks := corners.map (fun k =>
      let pos := ((List.range (min h (v.rows - k.1))).map (fun i => (List.range (min w (v.cols - k.2))).map (fun j => (k.1 + i, k.2 + j)))).flatten
      let xs := pos.map (fun p => at_ p.1 p.2)
      let y := castBlock f v.tscale xs (fun q => let p := pos.getD q (0, 0); rnd p.1 p.2)
      (k, pos.zip y.2.1, y, satCount f v.tscale y.1 xs))
    let codes := (blks.map (fun x => x.2.1)).flatten
    let rowOf (r : Nat) : List Nat :=
      let here := codes.filter (fun e => e.1.1 == r)
      (List.range v.cols).map (fun c => ((here.find? (fun e => e.1.2 == c)).map (·.2)).getD 0)
    { codes := (List.range v.rows).map rowOf, scales := blks.map (fun x => (x.1.1, x.1.2, x.2.2.1.1)), fl := blks.foldl (fun a x => a.or x.2.2.1.2.2.1) {}
      flush := (blks.map (fun x => x.2.2.1.2.2.2)).sum, sat := (blks.map (fun x => x.2.2.2)).sum }

/-- The byte of a row at which element `c` stands. -/
def elemOff (f : Fmt) (cb : Bool) (c : Nat) : Nat :=
  if f.bits = 6 then (if cb then c else c / 5460 * 4096 + c % 5460 * 6 / 8) else c * f.bits / 8

/-- A scale byte that is NaN in its format. -/
def scaleNan (f : Fmt) (s : Nat) : Bool := (if f = .e2m1 then Fmt.ue4m3 else Fmt.e8m0).decode s == .nan

/-- Runs of the element rows of a destination; elements under a NaN scale, or all under a per-tensor scale that is not finite, mark their blocks (R100). -/
def elemRuns (cl : Nat) (v : View) (f : Fmt) (c : Cast) (bad : Nat → Bool) : List Run :=
  let ts := decide (f = .e2m1) && !(Fmt.bf16.decode v.tscale).finite
  let h := if v.axis = 1 then 1 else vScaled f
  let w := if v.axis = 2 then 1 else vScaled f
  let nan := c.scales.filter (fun s => scaleNan f s.2.2)
  let under (r k : Nat) : Bool := ts || nan.any (fun s => decide (s.1 ≤ r) && decide (r < s.1 + h) && decide (s.2.1 ≤ k) && decide (k < s.2.1 + w))
  c.codes.zipIdx.filterMap (fun p => (v.rowLoc cl p.2).map (fun l =>
    ⟨l, rowPack f l.isCb p.1, bad p.2, ((List.range v.cols).filter (under p.2)).map (elemOff f l.isCb)⟩))

/-- Runs of a scale image: one byte per row or column position, each block's byte for every line of its extent. -/
def scaleRuns (cl : Nat) (v : View) (base : Nat) (second : Bool) (rowB : Nat) (sc : List (Nat × Nat × Nat)) (n : Nat) : List Run :=
  match locOf cl base with
  | none => []
  | some l =>
    (sc.map (fun s =>
      let mk (line pos : Nat) : Run := ⟨l.add (line * rowB + pos), [BitVec.ofNat 8 s.2.2], false, if scaleNan (if n = 16 then .e2m1 else .e4m3) s.2.2 then [0] else []⟩
      if second then (List.range (min n (v.cols - s.2.1))).map (fun j => mk (s.2.1 + j) (s.1 / n))
      else if v.axis = 2 then [mk s.2.1 (s.1 / n)]
      else if v.axis = 3 then (List.range (min n (v.rows - s.1))).map (fun i => mk (s.1 + i) (s.2.1 / n))
      else [mk s.1 (s.2.1 / n)])).flatten

/-- The places that a view's rows, and its scale image, take. -/
def Blk.viewOk (b : Blk) (x : ECtx) (v : View) (f : Fmt) : Bool :=
  (List.range v.rows).all (fun r => (v.rowLoc x.cl r).any (fun l => b.locOk x l (rowSize f l.isCb v.cols))) &&
  (decide (v.axis = 0) || (locOf x.cl v.scBase).any (fun l => b.locOk x l ((if v.axis = 2 then v.cols else v.rows) * v.scRow)))

def View.agl (v : View) (kind version : Nat) : Aglet :=
  { pcrc := 0, tag := v.tag, version := version, format := v.fmt, flags := 0, epoch := v.epoch, kind := kind, samples := v.samples }

/-- The aglet of the first block of a view. -/
def Blk.viewAgl (b : Blk) (cl : Nat) (v : View) : Aglet :=
  match v.rowLoc cl 0 with
  | some l => Aglet.parse (b.locBlock (((l.blocks 1).headD l))).agl
  | none => Aglet.parse 0

/-- The end of a view's image, where its rows or scale lines stand without gaps (R179). -/
def viewPad (cl base : Nat) (rows size stride : Nat) : List Run :=
  match locOf cl base with
  | some l => if rows ≤ 1 ∨ stride = size then tailPad l (rows * size) else []
  | none => []

/-- Draws that a cast of `n` elements makes: none for the integer formats that truncate (R97). -/
def castDraws (f : Fmt) (n : Nat) : Nat := if f = .uint8 ∨ f = .int16 then 0 else n

/-- The reads of a source row: the split master's two halves, or the view's own (R94, R178, R180). -/
def Blk.layReads (b : Blk) (cl : Nat) (ms : Bool) (s s2 : View) (fs : Fmt) (r : Nat) : List Read :=
  if ms then b.masterReads cl s s2 r else b.viewReads cl s fs r

/-- The rows of a destination that are cast when a check fails at a row: those before it, whole scale blocks of them (R203). -/
def castRows (ph : EPhys) (v : View) (f : Fmt) : Nat :=
  let high := if v.axis = 2 ∨ v.axis = 3 then max 1 (vScaled f) else 1
  if ph.upTo v.rows = v.rows then v.rows else ph.upTo v.rows / high * high

/-- CAST and WCOPY on checked views: elements and scales written, flags and counts (R107 to R112, R124, R202, R203). A check that fails at a row leaves, and counts,
what stands before it: the rows of whole scale blocks, with their scales. -/
def layCast (b : Blk) (x : ECtx) (d : LayDesc) (s s2 t : View) (fs ft : Fmt) (ph : EPhys) : EOut :=
  let lim := castRows ph t ft
  let u := { t with rows := lim }
  let rows := List.range lim
  let reads (r : Nat) : List Read := b.layReads x.cl d.master s s2 fs r
  let src := rows.map (fun r => if d.master then b.masterRow x.cl s s2 r else b.viewRow x.cl s fs r)
  let c := castTensor u ft src (fun r k => b.layDraw x t r k)
  let srcAgl := b.viewAgl x.cl s
  let kind := if d.op = 4 then 7 else srcAgl.kind
  let ver := if d.op = 4 then srcAgl.version else t.version
  let size := rowSize ft false t.cols
  let lines := if t.axis = 2 then t.cols else t.rows
  let per := ((if t.axis = 2 then t.rows else t.cols) + (vScaled ft - 1)) / max 1 (vScaled ft)
  let o0 : EOut := EOut.meetReads { b := b } 0 (rows.map reads).flatten
  let o1 := writeRuns (t.agl kind ver) x.replay (elemRuns x.cl u ft c (fun r => decide (worstOf (reads r) ≠ .ok)) ++
    (if ph.isSome then [] else viewPad x.cl t.base t.rows size t.stride)) o0
  let sAgl := { t.agl 8 ver with format := scaleFmt ft }
  let o2 := if c.scales = [] then o1 else writeRuns sAgl x.replay (scaleRuns x.cl u t.scBase false t.scRow c.scales (vScaled ft) ++
    (if ph.isSome then [] else viewPad x.cl t.scBase lines per t.scRow)) o1
  let o3 := if d.op = 4 ∧ ft ≠ .e2m1 then
    writeRuns sAgl x.replay (scaleRuns x.cl u d.sc2 true ((t.rows + 31) / 32) c.scales 32 ++
      (if ph.isSome then [] else viewPad x.cl d.sc2 t.cols ((t.rows + 31) / 32) ((t.rows + 31) / 32))) o2 else o2
  let n := lim * t.cols
  let b1 := (o3.b.bump ⟨.LAY_ELEM_CNT, x.cl, 0⟩ ((n + 1023) / 1024)).bump ⟨.LAY_SAT_CNT, x.cl, 0⟩ c.sat
  let b2 := if ft.isInt then b1 else (b1.bump ⟨.FIN_UF_WRITTEN, x.cl, 0⟩ n).bump ⟨.FIN_UF_FLUSHED, x.cl, 0⟩ c.flush
  let b3 := if x.recomp then b2.bump ⟨.SEQ_RNG_RECOMP, x.cl, 0⟩ (castDraws ft n) else b2
  ({ o3 with b := b3, fl := o3.fl ||| (if c.fl.nonfinite then efNonfinite else 0) ||| (if c.fl.sat then efSat else 0) } : EOut).endFaultAt ph
    (readsBefore 0 ((List.range t.rows).map reads))

/-- AMAX on checked views: the per-tensor scale of R109 into the destination view's TSCALE. -/
def layAmax (b : Blk) (x : ECtx) (d : LayDesc) (s s2 : View) (fs : Fmt) (ph : EPhys) : EOut :=
  let rows := List.range s.rows
  let reads (r : Nat) : List Read := b.layReads x.cl d.master s s2 fs r
  let o0 : EOut := EOut.meetReads { b := b } 0 ((rows.take (ph.upTo s.rows)).map reads).flatten
  let m := amaxOf (rows.map (fun r => if d.master then b.masterRow x.cl s s2 r else b.viewRow x.cl s fs r)).flatten
  if ph.isSome then o0.endFaultAt ph (readsBefore 0 (rows.map reads))
  else { o0 with b := o0.b.insStore x.cl (d.dst + 60) (leBytes 2 (tscaleOf m)) }

/-- The version of the block at a place. -/
def Blk.verAt (b : Blk) (l : Loc) : Nat := (Aglet.parse (b.locBlock l).agl).version

/-- A run of `n` bytes at a source cut where its blocks end, each piece as offset, length and the version of its block (R202). -/
def Blk.pieces (b : Blk) (l : Loc) (n : Nat) : List (Nat × Nat × Nat) :=
  (l.blocks n).map (fun k => let lo := k.off - l.off; (lo, min n (k.off + 4096 - l.off) - lo, b.verAt k))

/-- Bytes moved to a place piece by piece, each with its source block's version. -/
def movePieces (b : Blk) (replay : Bool) (agl : Nat → Aglet) (l m : Loc) (xs : List Byte) (pois : Bool) (o : EOut) : EOut :=
  (b.pieces l xs.length).foldl (fun (o : EOut) p => writeRuns (agl p.2.2) replay
    [⟨m.add p.1, (xs.drop p.1).take p.2.1, pois, b.nonfinAt (l.add p.1) p.2.1⟩] o) o

/-- The version of the last block of a run. -/
def Blk.lastVer (b : Blk) (l : Option Loc) (n : Nat) : Nat := match l with | some l => (((b.pieces l n).getLast?).map (·.2.2)).getD 0 | none => 0

/-- RESHARD_COPY on checked views: rows and scale lines bit for bit, with the destination's epoch and the version of the source block of each (R202). A row whose
image differs between the source and the destination, 6-bit elements in a core buffer and in memory, moves whole with the version of its first block. -/
def layMove (b : Blk) (x : ECtx) (s t : View) (f : Fmt) (ph : EPhys) : EOut :=
  let rows := (List.range s.rows).take (ph.upTo s.rows)
  let kind := (b.viewAgl x.cl s).kind
  let reads (r : Nat) : List Read := b.viewReads x.cl s f r
  let o0 : EOut := EOut.meetReads { b := b } 0 (rows.map reads).flatten
  let o1 := rows.foldl (fun (o : EOut) r => match s.rowLoc x.cl r, t.rowLoc x.cl r with
    | some l, some m =>
      let xs := b.locBytes l (rowSize f l.isCb s.cols)
      let bad := decide (worstOf (reads r) ≠ .ok)
      if l.isCb = m.isCb ∨ f.bits ≠ 6 then movePieces b x.replay (t.agl kind) l m xs bad o
      else writeRuns (t.agl kind (b.lastVer (some l) 1)) x.replay [⟨m, rowPack f m.isCb (rowCodes f l.isCb xs s.cols), bad, []⟩] o
    | _, _ => o) o0
  let size := rowSize f false t.cols
  let o2 := if ph.isSome then o1 else
    writeRuns (t.agl kind (b.lastVer (s.rowLoc x.cl (s.rows - 1)) size)) x.replay (viewPad x.cl t.base t.rows size t.stride) o1
  let lines := if t.axis = 2 then t.cols else t.rows
  let n := min s.scRow t.scRow
  let sAgl (v : Nat) : Aglet := { t.agl 8 v with format := scaleFmt f }
  let o3 := if t.axis = 0 ∨ s.axis = 0 ∨ ph.isSome then o2 else
    match locOf x.cl s.scBase, locOf x.cl t.scBase with
    | some l, some m =>
      let o3 := (List.range lines).foldl (fun (o : EOut) i =>
        let k := l.add (i * s.scRow)
        let bad := srcCheck b (fun _ => { tag := s.tag, format := scaleFmt f, epoch := some s.epoch, version := none }) k n
        movePieces b x.replay sAgl k (m.add (i * t.scRow)) (b.locBytes k n) (decide (bad ≠ .ok)) o) o2
      writeRuns (sAgl (b.lastVer (some (l.add ((lines - 1) * s.scRow))) n)) x.replay (viewPad x.cl t.scBase lines n t.scRow) o3
    | _, _ => o2
  ({ o3 with b := o3.b.bump ⟨.LAY_ELEM_CNT, x.cl, 0⟩ ((rows.length * s.cols + 1023) / 1024) } : EOut).endFaultAt ph (readsBefore 0 ((List.range s.rows).map reads))

/-- A layout descriptor. A scale axis of 0 casts E4M3 and E5M2 without scales; the smaller floats are always scaled, and the other formats never (R99). -/
def layoutRun (b : Blk) (x : ECtx) (raw : BitVec 512) (ph : EPhys) : EOut :=
  let d := LayDesc.parse raw
  match headCheck x raw layFields with
  | some st => .refuse b st
  | none =>
    let d' := { d with master := d.master || decide (d.op = 4) }
    let recs := [(d.src, 64), (d.dst, 64)] ++ (if d'.master then [(d.src2, 64)] else [])
    if d.op = 0 ∨ 4 < d.op then .refuse b .badDesc
    else if !b.recOk x recs then .refuse b .address
    else if b.recCheck x.cl recs ≠ .ok then .badRecord b (b.recCheck x.cl recs)
    else
      let s := b.view x.cl d.src
      let s2 := b.view x.cl d.src2
      let t := b.view x.cl d.dst
      match Fmt.ofCode s.fmt, Fmt.ofCode t.fmt with
      | some fs, some ft =>
        let ms := d'.master
        if s.rows = 0 ∨ s.cols = 0 ∨ t.rows ≠ s.rows ∨ t.cols ≠ s.cols then .refuse b .badDesc
        else if s.fmt = 0x0F ∨ t.fmt = 0x0F ∨ (ms ∧ (s.fmt ≠ 1 ∨ s2.fmt ≠ 0x0E)) ∨ (!ms ∧ d.op ≠ 3 ∧ s.fmt = 0x0E) ∨
            (d.op = 3 ∧ s.fmt ≠ t.fmt) ∨ (d.op = 2 ∧ ft ≠ .e2m1) ∨ (d.op = 4 ∧ ft ≠ .e4m3 ∧ ft ≠ .e2m1) ∨
            (d.op = 1 ∧ (ft = .ext16 ∨ ft = .e8m0 ∨ ft = .ue4m3)) then .refuse b .format
        else if ((d.op = 1 ∨ d.op = 4) ∧ vScaled ft = 0 ∧ t.axis ≠ 0) ∨ (d.op = 1 ∧ [Fmt.e3m2, .e2m3, .e2m1].contains ft = true ∧ t.axis = 0) ∨
            (d.op = 4 ∧ t.axis = 0) then .refuse b .badDesc
        else if b.viewOk x s fs = false ∨ (ms ∧ b.viewOk x s2 .ext16 = false) ∨ (d.op ≠ 2 ∧ b.viewOk x t ft = false) ∨
            (d.op = 4 ∧ ft ≠ .e2m1 ∧ (locOf x.cl d.sc2).any (fun l => b.locOk x l (t.cols * ((t.rows + 31) / 32))) = false) then .refuse b .address
        else
          (if d.op = 2 then layAmax b x d' s s2 fs ph
            else if d.op = 3 then layMove b x s t fs ph
            else layCast b x d' s s2 t fs ft ph : EOut)
      | _, _ => .refuse b .format

end Sys2Proof.Machine
end

