-- ==== Sys2Proof/Machine/Clamps.lean ====
section
/-!
DEFINITION. Values that a register does not take as written: clamped fields, and fields where 0 is replaced by the reset value.
-/
namespace Sys2Proof.Machine

/-- A field of a register word brought into a range. -/
def clampFld (f : Fld) (lo hi : Nat) (v : RegVal) : RegVal := f.set v (max lo (min hi (f.get v)))

/-- A field whose value 0 is replaced by its reset value. -/
def zeroFld (f : Fld) (n : RegName) (v : RegVal) : RegVal := if f.get v = 0 then f.set v (f.get n.row.reset) else v

/-- An exponent outside -24 to 24 clamped (R130). -/
def clampExp (v : RegVal) : RegVal :=
  let x := Fld.FIN_LSCALE_CFG_INIT_EXP.getInt v
  Fld.FIN_LSCALE_CFG_INIT_EXP.set v ((max (-24) (min 24 x)) % 256).toNat

/-- The value a register holds after a write of `v` to its writable bits; `maxW` is the part number's highest input power. -/
def regClamp (maxW : Nat) (n : RegName) (v : RegVal) : RegVal :=
  match n with
  | .FIN_LSCALE_CFG => clampExp (zeroFld Fld.FIN_LSCALE_CFG_GROW_STEPS n (zeroFld Fld.FIN_LSCALE_CFG_FLOOR_SKIPS n v))
  | .FIN_GH_CFG => zeroFld Fld.FIN_GH_CFG_THRESH n v
  | .WIT_CFG => clampFld Fld.WIT_CFG_RATE_LOG2 8 16 v
  | .HBM_PRIO_CFG => clampFld Fld.HBM_PRIO_CFG_LC_SHARE 0 8 v
  | .HBM_SCRUB_CFG => zeroFld Fld.HBM_SCRUB_CFG_PERIOD_H n v
  | .HBM_ROWTRK_CFG => clampFld Fld.HBM_ROWTRK_CFG_CE_THRESH 2 255 v
  | .SEQ_STEP_CFG => clampFld Fld.SEQ_STEP_CFG_REPLAY_BUDGET 0 14 (zeroFld Fld.SEQ_STEP_CFG_ATTEMPT_MAX n (zeroFld Fld.SEQ_STEP_CFG_DIGEST_DEPTH n v))
  | .SEQ_VEC_WAIT_LIMIT => zeroFld Fld.SEQ_VEC_WAIT_LIMIT_LIMIT n v
  | .EYE_CFG => zeroFld Fld.EYE_CFG_LANE_CE_LIMIT n v
  | .EYE_TMO_CFG => clampFld Fld.EYE_TMO_CFG_HB_MISSES 2 15 (zeroFld Fld.EYE_TMO_CFG_HB_INTERVAL n v)
  | .LAC_CFG => zeroFld Fld.LAC_CFG_ORDER_TMO n (zeroFld Fld.LAC_CFG_PROGRESS_TMO n (zeroFld Fld.LAC_CFG_CACK_EVERY n v))
  | .AWL_CFG => zeroFld Fld.AWL_CFG_FAULT_LIMIT n (zeroFld Fld.AWL_CFG_WINDOW_H n v)
  | .PWR_CAP => clampFld Fld.PWR_CAP_CAP_W ((maxW + 3) / 4) maxW v
  | .PWR_CAP_CFG => zeroFld Fld.PWR_CAP_CFG_GAIN n v
  | .PWR_DROOP_CFG => clampFld Fld.PWR_DROOP_CFG_THRESH 3 8 v
  | .PWR_THERM_CFG => clampFld Fld.PWR_THERM_CFG_TRIP_C 0 120 (clampFld Fld.PWR_THERM_CFG_HBM_TRIP_C 0 105 v)
  | .CLK_GATE_CFG => clampFld Fld.CLK_GATE_CFG_GATE_IDLE 10 255 v
  | .WLT_REJOIN_CFG => clampFld Fld.WLT_REJOIN_CFG_DEADLINE_MS 50 5000 v
  | .MBX_TMO => zeroFld Fld.MBX_TMO_REQ_TMO n v
  | .EVG_COAL_CFG => zeroFld Fld.EVG_COAL_CFG_COAL_TIME_US n v
  | .EVG_Q_CFG => clampFld Fld.EVG_Q_CFG_SIZE_LOG2 4 12 v
  | _ => v

end Sys2Proof.Machine
end

