-- ==== Sys2Proof/Machine/Links.lean ====
section
/-!
DEFINITION. Eyelet links (chapter 08): flits and their codes, retry, channels and credits, heartbeats, training, lanes, pause and
the coast window.
-/
namespace Sys2Proof.Machine

/-! ### Registers and state of an eyelet -/

/-- The I/O die of an eyelet (R299). -/
def eyeDie (e : Nat) : Nat := 4 + e / 8

def eyeReg (e : Nat) : RegRef := ⟨.EYE_STATE, e, 0⟩

/-- The position of the eyelet is there (R299). -/
def Blk.eyeExists (b : Blk) (e : Nat) : Bool :=
  decide (e < 48) && b.present (eyeDie e) && !b.fenced (eyeDie e) && !(b.pkg.sku.seat && decide (eyeDie e = 9))

def Blk.eye (b : Blk) (e : Nat) : Eye := (slotGet b.lac.eyes e).getD .new
def Blk.setEye (b : Blk) (e : Nat) (x : Eye) : Blk := { b with lac := { b.lac with eyes := slotPut b.lac.eyes e x } }
def Blk.eyeState (b : Blk) (e : Nat) : Nat := b.rf (eyeReg e) Fld.EYE_STATE_STATE
def Blk.setEyeState (b : Blk) (e s : Nat) : Blk := b.wf (eyeReg e) Fld.EYE_STATE_STATE s
/-- ACTIVE or ACTIVE_3L. -/
def Blk.eyeUp (b : Blk) (e : Nat) : Bool := decide (b.eyeState e = 5) || decide (b.eyeState e = 6)
def Blk.eyeEvent (b : Blk) (e kind : Nat) : Blk := b.evGroup (eyeDie e) (e % 8) kind
def Blk.pausing (b : Blk) (e : Nat) : Bool := b.rf (eyeReg e) Fld.EYE_STATE_PAUSING == 1
def Blk.pauseMask (b : Blk) (e : Nat) : Nat := b.rf ⟨.EYE_PAUSE, e, 0⟩ Fld.EYE_PAUSE_MASK

/-- The partition of an eyelet. -/
def Blk.partOfEye (b : Blk) (e : Nat) : Option Nat := (b.parts.find? (fun x => bitOf x.2.eyelets e)).map (·.1)

/-! ### The field GF(2^8) of R304 -/

def gfMulAux : Nat → Nat → Nat → Nat → Nat
  | 0, _, _, acc => acc
  | n + 1, a, c, acc =>
    gfMulAux n (if 128 ≤ a then ((2 * a) ^^^ 0x11D) % 256 else 2 * a) (c / 2) (if c % 2 = 1 then acc ^^^ a else acc)

/-- The product of two symbols modulo x^8 + x^4 + x^3 + x^2 + 1. -/
def gfMul (a c : Nat) : Nat := gfMulAux 8 a c 0

/-- Powers of alpha. -/
def gfPow : Nat → Nat
  | 0 => 1
  | n + 1 => gfMul 2 (gfPow n)

/-- The syndromes of a codeword of symbols, the first of the highest power (log entry 44): its values at 1 and at alpha. -/
def gfSyn (cs : List Nat) : Nat × Nat := cs.foldl (fun s c => (s.1 ^^^ c, (gfMul 2 s.2) ^^^ c)) (0, 0)

/-- The inverse of alpha + 1. -/
def gfInv3 : Nat := ((List.range 256).find? (fun x => gfMul 3 x == 1)).getD 0

/-- The two parity symbols of 62 symbols. -/
def rsParity (ds : List Nat) : Nat × Nat :=
  let s := gfSyn (ds ++ [0, 0])
  let p1 := gfMul (s.1 ^^^ s.2) gfInv3
  (p1, s.1 ^^^ p1)

/-- A received codeword: its 64 symbols corrected, and the place corrected; none when it has more than one wrong symbol. -/
def rsDecode (cs : List Nat) : Option (List Nat × Option Nat) :=
  let s := gfSyn cs
  if s.1 = 0 ∧ s.2 = 0 then some (cs, none)
  else if s.1 = 0 ∨ s.2 = 0 then none
  else match (List.range 64).find? (fun e => gfMul s.1 (gfPow e) == s.2) with
    | some e => some (cs.set (63 - e) ((cs.getD (63 - e) 0) ^^^ s.1), some (63 - e))
    | none => none

/-- Codeword k of a flit: the bytes i with i mod 4 = k. -/
def codeword (xs : List Byte) (k : Nat) : List Nat := (List.range 64).map (fun j => (xs.getD (4 * j + k) 0).toNat)

/-! ### Flits (R302 to R304) -/

/-- A flit header's fields. -/
structure FlitHead where
  typ   : Nat
  vc    : Nat
  som   : Bool
  eom   : Bool
  unseq : Bool
  seq   : Nat
  ack   : Nat
  crVc  : Nat
  crCnt : Nat
deriving DecidableEq, Repr

def FlitHead.word (h : FlitHead) : Nat :=
  h.typ + 4 * h.vc + 32 * b2n h.som + 64 * b2n h.eom + 128 * b2n h.unseq + 2 ^ 8 * (h.seq % 4096) + 2 ^ 20 * (h.ack % 4096) + 2 ^ 32 * h.crVc +
    2 ^ 35 * h.crCnt

def FlitHead.parse (v : Nat) : FlitHead :=
  { typ := bits v 0 2, vc := bits v 2 3, som := bitOf v 5, eom := bitOf v 6, unseq := bitOf v 7, seq := bits v 8 12, ack := bits v 20 12
    crVc := bits v 32 3, crCnt := bits v 35 8 }

/-- The 256 bytes of a flit. -/
def flitBytes (h : FlitHead) (pay : List Byte) : List Byte :=
  let body := leBytes 8 h.word ++ (pay ++ List.replicate 236 0).take 236
  let d := body ++ leBytes 4 (crc32c body).toNat
  let ps := (List.range 4).map (fun k => rsParity ((codeword (d ++ zeros 8) k).take 62))
  d ++ ps.map (fun p => BitVec.ofNat 8 p.1) ++ ps.map (fun p => BitVec.ofNat 8 p.2)

/-- A received flit decoded (R304): its bytes corrected, none when the FEC or the link CRC fails; and the places corrected, those of a flit that fails too. -/
def flitDecode (xs : List Byte) : Option (List Byte) × List Nat :=
  let cs := (List.range 4).map (fun k => rsDecode (codeword xs k))
  let fixed := cs.zipIdx.filterMap (fun (w : Option (List Nat × Option Nat) × Nat) => (w.1.bind (·.2)).map (fun j => 4 * j + w.2))
  let ys := (List.range 256).map (fun i => BitVec.ofNat 8 (((cs.getD (i % 4) none).getD ([], none)).1.getD (i / 4) 0))
  (if !cs.any Option.isNone && decide ((crc32c (ys.take 244)).toNat = leNat ((ys.drop 244).take 4)) then some ys else none, fixed)

/-- The content of a CTRL flit: its kind and what it carries, as numbers. -/
def Ctrl.content : Ctrl → Nat × Nat × Nat
  | .nak q => (0, q, 0)
  | .heartbeat q st => (1, q, st)
  | .identity id => (2, id.toNat, 0)
  | .creditInit cr => (3, leNat (cr.map (fun c => leBytes 2 c)).flatten, 0)
  | .pause m => (4, m, 0)
  | .unpause => (5, 0, 0)
  | .coastDone => (6, 0, 0)
  | .hold => (7, 0, 0)
  | .degrade l tx => (8, l, b2n tx)

/-- The payload of a CTRL flit: its layout is free (log entry 45). -/
def Ctrl.pay (c : Ctrl) : List Byte := leBytes 236 (Config.ctrlPay c.content.1 c.content.2.1 c.content.2.2).toNat

def Ctrl.unseq : Ctrl → Bool
  | .nak _ => true
  | .heartbeat _ _ => true
  | _ => false

/-- The bit pairs of a byte, the low pair first (R305). -/
def bitPairs (x : Byte) : List Nat := (List.range 4).map (fun i => bits x.toNat (2 * i) 2)

/-- The bit pairs of a flit on each of lanes 0 to 3 (R305, R306): quarter q of flit f on the lane of `lanes` with number (4f + q) mod 3 with three lanes, on lane q with four. -/
def laneDeal (lanes : List Nat) (f : Nat) (xs : List Byte) : List (List Nat) :=
  let at_ (q : Nat) : Nat := if lanes.length = 3 then lanes.getD ((4 * f + q) % 3) 0 else q
  (List.range 4).map (fun l => (((List.range 4).filter (fun q => at_ q == l)).map (fun q => (((xs.drop (64 * q)).take 64).map bitPairs).flatten)).flatten)

/-! ### Messages as bytes (R307, R345) -/

def nameBytes (r : NameRec) : List Byte := leBytes 2 r.mb ++ leBytes 2 r.samples ++ leBytes 2 r.rank ++ leBytes 1 r.kind ++ [0]

/-- A message's body. -/
def Msg.body (m : Msg) : List Byte :=
  (m.blocks.map (fun x => x.1 ++ (if m.aglets then leBytes 16 x.2.toNat else []))).flatten ++
  (if m.kind = 0x40 ∨ m.kind = 0x41 then (m.words.map (leBytes 8)).flatten else (m.words.map (leBytes 4)).flatten) ++
  (if m.kind = 0x44 then (m.names.map (fun r => leBytes 2 r.mb ++ leBytes 2 r.samples)).flatten else (m.names.map nameBytes).flatten)

/-- The message header and body. -/
def Msg.bytes (m : Msg) : List Byte :=
  let tail := if m.kind < 0x40 then leBytes 2 m.step ++ leBytes 2 m.cseq ++ leBytes 3 m.chunk ++ [0]
    else leBytes 2 m.step ++ leBytes 2 m.cseq ++ leBytes 2 m.src ++ [0, 0]
  leBytes 1 m.kind ++ leBytes 1 (b2n m.aglets) ++ leBytes 2 m.body.length ++ leBytes 3 m.ctx ++ leBytes 1 m.attempt ++ tail ++ m.body

/-- Payloads of 236 bytes. -/
def pieces : Nat → List Byte → List (List Byte)
  | 0, _ => []
  | n + 1, xs => xs.take 236 :: pieces n (xs.drop 236)

/-- The DATA flits of a message on a channel. -/
def Msg.flits (m : Msg) (vc : Nat) : List DataFlit :=
  let xs := m.bytes
  let n := (xs.length + 235) / 236
  (pieces n xs).zipIdx.map (fun p => { vc := vc, som := p.2 == 0, eom := p.2 + 1 == n, pay := p.1 })

/-- The channel that a message rides on an eyelet: on a link of revision 1 or 2 everything but VC0 rides VC6 (R321). -/
def Blk.eyeVc (b : Blk) (e vc : Nat) : Nat :=
  if vc ≠ 0 ∧ (b.rf (eyeReg e) Fld.EYE_STATE_REV = 1 ∨ b.rf (eyeReg e) Fld.EYE_STATE_REV = 2) then 6 else vc

/-- A link of revision 1 or 2. -/
def Blk.oldLink (b : Blk) (e : Nat) : Bool := b.rf (eyeReg e) Fld.EYE_STATE_REV == 1 || b.rf (eyeReg e) Fld.EYE_STATE_REV == 2

/-- The number that a channel has on the wire, and the channel that such a number means: an older peer sees VC6 as its channel 1 (R321). -/
def Blk.wireVc (b : Blk) (e vc : Nat) : Nat := if b.oldLink e then (if vc = 6 then 1 else if vc = 1 then 6 else vc) else vc

/-- A mask of channels with the numbers of the wire, or from them. -/
def Blk.wireMask (b : Blk) (e mask : Nat) : Nat := (List.range 8).foldl (fun m v => if bitOf mask (b.wireVc e v) then m + 2 ^ v else m) 0

/-- Credits by channel with the numbers of the wire, or from them. -/
def Blk.wireCredits (b : Blk) (e : Nat) (cr : List Nat) : List Nat := (List.range 8).map (fun v => cr.getD (b.wireVc e v) 0)

/-- A CTRL flit as it goes onto the wire: what names channels names them as the peer does. -/
def Blk.wireCtrl (b : Blk) (e : Nat) : Ctrl → Ctrl
  | .creditInit cr => .creditInit (b.wireCredits e cr)
  | .pause m => .pause (b.wireMask e m)
  | c => c

/-- A message handed to an eyelet's transmitter. A message beyond its limit of flits is never sent (R308). -/
def Blk.eyeSend (b : Blk) (e : Nat) (m : Msg) : Blk :=
  let vc := b.eyeVc e m.vc
  let m1 := if b.oldLink e then { m with aglets := false } else m
  let fs := m1.flits vc
  if fs.length ≤ (if vc = 0 then 16 else 72) then b.setEye e { b.eye e with queue := (b.eye e).queue ++ fs } else b

/-- The receive credits of R312. -/
def rxCredits : List Nat := [64, 320, 320, 320, 320, 320, 320, 64]

/-- The credits advertised at the end of a training and at every retrain (R312, R313): the receive buffers less what stands in them; an older peer
has two channels only (R321). CREDIT_INIT carries them, and no earlier return is owed. -/
def Blk.advertise (b : Blk) (e : Nat) : Blk :=
  let x := b.eye e
  let used (v : Nat) : Nat := ((x.buf ++ x.coast).filter (fun f => f.vc == v)).length
  let cr := rxCredits.zipIdx.map (fun p => if b.oldLink e && p.2 != 0 && p.2 != 6 then 0 else p.1 - used p.2)
  b.setEye e { x with ctrl := x.ctrl ++ [.creditInit cr], room := cr, back := List.replicate 8 0 }

/-- A control flit handed to an eyelet's transmitter. -/
def Blk.eyeCtrl (b : Blk) (e : Nat) (c : Ctrl) : Blk := b.setEye e { b.eye e with ctrl := (b.eye e).ctrl ++ [c] }

/-! ### Going down, retraining -/

/-- The flits of whole messages: a channel's flits after its last EOM, in this list and `tail` behind it, are a partial message (R323). -/
def wholeMessages (fs tail : List DataFlit) : List DataFlit :=
  fs.zipIdx.filterMap (fun p => if (fs.drop p.2 ++ tail).any (fun f => f.vc == p.1.vc && f.eom) then some p.1 else none)

/-- A fast retrain begins (R311, R317, R322): both ends re-advertise their credits (R313), and resends are counted anew. -/
def Blk.eyeRetrain (b : Blk) (e : Nat) : Blk :=
  let r := eyeReg e
  let x := b.eye e
  (((((b.setEye e { x with times := x.times.map (fun _ => 0) }).advertise e).wf r Fld.EYE_STATE_STATE 7).bumpFld r Fld.EYE_STATE_RETRAINS).bump
    ⟨.EYE_RETRAIN_CNT, e, 0⟩).eyeEvent e 0

/-- The link leaves service (R323), and shows no rate, revision or lanes: partly received messages are discarded and unacknowledged flits lost. The coast buffer keeps its
whole messages (R329). `st` is DOWN, FAILED or OFF. -/
def Blk.eyeDown (b : Blk) (e st : Nat) : Blk :=
  let x := b.eye e
  let r := eyeReg e
  let y := { x with
    replay := [], base := x.tx, again := 0, times := [], ctrl := [], queue := [], buf := wholeMessages x.buf x.coast, coast := wholeMessages x.coast []
    lock := 0, three := false, nakOut := false, got := false, fresh := true, tmoPast := false, hold := false, open_ := 0, coastDue := false, hbRx := none, lostSeq := none, skip := 0 }
  let b1 := (((b.setEye e y).wf r Fld.EYE_STATE_STATE st).wf r Fld.EYE_STATE_PAUSED 0).wf ⟨.EYE_PAUSE, e, 0⟩ Fld.EYE_PAUSE_PEER_MASK 0
  (((((b1.wf r Fld.EYE_STATE_TX_LANES 0).wf r Fld.EYE_STATE_RX_LANES 0).wf r Fld.EYE_STATE_RATE 0).wf r Fld.EYE_STATE_REV 0).wf ⟨.EYE_COAST_STAT, e, 0⟩ Fld.EYE_COAST_STAT_FILL y.coast.length).eyeEvent e 0

/-- FLIT_LOCK_LOSS (R317). -/
def Blk.flitLockLoss (b : Blk) (e : Nat) : Blk := if b.eyeUp e then b.eyeRetrain e else b

/-- HEARTBEAT_SILENCE (R317): not watched while the peer has sent HOLD. -/
def Blk.hbSilence (b : Blk) (e : Nat) : Blk := if b.eyeUp e && !(b.eye e).hold then b.eyeDown e 9 else b

/-! ### Retry (R310, R311) -/

/-- What an ACK covers leaves the replay buffer. After training every ACK is 0 until a flit has been taken, so an ACK of 0 covers nothing until a later one has come (log entry 213). -/
def Eye.ackTo (x : Eye) (ack : Nat) : Eye :=
  let n := (ack + 1 + 4096 - x.base) % 4096
  if n ≤ x.replay.length ∧ n ≠ 0 ∧ !(x.fresh && ack == 0) then
    { x with
      fresh := false,
      base := (ack + 1) % 4096, replay := x.replay.drop n, times := x.times.drop n
      again := if x.again = 0 ∨ x.replay.length = n then 0 else max 1 (x.again - n) }
  else x

/-- The n-th of eight entries replaced. -/
def setAt (l : List Nat) (i v : Nat) : List Nat := l.set i v

/-- Corrected symbols counted against their lanes (R304 to R306). -/
def Blk.fecCount (b : Blk) (e : Nat) (places : List Nat) : Blk :=
  let lanes := (List.range 4).filter (fun l => bitOf (b.rf (eyeReg e) Fld.EYE_STATE_RX_LANES) l)
  let laneOf (i : Nat) : Nat :=
    if lanes.length = 3 then lanes.getD ((4 * (b.eye e).seen + i / 64) % 3) 0 else i / 64
  let fld : Nat → Fld := fun l => match l with
    | 0 => Fld.EYE_LANE_CE_LANE_0 | 1 => Fld.EYE_LANE_CE_LANE_1 | 2 => Fld.EYE_LANE_CE_LANE_2 | _ => Fld.EYE_LANE_CE_LANE_3
  places.foldl (fun c i => (c.bump ⟨.EYE_FEC_CE_CNT, e, 0⟩).bumpFld ⟨.EYE_LANE_CE, e, 0⟩ (fld (laneOf i))) b

/-- A flit has arrived, good or bad: its corrected symbols count, and so does the flit itself (R306). -/
def Blk.flitSeen (b : Blk) (e : Nat) (fix : List Nat) : Blk :=
  let b1 := b.fecCount e fix
  b1.setEye e { b1.eye e with seen := (b1.eye e).seen + 1 }

/-- ACK and credit return of any good flit (R303). -/
def Blk.flitHeader (b : Blk) (e ack crVc crCnt : Nat) : Blk :=
  let x := (b.eye e).ackTo ack
  let v := b.wireVc e crVc
  b.setEye e { x with cred := setAt x.cred v (x.cred.getD v 0 + crCnt) }

/-- What any good CTRL or IDLE flit does beside its content. -/
def Blk.rxHead (b : Blk) (e : Nat) (h : RxHead) : Blk := (b.flitSeen e h.fix).flitHeader e h.ack h.crVc h.crCnt

/-- Resending starts from a place of the replay buffer. -/
def Blk.resendFrom (b : Blk) (e k : Nat) : Blk :=
  let x := b.eye e
  if x.replay.length ≤ k then b else (b.setEye e { x with again := k + 1 }).bump ⟨.EYE_REPLAY_CNT, e, 0⟩

/-- The link carries flits: in service, or in a retrain, where CTRL flits alone pass. -/
def Blk.eyeFlits (b : Blk) (e : Nat) : Bool := b.eyeUp e || decide (b.eyeState e = 7)

/-- NAK (R310): go back to the SEQ named. Every flit before it has been received, so it acknowledges them. -/
def Blk.nakReceived (b : Blk) (e : Nat) (h : RxHead) (seq : Nat) : Blk :=
  if !b.eyeFlits e then b
  else
    let b0 := b.setEye e { b.eye e with fresh := (b.eye e).fresh && decide (seq % 4096 ≠ 1) }
    let b1 := b0.rxHead e { h with ack := (seq + 4095) % 4096 }
    b1.resendFrom e ((seq % 4096 + 4096 - (b1.eye e).base) % 4096)

/-- REPLAY_TIMEOUT (R310). -/
def Blk.replayTimeout (b : Blk) (e : Nat) : Blk := if b.eyeUp e then b.resendFrom e 0 else b

/-- A bad flit, or a sequenced flit out of order (R310): one NAK names the SEQ expected; none while a flit beyond the credit of a paused channel is missing (R327). In ALIGN the lock is lost (R319). -/
def Blk.badFlit (b : Blk) (e : Nat) : Blk :=
  let x := b.eye e
  if !b.eyeFlits e then b.setEye e { x with lock := 0 }
  else if x.nakOut || x.lostSeq.isSome then b
  else ((b.setEye e { x with nakOut := true }).eyeCtrl e (.nak x.rx)).bump ⟨.EYE_NAK_CNT, e, 0⟩

/-- A sequenced flit (R310): the one expected is accepted by `act`; one accepted before is discarded silently, a later one as a bad flit. -/
def Blk.inSeq (b : Blk) (e seq : Nat) (act : Blk → Blk) : Blk :=
  let ahead := (seq + 4096 - (b.eye e).rx) % 4096
  if 2048 ≤ ahead then b else if ahead ≠ 0 then b.badFlit e else act b

/-- The SEQ expected has been accepted. -/
def Blk.seqTaken (b : Blk) (e : Nat) : Blk :=
  let x := b.eye e
  b.setEye e { x with rx := (x.rx + 1) % 4096, nakOut := false, lostSeq := none, got := true }

/-- The LENGTH of a received SOM needs more flits than its limit (R308). -/
def tooLong (d : DataFlit) : Bool :=
  let len := leNat ((d.pay.drop 2).take 2)
  d.som && decide ((if d.vc = 0 then 16 else 72) < (16 + len + 235) / 236)

/-- A DATA flit whose SEQ is the one expected (R308, R313, R325, R327): without credit it is discarded, within credit it goes to the normal or the coast buffer. -/
def Blk.dataIn (b : Blk) (e seq : Nat) (d : DataFlit) : Blk :=
  let x := b.eye e
  let paused := b.pausing e && bitOf (b.pauseMask e) d.vc
  if x.room.getD d.vc 0 = 0 then
    let b1 := (b.bump ⟨.EYE_CREDIT_ERR, e, 0⟩).eyeEvent e 3
    if paused then b1.setEye e { b1.eye e with lostSeq := some ((b1.eye e).lostSeq.getD seq) } else b1.badFlit e
  else
    let long := tooLong d
    let drop := long || (bitOf x.skip d.vc && !d.som)
    let b1 := (b.seqTaken e).bump ⟨.EYE_RX_FLITS, e, 0⟩
    let y := { b1.eye e with skip := setBit x.skip d.vc (drop && !d.eom), room := setAt x.room d.vc (x.room.getD d.vc 0 - 1) }
    if drop then
      let b2 := b1.setEye e { y with back := setAt y.back d.vc (y.back.getD d.vc 0 + 1) }
      if long then b2.bump ⟨.EYE_FLIT_ERR_CNT, e, 0⟩ else b2
    else if paused then
      let n := y.coast.length + 1
      let r : RegRef := ⟨.EYE_COAST_STAT, e, 0⟩
      ((b1.setEye e { y with coast := y.coast ++ [d] }).wf r Fld.EYE_COAST_STAT_FILL n).wf r Fld.EYE_COAST_STAT_PEAK
        (max n (b1.rf r Fld.EYE_COAST_STAT_PEAK))
    else b1.setEye e { y with buf := y.buf ++ [d] }

/-- A good flit of ALIGN: after 64 in a row the lock holds, and IDENTIFY begins (R319). -/
def Blk.goodFlit (b : Blk) (e : Nat) : Blk :=
  let x := b.eye e
  if b.eyeState e = 3 then
    let b1 := b.setEye e { x with lock := x.lock + 1 }
    if 64 ≤ x.lock + 1 then b1.setEyeState e 4 else b1
  else b

/-- A good flit received before service: it counts for the lock of ALIGN. -/
def Blk.trainFlit (b : Blk) (e : Nat) (h : RxHead) : Blk := (b.flitSeen e h.fix).goodFlit e

/-- The states in which flits arrive: ALIGN and IDENTIFY, service, retrain. -/
def Blk.eyeHears (b : Blk) (e : Nat) : Bool := b.eyeFlits e || decide (b.eyeState e = 3) || decide (b.eyeState e = 4)

/-- A sequenced CTRL flit received: what it carries acts once it is the one expected. In training it is a good flit as another. -/
def Blk.ctrlIn (b : Blk) (e : Nat) (h : RxHead) (act : Blk → Blk) : Blk :=
  if !b.eyeFlits e then (if b.eyeHears e then b.trainFlit e h else b) else (b.rxHead e h).inSeq e h.seq (fun c => act (c.seqTaken e))

/-- IDLE_FLIT (R303): ACK and credit return. -/
def Blk.idleFlit (b : Blk) (e : Nat) (h : RxHead) : Blk :=
  if b.eyeFlits e then b.rxHead e h else if b.eyeHears e then b.trainFlit e h else b

/-- DATA_FLIT (R302 to R313): the flit's bytes decoded, then its sequence and what it carries. A flit of another type gives its ACK and credit return: what a CTRL flit carries has rows of its own. -/
def Blk.dataFlit (b : Blk) (e : Nat) (raw : List Byte) : Blk :=
  if !b.eyeHears e then b
  else
    let z := flitDecode raw
    let w := leNat ((z.1.getD []).take 8)
    let h := FlitHead.parse w
    if z.1.isNone || decide (h.typ = 3) || decide (2 ^ 43 ≤ w) then ((b.flitSeen e z.2).bump ⟨.EYE_FLIT_ERR_CNT, e, 0⟩).badFlit e
    else if h.typ ≠ 1 ∨ !b.eyeUp e then b.idleFlit e { seq := h.seq, ack := h.ack, crVc := h.crVc, crCnt := h.crCnt, fix := z.2 }
    else
      ((b.flitSeen e z.2).flitHeader e h.ack h.crVc h.crCnt).inSeq e h.seq (fun c =>
        c.dataIn e h.seq { vc := b.wireVc e h.vc, som := h.som, eom := h.eom, pay := (((z.1.getD []).drop 8).take 236) })

/-- Flits of a channel up to and with its first EOM. -/
def takeMsg (vc : Nat) : List DataFlit → List DataFlit × Nat
  | [] => ([], 0)
  | f :: fs =>
    if f.vc ≠ vc then
      let r := takeMsg vc fs
      (f :: r.1, r.2)
    else if f.eom then (fs, 1)
    else
      let r := takeMsg vc fs
      (r.1, r.2 + 1)

/-- The oldest whole message of a channel leaves the receive buffer for the lacing engine, and its flits' credits are returned (R313). -/
def Blk.eyeTake (b : Blk) (e vc : Nat) : Blk :=
  let x := b.eye e
  if x.buf.any (fun f => f.vc == vc && f.eom) then
    let r := takeMsg vc x.buf
    b.setEye e { x with buf := r.1, back := setAt x.back vc (x.back.getD vc 0 + r.2) }
  else b

/-- The channel on which a received message stands: that of its kind, or VC6 for one that an older peer sent before its link left service. -/
def Blk.takeVc (b : Blk) (e vc : Nat) : Nat :=
  let on (v : Nat) : Bool := (b.eye e).buf.any (fun f => f.vc == v && f.eom)
  if vc ≠ 0 ∧ b.rf (eyeReg e) Fld.EYE_STATE_REV = 0 ∧ on vc = false ∧ on 6 = true then 6 else b.eyeVc e vc

/-- The bytes of the oldest message of a channel. -/
def frontBytes (vc : Nat) : List DataFlit → List Byte
  | [] => []
  | f :: fs => if f.vc ≠ vc then frontBytes vc fs else if f.eom then f.pay else f.pay ++ frontBytes vc fs

/-- The bytes received spell the message (R307): the header with its reserved bits apart, and the body of LENGTH bytes. -/
def Msg.spelt (m : Msg) (xs : List Byte) : Bool :=
  let ys := m.bytes
  let ones : List Byte := (xs.set 1 (xs.getD 1 0 &&& 1)).set 6 (xs.getD 6 0 &&& 3)
  decide (ys.length ≤ xs.length) && ones.take ys.length == ys

/-- The operand of a command that handles a message is what stands in the receive buffer: the oldest whole message of its eyelet and channel. Where none stands there, the command brings the message itself
(log entry 42). -/
def Blk.msgArrived (b : Blk) (e : Nat) (m : Msg) : Bool :=
  let vc := b.takeVc e m.vc
  let x := b.eye e
  !x.buf.any (fun f => f.vc == vc && f.eom) || m.spelt (frontBytes vc x.buf)

/-! ### The transmitter (R314) -/

/-- A NOW suspension in effect starts no new message on an eyelet of its partition but on VC0: every flow coasts to its chunk boundary (R291, R369; log entry 214). -/
def Blk.coasting (b : Blk) (e vc : Nat) : Bool :=
  decide (vc ≠ 0) && match b.partOfEye e with
    | some p => (b.part p).any (fun x => decide (x.step.susp = 3) || (decide (x.step.susp = 2 ∧ x.step.state = 1) && !x.step.sent))
    | none => false

/-- Channels that could send a DATA flit now: a flit waits, a credit is held, and neither the peer's pause nor a suspension holds a new message. -/
def Blk.ready (b : Blk) (e vc : Nat) : Bool :=
  let x := b.eye e
  match x.queue.find? (fun f => f.vc == vc) with
  | none => false
  | some f => decide (x.cred.getD vc 0 ≠ 0) && !(f.som && (bitOf (b.rf ⟨.EYE_PAUSE, e, 0⟩ Fld.EYE_PAUSE_PEER_MASK) vc || b.coasting e vc))

/-- The weight of a channel in a word of EYE_VC_WEIGHT. -/
def weightIn (w vc : Nat) : Nat := bits w (8 * vc) 8

/-- Deficit round robin over VC1 to VC7: the channel served, with the deficits, its turn and the weights of the round after it. `w` are the weights of the round, `next` those
that the next round takes (R315). -/
def drr (ready : Nat → Bool) (next : Nat) : Nat → List Nat → Nat → Nat → Option (Nat × List Nat × Nat × Nat)
  | 0, _, _, _ => none
  | n + 1, def_, turn, w =>
    if ready turn ∧ def_.getD turn 0 ≠ 0 then some (turn, setAt def_ turn (def_.getD turn 0 - 1), turn, w)
    else
      let t := if 7 ≤ turn then 1 else turn + 1
      let w1 := if 7 ≤ turn then next else w
      let d0 := setAt def_ turn (if ready turn then def_.getD turn 0 else 0)
      drr ready next n (setAt d0 t (d0.getD t 0 + weightIn w1 t)) t w1

/-- The channel that sends next: VC0 within its limit, the weighted channels, a channel of weight 0, VC0 beyond its limit. -/
def Blk.pickVc (b : Blk) (e : Nat) : Option (Nat × List Nat × Nat × Nat) :=
  let x := b.eye e
  let next := b.rn ⟨.EYE_VC_WEIGHT, e, 0⟩
  let rd (v : Nat) : Bool := b.ready e v
  let vs := [1, 2, 3, 4, 5, 6, 7]
  if rd 0 && decide ((x.recent.filter id).length < 32) then some (0, x.deficit, x.turn, x.wts)
  else
    let w (v : Nat) : Bool := rd v && (decide (weightIn x.wts v ≠ 0) || decide (weightIn next v ≠ 0))
    match (if vs.any w then drr w next 16 x.deficit x.turn x.wts else none) with
    | some r => some r
    | none =>
      match vs.find? rd with
      | some v => some (v, x.deficit, x.turn, x.wts)
      | none => if rd 0 then some (0, x.deficit, x.turn, x.wts) else none

/-- The first flit of a channel taken from the queue. -/
def takeFlit (vc : Nat) : List DataFlit → List DataFlit
  | [] => []
  | f :: fs => if f.vc = vc then fs else f :: takeFlit vc fs

/-- The credit return of the next header: the lowest channel with credits to return; those of paused channels wait (R325). -/
def Blk.creditBack (b : Blk) (e : Nat) : Nat × Nat :=
  let x := b.eye e
  match (List.range 8).find? (fun v => decide (x.back.getD v 0 ≠ 0)) with
  | some v => (v, min 255 (x.back.getD v 0))
  | none => (0, 0)

/-- COAST_DONE follows once no message begun on a paused channel is unfinished (R326). -/
def Blk.coastReady (b : Blk) (e : Nat) : Bool :=
  (b.eye e).coastDue && decide ((b.eye e).open_ &&& b.rf ⟨.EYE_PAUSE, e, 0⟩ Fld.EYE_PAUSE_PEER_MASK = 0)

/-- The lanes that carry the transmitter's flits: those in service, or before service those that training may use. -/
def Blk.txLanes (b : Blk) (e : Nat) : List Nat :=
  let m := b.rf (eyeReg e) Fld.EYE_STATE_TX_LANES
  maskList (if m = 0 then 15 - b.rf ⟨.EYE_CFG, e, 0⟩ Fld.EYE_CFG_LANE_OFF else m) 4

/-- A flit leaves the port: its bytes, dealt onto the lanes (R305, R306), and counted among the last 256 flit times. -/
def Blk.flitOut (b : Blk) (e : Nat) (y : Eye) (v0 : Bool) (bytes : List Byte) : Blk :=
  { (b.setEye e { y with recent := (v0 :: y.recent).take 256, sent := y.sent + 1, line := laneDeal (b.txLanes e) y.sent bytes }) with readData := bytes }

/-- FLIT_TIME (R310, R314): the transmitter's choice of one flit. CTRL flits go first: those outside the sequence ahead even of a resend, the others once the resend has ended. In ALIGN, IDENTIFY and
RETRAIN CTRL flits alone pass; the first flit time after EQUALIZE begins ALIGN (log entry 46). A HELD eyelet sends what CTRL waits, and nothing after. The flit's bytes are what leaves the port. -/
def Blk.flitTime (b : Blk) (e : Nat) : Blk :=
  if !b.eyeHears e && decide (b.eyeState e ≠ 2) && !(decide (b.eyeState e = 8) && (b.eye e).ctrl != []) then b
  else
    let ba := if b.eyeState e = 2 then b.setEyeState e 3 else b
    let x0 := ba.eye e
    let b0 := if ba.eyeUp e && ba.coastReady e then ba.setEye e { x0 with ctrl := x0.ctrl ++ [.coastDone], coastDue := false } else ba
    let x := b0.eye e
    let cr := b0.creditBack e
    let x1 := { x with back := setAt x.back cr.1 (x.back.getD cr.1 0 - cr.2), room := setAt x.room cr.1 (x.room.getD cr.1 0 + cr.2) }
    let head (typ vc : Nat) (som eom unseq : Bool) (seq : Nat) : FlitHead :=
      { typ := typ, vc := b0.wireVc e vc, som := som, eom := eom, unseq := unseq, seq := seq, ack := if x.got then (x.rx + 4095) % 4096 else 0
        crVc := b0.wireVc e cr.1, crCnt := cr.2 }
    let idle := b0.flitOut e x1 false (flitBytes (head 0 0 false false false x.tx) [])
    let full := decide (1024 ≤ x.replay.length)
    let ctl := if b0.eyeState e = 3 then none else if decide (x.again ≠ 0 ∧ b0.eyeUp e) || full then x.ctrl.find? Ctrl.unseq else x.ctrl.head?
    match ctl with
    | some c =>
      let y := { x1 with ctrl := x.ctrl.erase c }
      let z := if c.unseq then y else { y with replay := x.replay ++ [.ctrl c], times := x.times ++ [0], tx := (x.tx + 1) % 4096 }
      b0.flitOut e z false (flitBytes (head 2 0 false false c.unseq x.tx) (b0.wireCtrl e c).pay)
    | none =>
      if !b0.eyeUp e then idle
      else if x.again ≠ 0 then
        let k := x.again - 1
        let t := x.times.getD k 0 + 1
        let y := { x1 with again := if k + 1 < x.replay.length then x.again + 1 else 0, times := setAt x.times k t }
        let go (h : FlitHead) (pay : List Byte) : Blk :=
          let c := b0.flitOut e y false (flitBytes h pay)
          if 8 ≤ t then c.eyeRetrain e else c
        match x.replay[k]? with
        | some (.data d) => go (head 1 d.vc d.som d.eom false ((x.base + k) % 4096)) d.pay
        | some (.ctrl c) => go (head 2 0 false false false ((x.base + k) % 4096)) (b0.wireCtrl e c).pay
        | none => idle
      else
        match (if full then none else b0.pickVc e) with
        | none => idle
        | some (vc, def_, turn, w) =>
          match x.queue.find? (fun f => f.vc == vc) with
          | none => idle
          | some d =>
            let y := { x1 with
              queue := takeFlit vc x.queue, cred := setAt x.cred vc (x.cred.getD vc 0 - 1), replay := x.replay ++ [.data d], times := x.times ++ [0]
              tx := (x.tx + 1) % 4096, deficit := def_, turn := turn, wts := w, open_ := setBit x.open_ vc (!d.eom) }
            (b0.flitOut e y (vc == 0) (flitBytes (head 1 vc d.som d.eom false x.tx) d.pay)).bump ⟨.EYE_TX_FLITS, e, 0⟩

/-! ### Heartbeats (R316) -/

/-- HEARTBEAT: a sequence not above the last one received means that the peer has reset; a gap counts the missing ones. -/
def Blk.heartbeat (b0 : Blk) (e : Nat) (h : RxHead) (seq : Nat) : Blk :=
  if !b0.eyeFlits e then b0
  else
    let b := b0.rxHead e h
    let x := b.eye e
    match x.hbRx with
    | none => b.setEye e { x with hbRx := some seq }
    | some q =>
      if seq ≤ q then b.eyeDown e 9
      else
        let b1 := b.setEye e { x with hbRx := some seq }
        if seq = q + 1 then b1 else (b1.bump ⟨.EYE_HB_MISS_CNT, e, 0⟩ (seq - q - 1)).eyeEvent e 4

/-- The state byte of a heartbeat: 0 running, 1 suspended, 2 paused, 3 preparing HOLD. -/
def Blk.hbState (b : Blk) (e : Nat) : Nat :=
  if b.pwr.coolStop && b.pausing e then 3
  else if b.pausing e then 2
  else match b.partOfEye e with
    | some p => if (b.part p).any (fun x => x.step.susp == 3) then 1 else 0
    | none => 0

/-- HEARTBEAT_SEND. -/
def Blk.heartbeatSend (b : Blk) (e : Nat) : Blk :=
  if !b.eyeUp e then b
  else
    let x := b.eye e
    (b.setEye e { x with hbTx := (x.hbTx + 1) % 2 ^ 32 }).eyeCtrl e (.heartbeat x.hbTx (b.hbState e))

/-! ### Training (R301, R318 to R321) -/

/-- The highest lane rate this end offers. -/
def Blk.ownRate (b : Blk) (e : Nat) : Nat :=
  let cap := b.rf ⟨.EYE_CFG, e, 0⟩ Fld.EYE_CFG_RATE_CAP
  min (if bitOf (b.rn ⟨.IDENT_FEATURE_EFF, 0, 0⟩) 7 then 3 else 2) (if cap = 1 then 2 else if cap = 2 then 1 else 3)

/-- The connector's cable stands in and the eyelet is enabled, and start-up has passed its WELT stage (R545); in management-only state no eyelet is started (R32). -/
def Blk.eyeArmed (b : Blk) (e : Nat) : Bool :=
  decide (4 ≤ b.stage) && decide (b.stage ≤ 5) && b.eyeExists e && decide (b.rf ⟨.EYE_CFG, e, 0⟩ Fld.EYE_CFG_ENABLE = 1) && decide (Sp.get 0 b.pins.cable (e / 8) = 1)

/-- The IDENTITY of this end, in the layout of EYE_PEER_ID (R320): revision 3, its highest rate, the lanes offered, the eyelet, IDENT_PART [31:0] and the SERIAL of IOD0. -/
def Blk.ownIdentity (b : Blk) (e : Nat) : BitVec 128 :=
  BitVec.ofNat 128 (3 + 2 ^ 4 * b.ownRate e + 2 ^ 8 * (15 - b.rf ⟨.EYE_CFG, e, 0⟩ Fld.EYE_CFG_LANE_OFF) + 2 ^ 16 * e +
    2 ^ 32 * (b.rn ⟨.IDENT_PART, 0, 0⟩ % 2 ^ 32) + 2 ^ 64 * bits (b.rn ⟨.IDENT_DIE, 0, iod0⟩) 32 32)

/-- What a try of DETECT finds. With a far end found, this end's IDENTITY and credits wait to be sent (R301, R319). -/
def Blk.detectGo (b : Blk) (e : Nat) (found : Option (Nat × Nat)) : Blk :=
  let r := eyeReg e
  match found with
  | none => b.setEyeState e 1
  | some (rev, rate) =>
    let b1 := ((b.setEyeState e 2).wf r Fld.EYE_STATE_RATE (min (b.ownRate e) rate)).wf r Fld.EYE_STATE_REV (min 3 rev)
    (b1.setEye e { b1.eye e with ctrl := [.identity (b.ownIdentity e)], lock := 0 }).advertise e

/-- DETECT_RETRY: a try of DETECT; an eyelet HELD by either end, but for a coolant stop, which the host's resumption ends, trains again (R329). A far end found gives (revision, highest rate): the link goes on to EQUALIZE at the common rate. -/
def Blk.detectRetry (b : Blk) (e : Nat) (found : Option (Nat × Nat)) : Blk :=
  let r := eyeReg e
  let st := b.eyeState e
  if b.eyeArmed e && decide (st = 8) && !(b.pwr.coolStop && decide (b.rf r Fld.EYE_STATE_HOLD_SENT = 1)) && found.isSome then
    ((b.eyeDown e 9).wf r Fld.EYE_STATE_HOLD_SENT 0).detectGo e found
  else if b.eyeArmed e && (decide (st = 1) || decide (st = 9) || decide (st = 0)) then b.detectGo e found
  else b

/-- One training has failed: back to DETECT, or FAILED after three in a row. -/
def Blk.trainFail (b : Blk) (e : Nat) : Blk :=
  let x := b.eye e
  if 2 ≤ x.fails then
    ((b.setEye e { x with fails := 0 }).eyeDown e 10).record { code := 0x0040, die := eyeDie e, data := [BitVec.ofNat 8 e] }
  else (b.setEye e { x with fails := x.fails + 1, ctrl := [], lock := 0 }).setEyeState e 1

/-- TRAINING_STAGE_TIMEOUT: full training starts again at DETECT; a retrain that fails puts the link DOWN. -/
def Blk.stageTimeout (b : Blk) (e : Nat) : Blk :=
  let st := b.eyeState e
  if st = 7 then b.eyeDown e 9
  else if st = 2 ∨ st = 3 ∨ st = 4 then b.trainFail e
  else b

/-- The fields of EYE_PEER_ID; its other bits are reserved and read 0 (R8, R330). -/
def peerIdMask : BitVec 128 := 0xFFFFFFFFFFFFFFFF00FF0FFF

/-- IDENTITY: the peer's identity, in the layout of EYE_PEER_ID. While this end still aligns it counts for the lock too; in service it is a sequenced flit like another (log entry 175). -/
def Blk.identity (b : Blk) (e : Nat) (h : RxHead) (id : BitVec 128) : Blk :=
  let st := b.eyeState e
  if st = 3 ∨ st = 4 then (b.trainFlit e h).wn ⟨.EYE_PEER_ID, e, 0⟩ (id &&& peerIdMask).toNat else b.ctrlIn e h (fun c => c)

/-- The credits that the peer advertises: the DATA flits it has not accepted, which are sent again, have spent theirs (R313). -/
def Blk.takeCredits (b : Blk) (e : Nat) (cr : List Nat) : Blk :=
  let x := b.eye e
  let out (v : Nat) : Nat := (x.replay.filter (fun f => match f with | .data d => d.vc == v | .ctrl _ => false)).length
  b.setEye e { x with cred := (List.range 8).map (fun v => (b.wireCredits e cr).getD v 0 - out v) }

/-- CREDIT_INIT: the peer's credits, in training; both ends re-advertise at a retrain too (R313), where the credits hold at once and the flit's place in the sequence is as another's
(log entry 175). -/
def Blk.creditInit (b : Blk) (e : Nat) (h : RxHead) (cr : List Nat) : Blk :=
  let st := b.eyeState e
  if st = 3 ∨ st = 4 then (b.trainFlit e h).takeCredits e cr
  else
    let b1 := b.ctrlIn e h (fun c => c)
    if st = 7 then b1.takeCredits e cr else b1

/-- The lanes of a direction that may serve: four, or three where the revision allows it. -/
def lanesOk (rev lanes : Nat) : Bool := maskPop lanes 4 == 4 || (decide (rev ≠ 1) && maskPop lanes 4 == 3)

/-- The cobbler's comparison of a peer with the cut (R368): an eyelet whose peer differs is excluded and recorded. -/
def Blk.checkPeer (b : Blk) (e : Nat) : Blk :=
  let cut : Option EyeCut := match b.partOfEye e with
    | some p => (b.part p).bind (fun x => x.last.bind (fun (l : Last) => l.cut.find? (fun c => c.eye == e)))
    | none => none
  let r : RegRef := ⟨.LAC_MISWIRED, eyeDie e, 0⟩
  let st : RegRef := ⟨.LAC_STATE, eyeDie e, 0⟩
  let peer := bits (b.rn ⟨.EYE_PEER_ID, e, 0⟩) 32 64
  let mark (c : Blk) (bad : Bool) : Blk :=
    let v := setBit (c.rn r) (e % 8) bad
    (c.wn r v).wf st Fld.LAC_STATE_MISWIRED (b2n (decide (v ≠ 0)))
  match cut with
  | none => mark b false
  | some c =>
    if c.ident = peer then mark b false
    else (mark b true).record { code := 0x0042, die := eyeDie e, data := [BitVec.ofNat 8 e] ++ leBytes 8 c.ident ++ leBytes 8 peer }

/-- PAUSE goes out (R324). -/
def Blk.pauseOut (b : Blk) (e mask : Nat) : Blk :=
  let r := eyeReg e
  let b1 := b.setEye e { b.eye e with tmoPast := false }
  (((b1.wf r Fld.EYE_STATE_PAUSING 1).wf r Fld.EYE_STATE_QUIESCED 0).wf r Fld.EYE_STATE_PAUSE_TMO 0).eyeCtrl e (.pause mask)

/-- EYELET_TRAINING_COMPLETE (R319 to R322, R368): the lanes that trained, left-out lanes apart. A pause set while the link had no service is sent now (log entry 176). -/
def Blk.trainingComplete (b : Blk) (e tx rx : Nat) : Blk :=
  let r := eyeReg e
  let st := b.eyeState e
  let rev := b.rf r Fld.EYE_STATE_REV
  let off := b.rf ⟨.EYE_CFG, e, 0⟩ Fld.EYE_CFG_LANE_OFF
  if !(decide (st = 4) || decide (st = 7)) then b
  else
    let keep (old new : Nat) : Nat := if st = 7 then old &&& new else new % 16 &&& (15 - off)
    let t := keep (b.rf r Fld.EYE_STATE_TX_LANES) tx
    let x := keep (b.rf r Fld.EYE_STATE_RX_LANES) rx
    if !(lanesOk rev t && lanesOk rev x) then (if st = 7 then b.eyeDown e 9 else b.trainFail e)
    else
      let b1 := ((b.setEyeState e (if t = 15 ∧ x = 15 then 5 else 6)).wf r Fld.EYE_STATE_TX_LANES t).wf r Fld.EYE_STATE_RX_LANES x
      let y := b1.eye e
      let three := !(decide (t = 15) && decide (x = 15))
      let z := { y with
        ctrl := y.ctrl.filter (fun c => match c with | .identity _ => false | .creditInit _ => false | _ => true), nakOut := false, three := three
        sent := if three && !y.three then 0 else y.sent, seen := if three && !y.three then 0 else y.seen }
      let b2 :=
        if st = 7 then b1.setEye e { z with again := if z.replay = [] then 0 else 1 }
        else b1.setEye e { z with tx := 0, rx := 0, base := 0, replay := [], again := 0, times := [], hbTx := 0, hbRx := none, hold := false, fails := 0, got := false, fresh := true }
      let b3 := if st = 4 ∧ b.pauseMask e ≠ 0 then b2.pauseOut e (b.pauseMask e) else b2
      (b3.wf r Fld.EYE_STATE_HOLD_SENT 0).eyeEvent e 0 |>.checkPeer e

/-- A write of EYE_CFG: ENABLE 0 holds the eyelet OFF; 1 starts training again after FAILED, and an eyelet that was held. -/
def Blk.eyeEnable (b : Blk) (e : Nat) : Blk :=
  if b.rf ⟨.EYE_CFG, e, 0⟩ Fld.EYE_CFG_ENABLE = 0 then (if b.eyeState e = 0 then b else b.eyeDown e 0)
  else if b.eyeArmed e && (decide (b.eyeState e = 0) || decide (b.eyeState e = 10)) then b.setEyeState e 1
  else b

/-- CABLE_INSERTED (R562): the enabled eyelets of the connector enter DETECT. -/
def Blk.cableIn (b : Blk) (i : Nat) : Blk :=
  let b1 := { b with pins := { b.pins with cable := Sp.set 0 b.pins.cable i 1 } }
  (List.range 8).foldl (fun c j => if c.eyeArmed (8 * i + j) then c.setEyeState (8 * i + j) 1 else c) b1

/-- CABLE_REMOVED (R562): the connector's eyelets are held in OFF. -/
def Blk.cableOut (b : Blk) (i : Nat) : Blk :=
  let b1 := { b with pins := { b.pins with cable := Sp.set 0 b.pins.cable i 0 } }
  (List.range 8).foldl (fun c j => c.eyeDown (8 * i + j) 0) b1

/-! ### Losing a lane (R322, R323) -/

/-- A lane of a direction leaves service: three lanes by a retrain, or the link goes DOWN. -/
def Blk.laneOut (b : Blk) (e lane : Nat) (tx : Bool) : Blk :=
  let r := eyeReg e
  let f := if tx then Fld.EYE_STATE_TX_LANES else Fld.EYE_STATE_RX_LANES
  let m := setBit (b.rf r f) lane false
  let b1 := (b.wf r f m).eyeEvent e 1
  if !lanesOk (b.rf r Fld.EYE_STATE_REV) m then b1.eyeDown e 9 else if b.eyeState e = 7 then b1 else b1.eyeRetrain e

/-- LANE_FAILURE: this end detects it on a receive lane and sends DEGRADE. -/
def Blk.laneFailure (b : Blk) (e lane : Nat) : Blk :=
  if b.eyeUp e && bitOf (b.rf (eyeReg e) Fld.EYE_STATE_RX_LANES) lane && decide (lane < 4) then
    (b.eyeCtrl e (.degrade lane false)).laneOut e lane false
  else b

/-- DEGRADE: the far end lost a lane; `tx` says that it is a transmit lane of this end. -/
def Blk.degrade (b : Blk) (e : Nat) (h : RxHead) (lane : Nat) (tx : Bool) : Blk :=
  let f := if tx then Fld.EYE_STATE_TX_LANES else Fld.EYE_STATE_RX_LANES
  b.ctrlIn e h (fun c => if bitOf (c.rf (eyeReg e) f) lane && decide (lane < 4) then c.laneOut e lane tx else c)

/-! ### Pause, coast, hold (R324 to R329) -/

/-- Coast flits of channels that `keep` does not hold go on to the normal buffers, behind what stands there: a channel's earlier flits come first (R328). -/
def Blk.coastOut (b : Blk) (e : Nat) (keep : Nat → Bool) : Blk :=
  let x := b.eye e
  let y := { x with buf := x.buf ++ x.coast.filter (fun f => !keep f.vc), coast := x.coast.filter (fun f => keep f.vc) }
  (b.setEye e y).wf ⟨.EYE_COAST_STAT, e, 0⟩ Fld.EYE_COAST_STAT_FILL y.coast.length

/-- This end pauses: PAUSE with a mask, which replaces an earlier one: the coast flits of a channel that it leaves out are delivered (log entry 176). Without a link the mask alone is set, and PAUSE follows
training. -/
def Blk.pauseSend (b : Blk) (e mask : Nat) : Blk :=
  let b1 := (b.wf ⟨.EYE_PAUSE, e, 0⟩ Fld.EYE_PAUSE_MASK mask).coastOut e (bitOf mask)
  if b.eyeFlits e then b1.pauseOut e mask else b1

/-- This end's pause ends (R327, R328): UNPAUSE goes out, the coast buffer is delivered first, and a SEQ discarded meanwhile is asked for. -/
def Blk.unpauseSend (b : Blk) (e : Nat) : Blk :=
  let r := eyeReg e
  if !b.pausing e then b.wf ⟨.EYE_PAUSE, e, 0⟩ Fld.EYE_PAUSE_MASK 0
  else
    let x := b.eye e
    let b0 := b.coastOut e (fun _ => false)
    let b1 := b0.setEye e { b0.eye e with lostSeq := none, tmoPast := false, nakOut := x.nakOut || x.lostSeq.isSome }
    let b2 := if !b.eyeFlits e then b1 else match x.lostSeq with
      | some q => ((b1.eyeCtrl e .unpause).eyeCtrl e (.nak q)).bump ⟨.EYE_NAK_CNT, e, 0⟩
      | none => b1.eyeCtrl e .unpause
    (((b2.wf ⟨.EYE_PAUSE, e, 0⟩ Fld.EYE_PAUSE_MASK 0).wf r Fld.EYE_STATE_PAUSING 0).wf r Fld.EYE_STATE_QUIESCED 0).wf r Fld.EYE_STATE_PAUSE_TMO 0

/-- EYE_PAUSE_WRITE (R324). -/
def Blk.eyePauseWrite (b : Blk) (e mask : Nat) : Blk := if mask % 256 = 0 then b.unpauseSend e else b.pauseSend e (mask % 256)

/-- PAUSE received (R326): no new message on the paused channels; COAST_DONE after the messages begun. -/
def Blk.pauseReceived (b : Blk) (e : Nat) (h : RxHead) (mask : Nat) : Blk :=
  b.ctrlIn e h (fun c =>
    ((c.setEye e { c.eye e with coastDue := true }).wf ⟨.EYE_PAUSE, e, 0⟩ Fld.EYE_PAUSE_PEER_MASK (c.wireMask e (mask % 256))).wf (eyeReg e) Fld.EYE_STATE_PAUSED 1)

/-- The peer's UNPAUSE received. -/
def Blk.unpauseReceived (b : Blk) (e : Nat) (h : RxHead) : Blk :=
  b.ctrlIn e h (fun c =>
    ((c.setEye e { c.eye e with coastDue := false }).wf ⟨.EYE_PAUSE, e, 0⟩ Fld.EYE_PAUSE_PEER_MASK 0).wf (eyeReg e) Fld.EYE_STATE_PAUSED 0)

/-- COAST_DONE received in order (R327). -/
def Blk.coastDone (b : Blk) (e : Nat) (h : RxHead) : Blk :=
  b.ctrlIn e h (fun c => if c.pausing e then c.wf (eyeReg e) Fld.EYE_STATE_QUIESCED 1 else c)

/-- PAUSE_TMO (R327): a timeout where COAST_DONE is still missing; for the HOLD of a quiesced eyelet (R329) the time has passed, and that is all. -/
def Blk.pauseTmo (b : Blk) (e : Nat) : Blk :=
  let r := eyeReg e
  if b.pausing e && decide (b.rf r Fld.EYE_STATE_QUIESCED = 0) && decide (b.rf r Fld.EYE_STATE_PAUSE_TMO = 0) then
    (((b.wf r Fld.EYE_STATE_PAUSE_TMO 1).bump ⟨.EYE_PAUSE_TMO_CNT, e, 0⟩).eyeEvent e 2).record
      { code := 0x0041, die := eyeDie e, data := [BitVec.ofNat 8 e] }
  else if b.pausing e && decide (b.rf r Fld.EYE_STATE_QUIESCED = 1) then b.setEye e { b.eye e with tmoPast := true }
  else b

/-- HOLD received (R329). -/
def Blk.holdReceived (b : Blk) (e : Nat) (h : RxHead) : Blk :=
  b.ctrlIn e h (fun c => (c.setEye e { c.eye e with hold := true }).setEyeState e 8)

/-- EYE_HOLD_WRITE (R329): the eyelet quiesced or timed out, and its replay buffer empty or PAUSE_TMO passed since PAUSE. -/
def Blk.eyeHold (b : Blk) (e : Nat) : Blk :=
  let r := eyeReg e
  let tmo := b.rf r Fld.EYE_STATE_PAUSE_TMO == 1 || (b.eye e).tmoPast
  if b.eyeUp e && (tmo || b.rf r Fld.EYE_STATE_QUIESCED == 1) && (tmo || decide ((b.eye e).replay = [])) then
    ((b.eyeCtrl e .hold).wf r Fld.EYE_STATE_HOLD_SENT 1).setEyeState e 8
  else b

/-- The eyelets of an I/O die. -/
def dieEyes (d : Nat) : List Nat := (List.range 8).map (fun j => 8 * (d - 4) + j)

end Sys2Proof.Machine
end

