-- ==== Sys2Proof/Machine/Security.lean ====
section
/-!
DEFINITION. Boot images, the boot ROM, measurement, attestation, debug access and firmware update (R510 to R533).
-/
namespace Sys2Proof.Machine

/-! ### Slot selector (R513) -/

/-- The selector in force: the copy with the higher sequence number. -/
def Sec.sel (x : Sec) : Selector := if x.selA.seq < x.selB.seq then x.selB else x.selA

/-- A change is written into the other copy, with the next sequence number. -/
def Sec.setSel (x : Sec) (n : Selector) : Sec :=
  let n' := { n with seq := (x.sel.seq + 1) % 2 ^ 32 }
  if x.selA.seq < x.selB.seq then { x with selA := n' } else { x with selB := n' }

def Selector.failCnt (x : Selector) (i : Nat) : Nat := x.fails.getD i 0
def Selector.isBad (x : Selector) (i : Nat) : Bool := x.bad.getD i false

/-- A failed slot (R515): its count rises; at 2 it is BAD, and a PENDING slot is then also removed from PENDING. -/
def Sec.slotFail (x : Sec) (i : Nat) : Sec :=
  let s := x.sel
  let n := min 3 (s.failCnt i + 1)
  let s1 := { s with fails := s.fails.set i n }
  if n < 2 then x.setSel s1
  else
    let s2 := { s1 with bad := s1.bad.set i true }
    if s.pending = i then ({ x with pendBad := true }).setSel { s2 with pending := 3 } else x.setSel s2

/-- The candidate slots of a boot in their order (R515); `cold` is the kind of reset, which decides whether a staged image is
a candidate (R521, ACTIVATE). -/
def Sec.candidates (x : Sec) (cold : Bool) : List Nat :=
  let s := x.sel
  let ok (i : Nat) : Bool := decide (i < 3) && decide (s.failCnt i < 2) && !s.isBad i && decide (x.svn ≤ s.svn.getD i 0)
  ((if x.pendCold = cold then [s.pending] else []) ++ [s.active, s.previous]).filter ok

/-! ### Images (R513, R514) -/

/-- A section entry of a manifest. -/
structure Section where
  type : Nat
  len  : Nat
  off  : Nat
  sha  : List Byte
deriving DecidableEq, Repr

/-- A manifest (R513). -/
structure Manifest where
  magic    : Nat
  rev      : Nat
  key      : Nat
  gen      : Nat
  svn      : Nat
  version  : Nat
  count    : Nat
  length   : Nat
  sections : List Section
deriving DecidableEq, Repr

def parseManifest (m : List Byte) : Manifest :=
  let u (off n : Nat) := leNat ((m.drop off).take n)
  { magic := u 0 4, rev := u 4 2, key := u 6 1, gen := u 7 1, svn := u 8 4, version := u 12 4, count := u 16 4, length := u 20 8
    sections := (List.range (min 16 (u 16 4))).map (fun i =>
      { type := u (32 + 48 * i) 2, len := u (36 + 48 * i) 4, off := u (40 + 48 * i) 8
        sha := (m.drop (48 + 48 * i)).take 32 }) }

/-- 72 MiB, the longest image (R513). -/
abbrev maxImage : Nat := 75497472

def Manifest.sec (m : Manifest) (t : Nat) : Option Section := m.sections.find? (fun s => s.type == t)

/-- One section of each type, each inside the image after the signature; die firmware at most 4 MiB. -/
def Manifest.layoutOk (m : Manifest) : Bool :=
  decide (1 ≤ m.count) && decide (m.count ≤ 16) &&
  [1, 2, 3, 4, 5, 6, 7].all (fun t => decide ((m.sections.filter (fun s => s.type == t)).length = 1)) &&
  m.sections.all (fun s => decide (30816 ≤ s.off) && decide (s.off + s.len ≤ m.length) &&
    (decide (s.type ≠ 3 ∧ s.type ≠ 4) || decide (s.len ≤ 4194304)))

/-- The checks of stage 3 (R514) on a manifest and its signature, with the status and DETAIL of R522 for the first that
fails. -/
def Sec.imageCheck (x : Sec) (man sig : List Byte) : Option (Status × Nat) :=
  let m := parseManifest man
  let pk := Config.imageKey (man ++ sig)
  if m.magic ≠ 0x4E4D5744 ∨ m.rev ≠ 1 ∨ m.layoutOk = false then some (.fwImageBad, 1)
  else if m.gen ≠ 3 then some (.fwImageBad, 2)
  else if m.svn < x.svn ∨ 64 < m.svn then some (.fwImageBad, 3)
  else if maxImage < m.length then some (.fwImageBad, 4)
  else if 4 ≤ m.key ∨ x.vendorKeys[m.key]? ≠ some (digestVal (sha256 pk)) ∨ x.revoked.getD m.key true = true then
    some (.authFailed, 7)
  else if Config.slhVerify256s pk man sig = false then some (.authFailed, 6)
  else none

/-- Where an image slot begins in the NOR (R513). -/
def slotBase (i : Nat) : Nat := 0x1000000 + 0x4800000 * i

def Sec.slotManifest (x : Sec) (i : Nat) : List Byte := x.nor.read (slotBase i) 1024
def Sec.slotSig (x : Sec) (i : Nat) : List Byte := x.nor.read (slotBase i + 1024) 29792

/-- A section's bytes hash to its manifest entry (R514 stage 5, R521 step 4). -/
def Sec.sectionOk (x : Sec) (i : Nat) (s : Section) : Bool :=
  decide (sha256 (x.nor.read (slotBase i + s.off) s.len) = s.sha)

/-- A section of the booted image hashes to its manifest entry when the firmware loads it (R514, sections 0x0005 to 0x0007). -/
def Sec.loadsOk (x : Sec) (t : Nat) : Bool := ((parseManifest (x.slotManifest x.booted)).sec t).all (fun s => x.sectionOk x.booted s)

/-- Stages 3 to 5 on a slot for every die: the manifest's checks and the hashes of sections 1, 2 and the dies' own. -/
def Sec.slotOk (x : Sec) (i : Nat) : Bool :=
  (x.imageCheck (x.slotManifest i) (x.slotSig i)).isNone &&
  (parseManifest (x.slotManifest i)).sections.all (fun s => decide (4 < s.type) || x.sectionOk i s)

/-! ### Measurements (R518, R519) -/

/-- The bytes of a measurement register. -/
def Blk.meas (b : Blk) (d i : Nat) : List Byte := leBytes 32 (b.rn ⟨.SEC_MEAS, d, i⟩)

/-- M ← SHA-256(M ‖ D). -/
def Blk.measExtend (b : Blk) (i : Nat) (dg : List Byte) (d : Nat) : Blk :=
  b.wn ⟨.SEC_MEAS, d, i⟩ (leNat (sha256 (b.meas d i ++ dg)))

/-- The dies of the part that answer. -/
def Blk.liveDies (b : Blk) : List Nat := (List.range 10).filter (fun d => b.pkg.sku.populated d && bitOf b.pkg.answered d)

/-- An extension that the firmware makes on every die (R519). -/
def Blk.measAll (b : Blk) (i : Nat) (dg : List Byte) : Blk :=
  b.liveDies.foldl (fun c d => c.measExtend i dg d) b

/-- The ROM's five extensions on one die (R518). -/
def Blk.measRom (b : Blk) (man : List Byte) (d : Nat) : Blk :=
  let m := parseManifest man
  let sha (t : Nat) : List Byte := ((m.sec t).map (·.sha)).getD []
  ((((b.measExtend 0 (Config.romDigest (if d < 4 then 1 else 2)) d).measExtend 1 (sha256 man) d).measExtend 2 (sha 2) d).measExtend
    3 (sha (if d < 4 then 3 else 4)) d).measExtend 4 (sha 1) d

/-! ### Boot ROM (R514 to R517, R524 to R526) -/

/-- The seeds of an SLH-DSA-SHA2-128f key from keying material (R524): 48 bytes. -/
def keySeeds (ikm : List Byte) : List Byte := hkdf256 ikm (ascii "TRAOTH-ID") 48

/-- The alias key's keying material over IOD0's registers (R525). -/
def Blk.aliasIkm (b : Blk) : List Byte :=
  hmac256 (leBytes 32 b.sec.uds.toNat)
    (ascii "TRAOTH-ALIAS" ++ b.meas iod0 1 ++ b.meas iod0 2 ++ b.meas iod0 3 ++ b.meas iod0 4)

/-- A slot that failed at boot: its count and the recorder entry (slot, stage, die). -/
def Blk.bootSlotFailed (b : Blk) (slot stage die : Nat) : Blk :=
  ({ b with sec := { b.sec.slotFail slot with candFails := b.sec.candFails ++ [slot] } }).record
    { code := 0x0002, die := die, data := [BitVec.ofNat 8 slot, BitVec.ofNat 8 stage, BitVec.ofNat 8 die] }

/-- Recovery mode (R517): RECOVERY_MODE is written, IDENT_PRESENT shows IOD0 alone with MGMT_ONLY set. -/
def Blk.recovery (b : Blk) : Blk :=
  let b1 := { b with sec := { b.sec with recovery := true, booted := 3 } }
  let b2 := ((b1.wn ⟨.IDENT_PRESENT, 0, 0⟩ (2 ^ iod0)).wf ⟨.IDENT_PRESENT, 0, 0⟩ Fld.IDENT_PRESENT_MGMT_ONLY 1).setStage 8
  let b3 := b2.wf ⟨.IDENT_START, 0, 0⟩ Fld.IDENT_START_FAIL (if b2.rf ⟨.IDENT_START, 0, 0⟩ Fld.IDENT_START_FAIL = 0 then 2
    else b2.rf ⟨.IDENT_START, 0, 0⟩ Fld.IDENT_START_FAIL)
  b3.record { code := 0x0006, die := iod0 }

/-- A slot that boots: measurements on every die, the alias key and its certificate, the UDS lock, the watchdog, and the
firmware's start. -/
def Blk.bootSlot (b : Blk) (slot : Nat) : Blk :=
  let man := b.sec.slotManifest slot
  let m := parseManifest man
  let cfg := ((m.sec 1).map (fun s => b.sec.nor.read (slotBase slot + s.off) s.len)).getD []
  let b1 := b.liveDies.foldl (fun c d => c.measRom man d) b
  let seeds := keySeeds b1.aliasIkm
  let pk := Config.slhPublic128f seeds
  { b1 with
    sec := { b1.sec with
      booted := slot, recovery := false, udsLocked := true, watchdog := true, key := m.key, fwVersion := m.version
      aliasSeed := seeds, aliasCert := slotPut b1.sec.aliasCert slot (digestVal (sha256 pk))
      bootCfg := { roles := Config.bootRoles cfg, seats := Config.bootSeats cfg, hb := Config.bootHb cfg
                   unlock := (Config.bootUnlock cfg).take 4 } } }

/-- The candidates tried in order; `fails` are the failures that the dies report, as (slot, stage, die). -/
def Blk.bootTry (b : Blk) (fails : List (Nat × Nat × Nat)) : List Nat → Blk
  | [] => b.recovery
  | slot :: rest =>
    match fails.find? (fun f => f.1 == slot) with
    | some f => (b.bootSlotFailed slot f.2.1 f.2.2).bootTry fails rest
    | none => if b.sec.slotOk slot then (b.bootSlot slot).setStage 2 else (b.bootSlotFailed slot 3 iod0).bootTry fails rest

/-- The recorder's owner takes the bus at boot (R534, R542): IOD0, else CD0; the devices are in service, and a clear cut off
by a power loss is completed (R538). `retired` devices stay out until the next cold reset. -/
def Blk.recOwn (b : Blk) (o : Nat) (ok0 ok1 : Bool) : Blk :=
  let r : RegRef := ⟨.REC_STATE, o, 0⟩
  let b1 := (({ b with recd := { b.recd with owner := o } }).wf r Fld.REC_STATE_OWNER 1).wf r Fld.REC_STATE_DEV0_OK (b2n ok0)
  let b2 := b1.wf r Fld.REC_STATE_DEV1_OK (b2n ok1)
  if b2.recd.oldestSeq ≤ b2.recd.cleared ∧ b2.recd.cleared ≠ 0 then b2.recErase b2.recd.cleared else b2

/-- BOOT_ROM (R514, R515, R517, R518, R544): `fails` lists the stage failures that dies report beyond what the image's own
checks find. -/
def Blk.bootRom (b : Blk) (fails : List (Nat × Nat × Nat)) : Blk :=
  let cold := decide (b.rf ⟨.IDENT_START, 0, 0⟩ Fld.IDENT_START_CAUSE < 3)
  let owner := if bitOf b.pkg.answered iod0 then iod0 else 0
  let old : RegRef := ⟨.REC_STATE, b.recd.owner, 0⟩
  let ok0 := cold || decide (b.rf old Fld.REC_STATE_OWNER = 0) || decide (b.rf old Fld.REC_STATE_DEV0_OK = 1)
  let ok1 := cold || decide (b.rf old Fld.REC_STATE_OWNER = 0) || decide (b.rf old Fld.REC_STATE_DEV1_OK = 1)
  let b1 := (b.setStage 1).recOwn owner ok0 ok1
  let b2 := b1.wn ⟨.IDENT_PART, 0, 0⟩ b1.pkg.sku.identPart
  if bitOf b.pkg.answered iod0 then ({ b2 with sec := { b2.sec with candFails := [] } }).bootTry fails (b2.sec.candidates cold) else b2.setStage 2

/-- Boot good's effect on the selector (R516). -/
def Blk.bootGood (b : Blk) : Blk :=
  let x := b.sec
  let s := x.sel
  let b0 := { b with sec := { x with watchdog := false } }
  if x.booted = s.pending ∧ s.pending < 3 then
    let n := s.svn.getD x.booted 0
    let b1 := { b0 with sec := ({ b0.sec with pendBad := false }).setSel { s with previous := s.active, active := s.pending, pending := 3 } }
    let b2 := if x.svn < n then
        ({ b1 with sec := { b1.sec with svn := n } }).record { code := 0x0007, die := iod0, data := leBytes 4 n } else b1
    b2.record { code := 0x0004, die := iod0, data := [BitVec.ofNat 8 x.booted] }
  else if x.booted = s.active ∧ s.active < 3 then
    let b1 := { b0 with sec := ({ b0.sec with pendBad := false }).setSel { s with fails := s.fails.set x.booted 0 } }
    if x.pendBad then b1.record { code := 0x0005, die := iod0, data := [BitVec.ofNat 8 x.booted] } else b1
  else if x.booted = s.previous ∧ s.previous < 3 ∧ s.isBad s.active = true then
    let b1 := { b0 with sec := ({ b0.sec with pendBad := false }).setSel { s with active := s.previous, previous := 3 } }
    b1.record { code := 0x0005, die := iod0, data := [BitVec.ofNat 8 x.booted] }
  else b0

/-! ### Firmware update (R520 to R523) -/

/-- The slot that FW_UPDATE writes (R517, R520): in recovery mode the one that failed first, else the lowest that is neither
ACTIVE nor PREVIOUS. -/
def Sec.target (x : Sec) : Nat :=
  if x.recovery then x.candFails.headD 0
  else ((List.range 3).find? (fun i => i != x.sel.active && i != x.sel.previous)).getD 2

/-- The work of one FW_UPDATE (R521): `img` is the image as read from the host. Ends the operation with OK, or with the status
and DETAIL of R522. -/
def Blk.fwRun (b : Blk) (o : LongOp) : Blk :=
  match (b.scatter o.scatter o.nScatter) with
  | none => b.setOp { o with st := .running, ended := true, status := Status.badHostAddress.code }
  | some e =>
    let img := b.scatterRead e
    let man := img.take 1024
    let slot := b.sec.target
    let m := parseManifest man
    let x0 := b.sec.setSel { b.sec.sel with pending := 3 }
    match b.sec.imageCheck man ((img.drop 1024).take 29792) with
    | some (st, d) => { b with sec := x0 }.setOp { o with st := .running, ended := true, status := st.code, detail := d }
    | none =>
      let x1 := { x0 with nor := x0.nor.write (slotBase slot) (img.take m.length ++ List.replicate (m.length - img.length) 0) }
      if m.sections.all (fun s => x1.sectionOk slot s) then
        let s := x1.sel
        let x2 := { x1.setSel { s with pending := slot, fails := s.fails.set slot 0, bad := s.bad.set slot false
                                       svn := s.svn.set slot m.svn } with pendCold := decide (o.activate = 0) }
        let b1 := ({ b with sec := x2 }).record { code := 0x0003, die := b.master, data := [BitVec.ofNat 8 slot] }
        (b1.measAll 7 (sha256 man)).setOp { o with
          st := .running, ended := true, slot := slot, result := [(16, 4, m.length)] }
      else
        { b with sec := x1 }.setOp { o with st := .running, ended := true, status := Status.fwImageBad.code, detail := 5 }

/-- FW_UPDATE (R520, R521, R479): accepted, and QUEUED behind another FW_UPDATE. -/
def Blk.fwUpdate (b : Blk) (f m : Nat) : Blk :=
  if !b.canTake f m then b
  else
    let r := b.reqOf f m
    if r.code ≠ 0x62 then b
    else
      let payBad := !r.reservedOk [(4, 4), (8, 8), (16, 1)] || decide (1 < r.u 16 1)
      match b.judge r false false payBad false b.opsBusy with
      | some st => b.reply r st 0 []
      | none =>
        let waits := b.mbx.ops.any (fun o => o.kind == .fwUpdate && !o.st.final)
        let b1 := b.accept r { handle := 0, fn := f, mbx := m, kind := .fwUpdate, part := 0xFF
                               st := if waits then .queued else .running
                               scatter := r.u 8 8, nScatter := r.u 4 4, activate := r.u 16 1 }
        if waits then b1
        else match b1.mbx.ops.getLast? with
          | some o => b1.fwRun o
          | none => b1

/-- A FW_UPDATE that waited starts when the one before it has reached its final state. -/
def Blk.fwNext (b : Blk) : Blk :=
  if b.mbx.ops.any (fun o => o.kind == .fwUpdate && o.st == .running) then b
  else match b.mbx.ops.find? (fun o => o.kind == .fwUpdate && o.st == .queued) with
    | some o => b.fwRun { o with st := .running }
    | none => b

/-! ### Attestation (R527) -/

/-- The report with its signature. -/
def Blk.attestReport (b : Blk) (fn : Nat) (nonce : List Byte) : List Byte :=
  let guar (p : Nat) : Nat := if fn = 0 ∨ p + 1 = fn then ((b.part p).map (·.guar)).getD 0 else 0
  let die (p : Nat) : List Byte := leBytes 16 (b.rn ⟨.IDENT_DIE, 0, p⟩) ++ ((List.range 8).map (fun i => b.meas p i)).flatten ++
    List.replicate 16 0
  let cert := Config.aliasCert (Config.slhPublic128f b.sec.aliasSeed)
  let tail := leBytes 4 cert.length ++ cert ++ leBytes 4 Config.identityCert.length ++ Config.identityCert
  let total := 3008 + tail.length + 17088
  let head := leBytes 4 0x54535441 ++ leBytes 2 1 ++ leBytes 2 (b2n (bitOf b.sec.scopes 0) + 2 * b2n b.sec.unlocked) ++
    leBytes 4 total ++ nonce ++ leBytes 8 (b.rn ⟨.IDENT_PART, 0, 0⟩) ++ leBytes 4 (b.rn ⟨.IDENT_PRESENT, 0, 0⟩) ++
    leBytes 4 b.sec.fwVersion ++ leBytes 4 b.sec.svn ++ leBytes 4 b.recd.bootCnt ++ leBytes 8 b.recd.nextSeq ++
    [BitVec.ofNat 8 fn, 0, 0, 0] ++ ((List.range 8).map (fun p => leBytes 4 (guar p))).flatten ++ List.replicate 16 0
  let body := head ++ ((List.range 10).map die).flatten ++ tail
  body ++ Config.slhSign128f b.sec.aliasSeed body

/-- ATTEST (R527): the report is signed over the state of this moment; it reaches the host when the operation commits. -/
def Blk.attest (b : Blk) (f m : Nat) : Blk :=
  if !b.canTake f m then b
  else
    let r := b.reqOf f m
    if r.code ≠ 0x63 then b
    else
      let payBad := !r.reservedOk [(0, 44)] || decide (r.u 40 4 < 131072)
      match b.judge r false false payBad false b.opsBusy with
      | some st => b.reply r st 0 []
      | none =>
        let rep := b.attestReport f (r.pay.take 32)
        b.accept r { handle := 0, fn := f, mbx := m, kind := .attest, part := 0xFF, st := .running, ended := true
                     scatter := r.u 32 8, buf := rep, result := [(16, 4, rep.length)] }

/-! ### Debug access (R528 to R532, R539) -/

/-- UNLOCK_CHALLENGE (R528): a fresh nonce replaces the old challenge; refused after eight consecutive failures (R530). -/
def Blk.unlockChallenge (b : Blk) (f m : Nat) : Blk :=
  if !b.canTake f m then b
  else
    let r := b.reqOf f m
    if r.code ≠ 0x60 then b
    else
      match b.judge r (decide (8 ≤ b.rn ⟨.SEC_UNLOCK_FAIL, iod0, 0⟩)) false (!r.reservedOk []) false false with
      | some st => b.reply r st 0 []
      | none =>
        let n := Config.entropy b.fresh
        let b1 := ({ b with sec := { b.sec with nonce := some n } }).tick
        b1.reply r .ok 0 (leBytes 32 n.toNat ++ leBytes 4 (bits (b.rn ⟨.IDENT_DIE, 0, iod0⟩) 32 32) ++
          leBytes 8 (b.rn ⟨.IDENT_PART, 0, 0⟩) ++ [BitVec.ofNat 8 b.sec.scopes, 0, 0, 0] ++ leBytes 4 b.recd.bootCnt ++ leBytes 4 300)

/-- DET clears in every partition that holds a last (R409, R532). -/
def Blk.clearDet (b : Blk) : Blk :=
  { b with parts := b.parts.map (fun p => if p.2.loaded then (p.1, { p.2 with guar := setBit p.2.guar 0 false }) else p) }

/-- FIN_ONLY clears in every partition (R532: any write through the debug window). -/
def Blk.clearFinOnly (b : Blk) : Blk :=
  { b with parts := b.parts.map (fun p => (p.1, { p.2 with guar := setBit p.2.guar 2 false })) }

/-- Every scope closes (R531). -/
def Blk.scopesClose (b : Blk) : Blk :=
  if b.sec.scopes = 0 then b
  else
    (({ b with sec := { b.sec with scopes := 0, grantKey := 0 } }).wn ⟨.SEC_UNLOCK_LEFT, iod0, 0⟩ 0).record
      { code := 0x0012, die := iod0 }

/-- A response that is not accepted (R530). -/
def Blk.unlockRefuse (b : Blk) (r : Req) : Blk :=
  (((({ b with sec := { b.sec with nonce := none } }).bump ⟨.SEC_UNLOCK_FAIL, iod0, 0⟩).record
    { code := 0x0011, die := iod0 })).reply r .authFailed 0 []

/-- UNLOCK_RESPONSE with a signed response (R529, R530, R532). -/
def Blk.unlockResponse (b : Blk) (f m : Nat) : Blk :=
  if !b.canTake f m then b
  else
    let r := b.reqOf f m
    if r.code ≠ 0x61 ∨ r.u 8 4 = 0 then b
    else
      match b.judge r false false (!r.reservedOk [(0, 12)] || decide (r.u 8 4 ≠ 29908)) false false with
      | some st => b.reply r st 0 []
      | none =>
        match b.hostRead (r.u 0 8) 29908 with
        | none => b.reply r .badHostAddress 0 []
        | some x =>
          let u (off n : Nat) := leNat ((x.drop off).take n)
          let key := digestVal (sha256 ((x.drop 52).take 64))
          let sc := u 44 1
          let keyOk := ((b.sec.vendorKeys.zip b.sec.revoked).any (fun k => decide (k.1 = key) && !k.2)) ||
            b.sec.bootCfg.unlock.contains key
          let ok := decide (u 0 4 = 0x4B4C4E55) && decide (b.sec.nonce = some (digestVal ((x.drop 4).take 32))) &&
            decide (u 36 4 = bits (b.rn ⟨.IDENT_DIE, 0, iod0⟩) 32 32) &&
            decide (u 40 4 = b.rn ⟨.IDENT_PART, 0, 0⟩ % 2 ^ 32) && decide (1 ≤ sc) && decide (sc ≤ 7) &&
            decide (1 ≤ u 48 4) && decide (u 48 4 ≤ 86400) && keyOk &&
            Config.slhVerify256s ((x.drop 52).take 64) (x.take 116) (x.drop 116)
          if !ok then b.unlockRefuse r
          else
            let b1 := { b with sec := { b.sec with
              nonce := none, scopes := b.sec.scopes ||| sc, grantKey := key.toNat % 2 ^ 64, unlocked := true } }
            let b2 := ((b1.wn ⟨.SEC_UNLOCK_LEFT, iod0, 0⟩ (u 48 4)).wn ⟨.SEC_UNLOCK_FAIL, iod0, 0⟩ 0).measAll 5 (sha256 (x.take 52))
            let b3 := if bitOf sc 0 && !bitOf b.sec.scopes 0 then b2.clearDet else b2
            (b3.record { code := 0x0010, die := iod0, data := leBytes 4 sc ++ leBytes 8 (key.toNat % 2 ^ 64) }).reply r .ok 0 []

/-- UNLOCK_RESPONSE with a byte count of 0 (R531): closes every scope, and extends register 5 with an all-zero block's digest
(R518). -/
def Blk.relock (b : Blk) (f m : Nat) : Blk :=
  if !b.canTake f m then b
  else
    let r := b.reqOf f m
    if r.code ≠ 0x61 ∨ r.u 8 4 ≠ 0 then b
    else
      match b.judge r false false (!r.reservedOk [(0, 12)]) false false with
      | some st => b.reply r st 0 []
      | none => (b.scopesClose.measAll 5 (sha256 (List.replicate 52 0))).reply r .ok 0 []

/-- UNLOCK_EXPIRY (R531): the duration of the open scopes ends. -/
def Blk.unlockExpiry (b : Blk) : Blk := b.scopesClose

/-- CHALLENGE_EXPIRY (R528): the challenge lapses after 300 s. -/
def Blk.challengeExpiry (b : Blk) : Blk := { b with sec := { b.sec with nonce := none } }

/-- SEC_FAILED_CLEAR (R539). -/
def Blk.secFailedClear (b : Blk) (v : Nat) : Blk :=
  if bitOf b.sec.scopes 0 && bitOf b.sec.scopes 2 then
    if bitOf v 0 then
      ({ b with sec := { b.sec with failedA := [], failedB := [] } }).record { code := 0x0014, die := iod0 }
    else b
  else b.bump ⟨.SEC_DBG_DENY_CNT, iod0, 0⟩

end Sys2Proof.Machine
end

