-- ==== Sys2Proof/Machine/Package.lean ====
section
/-!
DEFINITION. Floor plans, routes, discovery, the welt and the package master (chapter 01).
-/
namespace Sys2Proof.Machine

/-- The discovery order (R33), by position code. -/
def discoveryOrder : List Nat := [4, 0, 1, 2, 3, 5, 6, 7, 8, 9]

/-- A die's place in the discovery order. -/
def discRank (d : Nat) : Nat := discoveryOrder.idxOf d

/-- The position of the open seat. -/
abbrev seatPos : Nat := 9

/-- What an edge of a compute die faces, north, east, south, west (R14, R15); 15 for none. -/
def edgeFaces (k : Sku) (d : Nat) : List Nat :=
  if k.cds = 4 then
    match d with
    | 0 => [4, 1, 2, 8] | 1 => [5, 9, 3, 0] | 2 => [0, 3, 6, 8] | 3 => [1, 9, 7, 2] | _ => []
  else
    match d with
    | 0 => [4, 1, 6, 15] | 1 => [5, 15, 6, 0] | _ => []

/-- The rim links of the floor plan (R14, R15). -/
def rimLinks (k : Sku) : List (Nat × Nat) :=
  if k.cds = 4 then [(4, 5), (5, 9), (9, 7), (7, 6), (6, 8), (8, 4)] else [(4, 5)]

/-- The ports of a die: (neighbour, modules) in module order. A compute die's modules run by edge, north first, 16 each; an I/O
die's run over the compute dies it faces in ascending position, 16 each, then its rim links in ascending position, 8 each
(the manual gives no numbering; log entry 13). -/
def ports (k : Sku) (d : Nat) : List (Nat × Nat) :=
  if d < 4 then (edgeFaces k d).map (fun n => (n, 16))
  else
    ((List.range k.cds).filter (fun c => (edgeFaces k c).contains d)).map (fun c => (c, 16)) ++
    ((List.range 10).filter (fun x => (rimLinks k).contains (d, x) || (rimLinks k).contains (x, d))).map (fun x => (x, 8))

/-- The module numbers of a die with the neighbour each faces. -/
def modulesOf (k : Sku) (d : Nat) : List (Nat × Nat) :=
  (((ports k d).map (fun p => List.replicate p.2 p.1)).flatten).zipIdx.map (fun x => (x.2, x.1))

/-- Dies that are neighbours by the floor plan. -/
def neighbours (k : Sku) (d : Nat) : List Nat := ((ports k d).map (·.1)).filter (fun n => k.populated n)

/-- The modules of a die that face a neighbour, in order; the i-th of one end is bonded to the i-th of the other. -/
def facing (k : Sku) (a c : Nat) : List Nat := ((modulesOf k a).filter (fun m => m.2 == c)).map (·.1)

/-- Two dies that are up are joined where some module between them is sound at both ends, by a test `ok` of a module. -/
def Blk.joined (b : Blk) (ok : Nat → Nat → Bool) (up : Nat → Bool) (a c : Nat) : Bool :=
  (neighbours b.pkg.sku a).contains c && up a && up c &&
  ((facing b.pkg.sku a c).zip (facing b.pkg.sku c a)).any (fun m => ok a m.1 && ok c m.2)

/-- A module that carries traffic: ACTIVE, with repaired lanes or without. -/
def Blk.modLive (b : Blk) (d m : Nat) : Bool :=
  let st := b.rf ⟨.WLT_MOD_STATE, d, m⟩ Fld.WLT_MOD_STATE_STATE
  decide (st = 2) || decide (st = 3)

/-- A module that has a role: before the mainband trains, its link is the one that the sideband found live (R29). -/
def Blk.modRoled (b : Blk) (d m : Nat) : Bool := decide (b.rf ⟨.WLT_MOD_STATE, d, m⟩ Fld.WLT_MOD_STATE_ROLE ≠ 0)

/-- A link is active while some module between the two dies carries traffic at both ends (neither FAILED nor OFF). -/
def Blk.linkActive (b : Blk) (up : Nat → Bool) (a c : Nat) : Bool := b.joined b.modLive up a c

/-- Walks of exactly `n` hops from `a` to `c`, in ascending order of their intermediate dies. -/
def walks (adj : Nat → List Nat) : Nat → Nat → Nat → List (List Nat)
  | 0, a, c => if a = c then [[]] else []
  | n + 1, a, c => ((adj a).map (fun x => (walks adj n x c).map (fun w => x :: w))).flatten

/-- The route of R22: the shortest path of at most four hops; of tied paths the one whose position code is lower at the first
hop where they differ. -/
def routeOf (adj : Nat → List Nat) (a c : Nat) : Option (List Nat) :=
  match walks adj 1 a c with
  | w :: _ => some w
  | [] => match walks adj 2 a c with
    | w :: _ => some w
    | [] => match walks adj 3 a c with
      | w :: _ => some w
      | [] => (walks adj 4 a c).head?

/-- Adjacency over links sound by a test of modules, ascending. -/
def Blk.adj (b : Blk) (ok : Nat → Nat → Bool) (up : Nat → Bool) (a : Nat) : List Nat := (List.range 10).filter (fun c => b.joined ok up a c)

/-- The master's routes written into WLT_ROUTE of every die that is up, over links sound by a test of modules (R22). -/
def Blk.routesOver (b : Blk) (ok : Nat → Nat → Bool) (up : Nat → Bool) : Blk :=
  let table := (List.range 10).map (fun a => b.adj ok up a)
  let adj (a : Nat) : List Nat := table.getD a []
  ((List.range 10).filter up).foldl (fun c a =>
    (List.range 10).foldl (fun c p =>
      if p = a then c
      else match (if up p then routeOf adj a p else none) with
        | some w => c.wn ⟨.WLT_ROUTE, a, p⟩ (w.headD 15 + 16 * w.length)
        | none => c.wn ⟨.WLT_ROUTE, a, p⟩ 0xF) c) b

/-- The routes over the active links (R22, R38, R41). -/
def Blk.installRoutes (b : Blk) (up : Nat → Bool) : Blk := b.routesOver b.modLive up

/-- A die that is present and not fenced. -/
def Blk.up (b : Blk) (d : Nat) : Bool := b.present d && !b.fenced d

/-- An identity word's fields (R28). -/
def idKind (w : Nat) : Nat := bits w 0 4
def idMajor (w : Nat) : Nat := bits w 8 4
def idFeature (w : Nat) : Nat := bits w 16 16
def idSerial (w : Nat) : Nat := bits w 32 32
def idErrata (w : Nat) : Nat := bits w 64 64

/-- The position code that the die at a place reads from its straps (R13): 0xF where the position strap and the two straps of IOD0 disagree. -/
def Blk.posCode (b : Blk) (d : Nat) : Nat :=
  let host := bitOf b.pkg.hostStrap d
  let flash := bitOf b.pkg.flashStrap d
  if d = iod0 then (if host && flash then d else 15) else (if host || flash then 15 else d)

/-- The identity word a die's cobbler assembles from fuses and straps (R13, R28): POSITION is what the straps say. -/
def Blk.identWord (b : Blk) (d : Nat) : Nat :=
  let w := (Sp.get 0 b.pkg.ident d).toNat
  if w = 0 then 0 else w - 16 * bits w 4 4 + 16 * b.posCode d

/-- The kind a position needs. -/
def kindOf (d : Nat) : Nat := if d < 4 then 1 else 2

/-- Memory and eyelet modules of an I/O-die edge: 10 and 6 unless the boot configuration moves them, keeping two of each
(R21). Overrides name the compute die and its edge. DESIGN CHOICE: one that does not keep two of each, or does not add up to the 16 modules of the edge, is
ignored (log entry 197). -/
def Blk.edgeSplit (b : Blk) (cd iod : Nat) : Nat × Nat :=
  match b.sec.bootCfg.roles.find? (fun r => r.1 == cd && (edgeFaces b.pkg.sku cd).getD r.2.1 15 == iod) with
  | some r => if 2 ≤ r.2.2.1 ∧ 2 ≤ r.2.2.2 ∧ r.2.2.1 + r.2.2.2 = 16 then (r.2.2.1, r.2.2.2) else (10, 6)
  | none => (10, 6)

/-- The role of the i-th module of a port (R21): 0 NONE, 1 MEMORY, 2 EYELET, 3 PEER, 4 SEAT, 5 RIM. -/
def Blk.roleOf (b : Blk) (d n i : Nat) (there : Nat → Bool) : Nat :=
  if b.pkg.sku.seat ∧ n = seatPos ∧ d < 4 then
    if i < (if d = 1 then b.pkg.seatMods % 32 else b.pkg.seatMods / 32) then 4 else 0
  else if !there n then 0
  else if d < 4 ∧ n < 4 then 3
  else if 4 ≤ d ∧ 4 ≤ n then 5
  else if i < (b.edgeSplit (min d n) (max d n)).1 then 1 else 2

/-- Roles and facing positions written for every module of a die (R20, R21). -/
def Blk.assignRoles (b : Blk) (there : Nat → Bool) (d : Nat) : Blk :=
  let ps := ports b.pkg.sku d
  (ps.foldl (fun (acc : Blk × Nat) p =>
    ((List.range p.2).foldl (fun c i =>
      let r : RegRef := ⟨.WLT_MOD_STATE, d, acc.2 + i⟩
      let role := b.roleOf d p.1 i there
      let facing := if there p.1 ∨ (b.pkg.sku.seat = true ∧ p.1 = seatPos ∧ role = 4) then p.1 else 15
      (c.wf r Fld.WLT_MOD_STATE_ROLE role).wf r Fld.WLT_MOD_STATE_FACING facing) acc.1, acc.2 + p.2)) (b, 0)).1

/-- The seat's acceptance (R23): modules on each edge, streaming flits, and the allow-list. -/
def Blk.seatOk (b : Blk) (x : SeatInfo) : Bool :=
  decide (1 ≤ x.modsE1) && decide (1 ≤ x.modsE3) && decide (x.modsE1 ≤ 16) && decide (x.modsE3 ≤ 16) && x.stream &&
  decide (x.rate ≤ 5) && b.sec.bootCfg.seats.contains (x.vendor, x.device)

/-- The identity word that the module writes on behalf of an accepted seat die (R28): KIND 0x3 at its position; the other fields, which
the manual gives no value for a foreign die, are 0 (log entry 148). -/
def seatIdent : Nat := 3 + 16 * seatPos

/-- The seat die's part of discovery (R23, R24): empty, refused with SEAT_REFUSED, or accepted. -/
def Blk.seatDiscover (b : Blk) (seat : Option SeatInfo) : Blk :=
  match seat with
  | none => b
  | some x =>
    if !b.pkg.sku.seat then b
    else if b.seatOk x then
      let b1 := { b with pkg := { b.pkg with seatMods := x.modsE1 + 32 * x.modsE3, seatRate := x.rate, seatDown := false } }
      ((b1.wf ⟨.IDENT_PRESENT, 0, 0⟩ Fld.IDENT_PRESENT_SEAT 1).wn ⟨.IDENT_DIE, 0, seatPos⟩ seatIdent).wn ⟨.IDENT_SEAT_UCIE, 0, 0⟩
        (x.vendor % 65536 + 2 ^ 16 * (x.device % 65536) + 2 ^ 32 * x.rate + 2 ^ 36 * (x.modsE1 + x.modsE3))
    else b.record { code := 0x0021, die := b.master, data := leBytes 2 x.vendor ++ leBytes 2 x.device }

/-- The first start-up failure is kept in IDENT_START FAIL. -/
def Blk.startFail (b : Blk) (x : Nat) : Blk :=
  if b.rf ⟨.IDENT_START, 0, 0⟩ Fld.IDENT_START_FAIL = 0 then b.wf ⟨.IDENT_START, 0, 0⟩ Fld.IDENT_START_FAIL x else b

/-- REVISION_MISMATCH, one entry for each identity word found (R30, R32; 28 data bytes hold one word, log entry 14). -/
def Blk.revisionMismatch (b : Blk) (m : Nat) (found : List Nat) : Blk :=
  found.foldl (fun c d => c.record { code := 0x0020, die := m, data := leBytes 16 (b.identWord d) ++ [BitVec.ofNat 8 d] }) b

/-- WLT_HB_CFG as the boot configuration gives it (R44): a product above 250 counts is replaced and recorded. -/
def Blk.hbConfig (b : Blk) (d : Nat) : Blk :=
  let v := b.sec.bootCfg.hb
  if bits v 0 8 * bits v 8 4 ≤ 250 then b.wn ⟨.WLT_HB_CFG, d, 0⟩ (v % 4096)
  else (b.wn ⟨.WLT_HB_CFG, d, 0⟩ 0x532).record { code := 0x0025, die := d, data := leBytes 4 v }

/-- The stacks of the I/O dies found are held in self-refresh as the module enters shank-only state (R214, R436). -/
def Blk.stacksRest (b : Blk) (found : List Nat) : Blk :=
  ((List.range b.pkg.sku.stacks).filter (fun st => found.contains (stackDie st))).foldl (fun c st =>
    c.wf ⟨.HBM_STACK_STATE, stackDie st, stackQ st⟩ Fld.HBM_STACK_STATE_STATE 5) b

/-- DISCOVERY (R29 steps 4 and 5, R30 to R33): `answered` is the mask of the positions that answered within 200 ms; a die that reports position 0xF is at
no position (R13). -/
def Blk.discovery (b : Blk) (answered : Nat) (seat : Option SeatInfo) : Blk :=
  let k := b.pkg.sku
  let heard := (List.range 10).filter (fun d => bitOf answered d && decide (b.posCode d = d))
  let extra := heard.filter (fun d => !k.populated d)
  let found := heard.filter (fun d => k.populated d && idKind (b.identWord d) == kindOf d)
  let absent := (List.range 10).filter (fun d => k.populated d && !found.contains d)
  let m := (discoveryOrder.find? (fun d => found.contains d)).getD iod0
  let b0 := { b with pkg := { b.pkg with
    answered := found.foldl (fun a d => a + 2 ^ d) 0, heldReset := extra.foldl (fun a d => a + 2 ^ d) 0
    serials := found.map (fun d => (d, idSerial (b.identWord d))) } }
  let b1 := b0.wf ⟨.IDENT_MASTER, 0, 0⟩ Fld.IDENT_MASTER_POSITION m
  let b2 := extra.foldl (fun c d => c.record { code := 0x0022, die := m, data := [BitVec.ofNat 8 d] }) b1
  let b3 := absent.foldl (fun c d => (c.startFail 3).record { code := 0x0022, die := m, data := [BitVec.ofNat 8 d] }) b2
  let b4 := (b3.wf ⟨.IDENT_PRESENT, 0, 0⟩ Fld.IDENT_PRESENT_PRESENT (found.foldl (fun a d => a + 2 ^ d) 0)).wf
    ⟨.IDENT_PRESENT, 0, 0⟩ Fld.IDENT_PRESENT_DEGRADED (b2n (absent != []))
  let b5 := found.foldl (fun c d => c.wn ⟨.IDENT_DIE, 0, d⟩ (b.identWord d)) b4
  let majors := found.map (fun d => idMajor (b.identWord d))
  let same := majors.all (fun x => x == majors.headD 0)
  if !found.contains iod0 then
    let b6 := { b5 with pkg := { b5.pkg with shankOnly := true } }
    let b7 := if same then b6 else b6.revisionMismatch m found
    ((b7.stacksRest found).wf ⟨.PWR_STATE, iod0, 0⟩ Fld.PWR_STATE_MSTATE 3).setStage 7
  else if !same then
    let b5' : Blk := { b5 with pkg := { b5.pkg with shankOnly := true } }
    let b6 := ((b5'.startFail 4).revisionMismatch m found).wf ⟨.IDENT_PRESENT, 0, 0⟩ Fld.IDENT_PRESENT_MGMT_ONLY 1
    (((b6.stacksRest found).wf ⟨.PWR_STATE, iod0, 0⟩ Fld.PWR_STATE_MSTATE 3).setStage 6)
  else
    let feat := found.foldl (fun a d => a &&& idFeature (b.identWord d)) 0xFFFF
    let err := found.foldl (fun a d => a ||| idErrata (b.identWord d)) 0
    let b6 := ((b5.wn ⟨.IDENT_FEATURE_EFF, 0, 0⟩ feat).wn ⟨.IDENT_ERRATA_EFF, 0, 0⟩ err).seatDiscover seat
    let b7 := { b6 with pkg := { b6.pkg with weltFast := bitOf feat 5 } }
    let there (d : Nat) : Bool := found.contains d
    let b8 := found.foldl (fun c d => (c.assignRoles there d).hbConfig d) b7
    ((b8.routesOver b8.modRoled there).evCond iod0 (fnSource 0 8) false).setStage 3

/-- STATE of a module by its repaired lanes. -/
def modState (tx rx : Nat) : Nat := if tx = 0 ∧ rx = 0 then 2 else 3

/-- A module that trains again, through TRAINING to ACTIVE; a FAILED one stays FAILED (R19, R37). -/
def Blk.modRetrain (b : Blk) (d m : Nat) : Blk :=
  let r : RegRef := ⟨.WLT_MOD_STATE, d, m⟩
  if b.rf r Fld.WLT_MOD_STATE_ROLE = 0 ∨ b.rf r Fld.WLT_MOD_STATE_STATE = 4 then b
  else b.wf r Fld.WLT_MOD_STATE_STATE (modState (b.rf r Fld.WLT_MOD_STATE_REPAIRED_TX) (b.rf r Fld.WLT_MOD_STATE_REPAIRED_RX))

/-- One lane of a module repaired in a direction, or the module FAILED at its fifth repair (R18, R19). A FAILED module is powered
down; where no module of a role remains on the edge its traffic follows the routes, which do not change for it (R22). -/
def Blk.laneRepair (b : Blk) (d m : Nat) (tx : Bool) : Blk :=
  let r : RegRef := ⟨.WLT_MOD_STATE, d, m⟩
  let f := if tx then Fld.WLT_MOD_STATE_REPAIRED_TX else Fld.WLT_MOD_STATE_REPAIRED_RX
  let n := b.rf r f
  if b.rf r Fld.WLT_MOD_STATE_STATE = 4 ∨ b.rf r Fld.WLT_MOD_STATE_STATE = 0 then b
  else if 4 ≤ n then
    (b.wf r Fld.WLT_MOD_STATE_STATE 4).evGroup d 10 1
  else ((((b.wf r f (n + 1)).wf r Fld.WLT_MOD_STATE_STATE 3).bump ⟨.WLT_REPAIR_CNT, d, 0⟩).evGroup d 10 0)

/-- WELT_LANE_REPAIR (R18, R19). -/
def Blk.weltLaneRepair (b : Blk) (d m : Nat) (tx : Bool) : Blk := b.laneRepair d m tx

/-- WELT_TRAINING (R16 to R19): every module with a role trains at the welt rate; `repairs` are lanes repaired in training as
(die, module, tx lanes, rx lanes), where more than four fail the module. Ends the WELT stage. -/
def Blk.weltTraining (b : Blk) (repairs : List (Nat × Nat × Nat × Nat)) : Blk :=
  let rate := if b.pkg.weltFast then 5 else 3
  let b1 := ((List.range 10).filter b.present).foldl (fun c d =>
    (modulesOf b.pkg.sku d).foldl (fun c m =>
      let r : RegRef := ⟨.WLT_MOD_STATE, d, m.1⟩
      let role := c.rf r Fld.WLT_MOD_STATE_ROLE
      if role = 0 then c
      else
        let rep : Option (Nat × Nat) := (repairs.find? (fun x => x.1 == d && x.2.1 == m.1)).map (fun x => x.2.2)
        let tx : Nat := (rep.map (·.1)).getD 0
        let rx : Nat := (rep.map (·.2)).getD 0
        let c1 := c.wf r Fld.WLT_MOD_STATE_RATE (if role = 4 then b.pkg.seatRate else rate)
        if 4 < tx ∨ 4 < rx then (c1.wf r Fld.WLT_MOD_STATE_STATE 4).startFail 5
        else
          let c2 := ((c1.wf r Fld.WLT_MOD_STATE_REPAIRED_TX tx).wf r Fld.WLT_MOD_STATE_REPAIRED_RX rx).wf r
            Fld.WLT_MOD_STATE_STATE (modState tx rx)
          if tx + rx = 0 then c2 else c2.bump ⟨.WLT_REPAIR_CNT, d, 0⟩ (tx + rx)) c) b
  (b1.installRoutes b1.up).setStage 4

/-- WELT_HEARTBEAT_SEND (R36), while the welt adapters run (R452, R556): a heartbeat flit on each active port ends its neighbours' count of silent intervals, and one more interval has passed at the
sender for every neighbour that it has not fenced, lost to the package or not (log entry 75); `retries` flits of the die were sent again meanwhile. -/
def Blk.weltHeartbeat (b : Blk) (d retries : Nat) : Blk :=
  if !b.up d || b.pwr.doze || b.pwr.coolStop then b
  else
    let ns := (neighbours b.pkg.sku d).filter (fun n => !bitOf (b.rn ⟨.WLT_FENCE, d, 0⟩) n && b.linkActive (fun x => bitOf b.pkg.answered x) d n)
    let heard := ns.foldl (fun m n => Sp.set 0 m (1024 + 16 * n + d) 0) b.pkg.missed
    let b1 : Blk := { b with pkg := { b.pkg with missed := ns.foldl (fun m n => Sp.set 0 m (1024 + 16 * d + n) (min 15 (Sp.get 0 m (1024 + 16 * d + n) + 1))) heard } }
    if retries = 0 then b1 else b1.bump ⟨.WLT_RETRY_CNT, d, 0⟩ retries

/-- IDENT_MASTER shows a new master; its takeover count rises once for each takeover, and every function's MASTER doorbell is
set (R34, R467). The new master builds its table from the units' state words alone (R402); where the
stacks do not run, the op table was the old master's and is gone (R460). -/
def Blk.takeover (b : Blk) (d : Nat) (counted : Bool) : Blk :=
  let r : RegRef := ⟨.IDENT_MASTER, 0, 0⟩
  let b1 := b.wf r Fld.IDENT_MASTER_POSITION d
  let b2 := if counted then b1 else b1.bumpFld r Fld.IDENT_MASTER_TAKEOVERS
  let words := ((b2.regs.filter (fun x => x.1.name == RegName.AWL_UNIT)).map (fun x => (unitId x.1.at_ x.1.idx, x.2.toNat % 8))).filter (fun x => x.2 != 6)
  let b2 : Blk := if counted || !(b2.pkg.shankOnly || b2.pwr.coolStop) then b2
    else { b2 with mbx := { b2.mbx with ops := [], retired := [], lastSeq := [] } }
  let b3 := { b2 with pkg := { b2.pkg with claimed := d + 1 }, units := { b2.units with table := words } }
  (b3.record { code := 0x0024, die := d, data := [BitVec.ofNat 8 d] }).ringAll 16

/-- COBBLER_HEARTBEAT (R34): the heartbeat doorbell on each other live cobbler, which ends its silence there; nothing from a fenced die is accepted (R37). -/
def Blk.cobblerHeartbeat (b : Blk) (d : Nat) : Blk :=
  if b.fenced d then b else
  let others := b.liveDies.filter (fun x => x != d && !b.fenced x)
  let b1 := others.foldl (fun c x => c.dieDoorbell x d) b
  { b1 with pkg := { b1.pkg with missed := others.foldl (fun m x => Sp.set 0 m (16 * x + d) 0) b1.pkg.missed } }

/-- Silent in an observer's view. -/
def Blk.silentTo (b : Blk) (o d : Nat) : Bool := decide (3 ≤ Sp.get 0 b.pkg.missed (16 * o + d))

/-- A cobbler reset (R549): the cobbler only, not its die; nobody counts it as silent any longer. -/
def Blk.cobblerReset (b : Blk) (d : Nat) : Blk :=
  { b with pkg := { b.pkg with missed := b.pkg.missed.filter (fun p => !(decide (p.1 < 256) && (decide (p.1 % 16 = d) || decide (p.1 / 16 = d)))) } }

/-- The claim of a cobbler (R34): announced to all, who hear it, each silent cobbler ahead of it reset. -/
def Blk.claim (b : Blk) (d : Nat) (counted : Bool) : Blk :=
  let ahead := (discoveryOrder.take (discRank d)).filter (fun x => bitOf b.pkg.answered x && b.silentTo d x)
  let others := b.liveDies.filter (fun x => x != d)
  let b1 := others.foldl (fun c x => c.dieDoorbell x 10) (b.takeover d counted)
  let b2 : Blk := { b1 with pkg := { b1.pkg with missed := others.foldl (fun m x => Sp.set 0 m (16 * x + d) 0) b1.pkg.missed } }
  ahead.foldl (fun c x => c.cobblerReset x) b2

/-- Every live cobbler ahead of `o` in discovery order is silent to it. -/
def Blk.allAheadSilent (b : Blk) (o : Nat) : Bool :=
  ((discoveryOrder.take (discRank o)).filter (fun x => bitOf b.pkg.answered x && !b.fenced x)).all (fun x => b.silentTo o x)

/-- COBBLER_SILENT (R34): three periods have passed at `o` without `d`'s heartbeat. When the master is silent to `o`, and every
live cobbler ahead of `o` in discovery order is, `o` claims. -/
def Blk.cobblerSilent (b : Blk) (o d : Nat) : Blk :=
  let b1 : Blk := { b with pkg := { b.pkg with missed := Sp.set 0 b.pkg.missed (16 * o + d) 3 } }
  if b1.up o = true ∧ b1.master ≠ o ∧ b1.silentTo o b1.master = true ∧ b1.allAheadSilent o = true then b1.claim o false else b1

/-- MASTER_CLAIM (R34): a claim that a cobbler announces, every cobbler ahead of it being silent to it. It takes over from a silent master; against a claim that stands
it wins where it is the earlier in discovery order (the takeover is counted once), and is withdrawn where it is the later. -/
def Blk.masterClaim (b : Blk) (d : Nat) : Blk :=
  let cur := b.pkg.claimed
  if b.up d = false ∨ b.master = d ∨ b.allAheadSilent d = false then b
  else if b.silentTo d b.master then b.claim d false
  else if cur ≠ 0 ∧ discRank d < discRank (cur - 1) then b.claim d true
  else b

end Sys2Proof.Machine
end

