-- ==== Sys2Proof/Machine/Steps.lean ====
section
/-!
DEFINITION. The training step's shared operations: access to a partition's step, messages over the cut, queue programs as entries,
flags, discarding and aborting an attempt, and the closing (R255 to R289, R371, R372).
-/
namespace Sys2Proof.Machine

/-! ### Access -/

def Blk.onPart (b : Blk) (p : Nat) (f : Part → Part) : Blk :=
  match b.part p with
  | some x => b.setPart p (f x)
  | none => b

def Blk.onStep (b : Blk) (p : Nat) (f : Step → Step) : Blk := b.onPart p (fun x => { x with step := f x.step })
def Blk.stepOf (b : Blk) (p : Nat) : Step := match b.part p with | some x => x.step | none => .idle
def Blk.lastOf (b : Blk) (p : Nat) : Option Last := (b.part p).bind (fun (x : Part) => x.last)
def Blk.sOf (b : Blk) (p : Nat) : Nat := match b.part p with | some x => x.s | none => 0
def Blk.clustersOf (b : Blk) (p : Nat) : List Nat := match b.part p with | some x => maskList x.clusters 36 | none => []
def Blk.variantOf (b : Blk) (p : Nat) : Option Variant := (b.part p).bind (fun (x : Part) => x.last.bind (fun (l : Last) => l.variants[x.variant]?))
/-- Clusters of the partition on dies that are up, those of a withdrawn die apart that the variant in force does not name, which stay idle (R388). -/
def Blk.liveClusters (b : Blk) (p : Nat) : List Nat :=
  (b.clustersOf p).filter (fun c => b.up (clDie c) && (!bitOf b.pkg.withdrawn (clDie c) || (b.variantOf p).any (fun v => bitOf v.dies (clDie c))))
/-- I/O dies present, in position order (R334). -/
def Blk.iodsUp (b : Blk) : List Nat := ((List.range 10).filter (fun d => decide (4 ≤ d))).filter b.up

/-! ### Messages over the cut (R345, R373) -/

def Blk.miswired (b : Blk) (e : Nat) : Bool := bitOf (b.rn ⟨.LAC_MISWIRED, eyeDie e, 0⟩) (e % 8)

/-- An eyelet that can carry a message: not excluded, in service or in a retrain. -/
def Blk.eyeCarries (b : Blk) (e : Nat) : Bool := b.eyeExists e && !b.miswired e && (decide (5 ≤ b.eyeState e) && decide (b.eyeState e ≤ 8))

/-- An eyelet that can carry a flow: its lacing engine is not fenced, under test, suspect or FAILED either (R367, R387, R388). -/
def Blk.eyeUsable (b : Blk) (e : Nat) : Bool :=
  let role := b.rf (unitReg (unitId (eyeDie e) 0)) Fld.AWL_UNIT_ROLE
  b.eyeCarries e && decide (b.rf ⟨.LAC_STATE, eyeDie e, 0⟩ Fld.LAC_STATE_FENCED = 0) && !(decide (2 ≤ role) && decide (role ≤ 5))

/-- An eyelet that a message of no flow may wait for: not excluded, and in training or still to train (log entry 217). -/
def Blk.eyeAwaits (b : Blk) (e : Nat) : Bool := b.eyeExists e && !b.miswired e && (decide (1 ≤ b.eyeState e) && decide (b.eyeState e ≤ 9))

/-- The k eyelets of the cut that lead to a member directly, ascending (R373). -/
def Last.cutEyes (l : Last) (eyelets rank : Nat) : List Nat := (List.range 48).filter (fun e => bitOf eyelets e && l.cut.any (fun c => c.eye == e && c.peer == rank))

/-- The eyelet for chunk c of k: the (c mod k)-th; where `ok` does not pass it its alternate, else any other of the k (R365, R373). -/
def Last.rideOf (l : Last) (ok : Nat → Bool) (es : List Nat) (c : Nat) : Option Nat :=
  let e := es.getD (c % es.length) 0
  let a := ((l.cut.find? (fun y => y.eye == e)).map (fun y => y.alt)).getD 0xFF
  if es = [] then none else if ok e then some e else if es.contains a && ok a then some a else es.find? ok

/-- The eyelet that carries chunk c to a member: one to the member itself, else one to the member that relays to it. -/
def Blk.rideOn (b : Blk) (ok : Nat → Bool) (p rank c : Nat) : Option Nat :=
  match b.part p with
  | none => none
  | some x =>
    match x.last with
    | none => none
    | some l =>
      match l.rideOf ok (l.cutEyes x.eyelets rank) c with
      | some e => some e
      | none => (l.relays.find? (fun r => r.1 == rank)).bind (fun r => l.rideOf ok (l.cutEyes x.eyelets r.2) c)

/-- The eyelets that carry the flows to a member. -/
def Blk.cutTo (b : Blk) (p rank : Nat) : List Nat :=
  match b.part p with
  | none => []
  | some x =>
    match x.last with
    | none => []
    | some l =>
      match (l.cutEyes x.eyelets rank).filter b.eyeUsable with
      | [] => ((l.relays.filter (fun r => r.1 == rank)).take 1).flatMap (fun r => (l.cutEyes x.eyelets r.2).filter b.eyeUsable)
      | es => es

/-- A message sent to a member by the eyelet of its chunk. The messages of flows (kinds 1 to 7) need the lacing engine, the others do not (R387), and these wait for training where no eyelet carries them. -/
def Blk.msgSend (b : Blk) (p : Nat) (m : Msg) : Blk :=
  match (if m.kind ≤ 7 then b.rideOn b.eyeUsable p m.dst m.chunk else b.rideOn b.eyeCarries p m.dst m.chunk <|> b.rideOn b.eyeAwaits p m.dst m.chunk) with
  | none => b
  | some e => b.eyeSend e m

/-- A message with the step and attempt in force. -/
def Blk.mkMsg (b : Blk) (p kind dst round : Nat) : Msg :=
  let st := b.stepOf p
  { kind := kind, src := (b.lastOf p).elim 0 (fun (l : Last) => l.rank), dst := dst, vc := 0, step := b.sOf p % 65536, attempt := st.attempt, cseq := round, chunk := 0
    aglets := false, ctx := 0, blocks := [], words := [], names := [] }

/-- The tree of R371: a rank's parent and children. -/
def parentRank (r : Nat) : Nat := (r - 1) / 8
def childRanks (r n : Nat) : List Nat := ((List.range 8).map (fun i => 8 * r + 1 + i)).filter (fun c => decide (c < n))

/-! ### Queue programs (R256) -/

/-- Bytes of descriptor of a LEN code; none for a reserved one. -/
def entryLen (n : Nat) : Option Nat := match n with | 0 => some 0 | 2 => some 32 | 4 => some 64 | _ => none

def Entry.parse (h : Nat) (d : List Byte) : Entry :=
  { kind := bits h 0 2, waitEn := bitOf h 2, ctr := bits h 3 8, rearm := bitOf h 11, phase := bits h 12 3, shared := bitOf h 15, regath := bitOf h 16
    record := bitOf h 17, len := bits h 18 3, mbatch := bits h 32 16, slot := bits h 48 4, ptag := bits h 64 16, pword := bits h 80 4, psrc := bits h 84 3
    pview := bits h 96 27, queue := bits h 124 4, raw := BitVec.ofNat 512 (leNat d) }

/-- The entry's reserved values are not used (R256): kinds 2 and 3, phases 6 and 7, patch sources above 4, other LEN codes. -/
def Entry.legal (e : Entry) : Bool := decide (e.kind < 2) && decide (e.phase < 6) && decide (e.psrc < 5) && (entryLen e.len).isSome

/-- Bytes the entry takes. -/
def Entry.size (e : Entry) : Nat := 16 + (if e.kind = 0 then (entryLen e.len).getD 0 else 0)

/-- The entry at an insole address of a cluster. -/
def Blk.entryAt (b : Blk) (cl a : Nat) : Entry :=
  let h := b.ins.data.readNat (cl * 2 ^ 27 + a) 16
  let e := Entry.parse h []
  Entry.parse h (b.ins.data.read (cl * 2 ^ 27 + a + 16) (e.size - 16))

def qReg (cl q : Nat) : RegRef := ⟨.SEQ_Q, cl, q⟩

/-- The head entry of a queue; none at its end. -/
def Blk.headEntry (b : Blk) (cl q : Nat) : Option Entry :=
  let r := qReg cl q
  let pos := b.rf r Fld.SEQ_Q_POS
  if b.rf r Fld.SEQ_Q_LENGTH ≤ pos then none else some (b.entryAt cl (b.rf r Fld.SEQ_Q_BASE + pos))

/-- `n` entries from an address on (R192). -/
def Blk.entryRun (b : Blk) (cl : Nat) : Nat → Nat → List Entry
  | 0, _ => []
  | n + 1, a => let e := b.entryAt cl a; e :: b.entryRun cl n (a + e.size)

/-- The entries of `n` bytes from an address on. -/
def Blk.entriesFrom (b : Blk) (cl : Nat) : Nat → Nat → Nat → List Entry
  | 0, _, _ => []
  | fuel + 1, a, n =>
    if n = 0 then []
    else
      let e := b.entryAt cl a
      e :: b.entriesFrom cl fuel (a + e.size) (n - e.size)

/-- The entries of a queue that have not issued. -/
def Blk.restOf (b : Blk) (cl q : Nat) : List Entry :=
  let r := qReg cl q
  let pos := b.rf r Fld.SEQ_Q_POS
  let n := b.rf r Fld.SEQ_Q_LENGTH - pos
  b.entriesFrom cl (n / 16 + 1) (b.rf r Fld.SEQ_Q_BASE + pos) n

/-- Descriptors in flight on a cluster, a die, or for a queue. -/
def Blk.flightsOf (b : Blk) (cl : Nat) : List Flight := b.seq.flights.filter (fun f => f.cl == cl)
def Blk.dieFlights (b : Blk) (d : Nat) : Nat := (b.seq.flights.filter (fun f => f.cl / 9 == d)).length

/-- Some entry of the partition in the phases of `ph` has not retired. -/
def Blk.phasesLeft (b : Blk) (p : Nat) (ph : Nat → Bool) : Bool :=
  (b.liveClusters p).any (fun cl =>
    (List.range 16).any (fun q => (b.restOf cl q).any (fun e => ph e.phase)) || (b.flightsOf cl).any (fun f => ph f.phase))

/-! ### Flags of the attempt -/

abbrev fNonfinite : Nat := 1
abbrev fFault : Nat := 2
abbrev fDrop : Nat := 4
abbrev fStale : Nat := 8
abbrev fHalt : Nat := 16
abbrev fDirty : Nat := 32
abbrev fMismatch : Nat := 64

/-- An attempt is running whose closing word is not sent. -/
def Step.open? (st : Step) : Bool := decide (st.state = 1) && !st.sent

/-- A flag of the attempt. -/
def Blk.flag (b : Blk) (p f : Nat) : Blk := b.onStep p (fun st => { st with flags := st.flags ||| f })

/-- The samples of a micro-batch by the batch record. -/
def Step.samplesOf (st : Step) (mb : Nat) : Nat := ((st.batch.find? (fun x => x.1 == mb)).map (·.2)).getD 0

/-- A detected fault (R261, R272): FAULT in this attempt's word with its attribution, or carried to the next word. -/
def Blk.fault (b : Blk) (p mb : Nat) (shared : Bool) : Blk :=
  b.onStep p (fun st =>
    if st.open? then
      { st with flags := st.flags ||| fFault, faults := st.faults ++ [(if shared then 0xFFFF else mb, st.samplesOf mb)] }
    else { st with carry := true })

/-- HALT with a reason; the first reason stays. -/
def Blk.haltFlag (b : Blk) (p why : Nat) : Blk :=
  b.onStep p (fun st => if st.open? then { st with flags := st.flags ||| fHalt, haltWhy := if st.haltWhy = 0 then why else st.haltWhy }
    else if st.abortNext = 0 then { st with abortNext := why } else st)

/-! ### Discarding contexts (R78, R160, R176, R287) -/

/-- The core that a queue's binding names, and which engine it is: 0 array, 1 vector, 2 others. -/
def bindKind (code : Nat) : Nat := if code < 5 then 0 else if 8 ≤ code ∧ code < 13 then 1 else 2

/-- The engine code that serves a flight now. -/
def Blk.bindOf (b : Blk) (f : Flight) : Nat := b.rf (qReg f.cl f.queue) Fld.SEQ_Q_BIND

/-- The operation code of a descriptor for an engine kind (R79, R138, R171). -/
def opOf (code : Nat) (raw : BitVec 512) : Nat := if bindKind code = 2 then dsc raw 0 0 6 else dsc raw 0 0 4

def tagOf (code : Nat) (raw : BitVec 512) : Nat :=
  match bindKind code with | 0 => dsc raw 8 0 16 | 1 => dsc raw 3 0 16 | _ => dsc raw 0 16 16

def ctrOf (code : Nat) (raw : BitVec 512) : Nat :=
  match bindKind code with | 0 => dsc raw 8 16 8 | 1 => dsc raw 3 16 8 | _ => dsc raw 1 0 8

def ctrReg (cl n : Nat) : RegRef := ⟨.SEQ_CTR, cl, n⟩

/-- A counter's value; counter 255 always reads 0. -/
def Blk.ctr (b : Blk) (cl n : Nat) : Nat := if n = 255 then 0 else b.rf (ctrReg cl n) Fld.SEQ_CTR_VALUE

/-- The completion record of R260. -/
def Blk.complRecord (b : Blk) (f : Flight) (res : Nat) : List Byte :=
  let p := (b.partOf f.cl).getD 0xFF
  let st := b.stepOf p
  let code := b.bindOf f
  leBytes 2 (tagOf code f.raw) ++ leBytes 2 res ++ leBytes 1 f.queue ++ leBytes 1 code ++ leBytes 2 f.mbatch ++ leBytes 2 (b.sOf p) ++
    leBytes 1 (st.attempt % 16 + 16 * b2n f.recomp) ++ leBytes 1 (clK f.cl + 16 * clDie f.cl) ++ leBytes 4 (b.shankNow (clDie f.cl)).toNat

def Blk.storeRecord (b : Blk) (xs : List Byte) : Blk := { b with seq := { b.seq with store := b.seq.store ++ [xs] } }

/-- The engine has begun a descriptor and has not returned its completion: a vector program has started; any other has run, and not been refused, or completed at
once as a NOP (log entry 169). -/
def Blk.begun (b : Blk) (f : Flight) : Bool :=
  let code := b.bindOf f
  if bindKind code = 1 then f.pending == 1
  else f.ran && decide (opOf code f.raw ≠ 0) && !f.result.any (fun r => decide (0x10 ≤ r % 256) && decide (r % 256 < 0x20))

/-- A discard leaves the descriptor as it is: a FIN_APPLY (R176), one whose check has failed (R161), one that completed at once, one discarded before. -/
def Blk.kept (b : Blk) (f : Flight) : Bool :=
  let code := b.bindOf f
  (decide (code = 0x10) && decide (opOf code f.raw = 2)) ||
  f.result.any (fun r => !b.begun f || [0x30, 0x31, 0x32].contains (r % 256))

/-- The lines of a core buffer among places. -/
def linesOf (ls : List Loc) : List Nat := ls.filterMap (fun l => match l with | .cb _ a => some (a / 256) | _ => none)

/-- The descriptor belongs to the accumulation that the cluster's witness samples (R205): the sample has followed it, or is still open and waits for it, no descriptor in
front of it ending the accumulation. -/
def Blk.sampled (b : Blk) (f : Flight) (x : WitSample) : Bool :=
  let code := b.bindOf f
  let core := 5 * f.cl + code % 8
  let d := ArrDesc.parse f.raw
  decide (bindKind code = 0) && (x.ids.contains f.id || (!x.closed && f.result.isNone && decide (d.op = 1) && !d.init && x.of core d &&
    !b.seq.flights.any (fun g => g.cl == f.cl && decide (g.id < f.id) && decide (b.bindOf g = code) && g.result.isNone && (ArrDesc.parse g.raw).drain && x.of core (ArrDesc.parse g.raw))))

/-- The discard of a descriptor abandons the sample of its accumulation (R206). -/
def Blk.witDrop (b : Blk) (f : Flight) : Blk := if (slotGet b.cores.samples f.cl).any (b.sampled f) then b.witAbandon f.cl else b

/-- What the discard of a descriptor leaves behind it (R78, R160, R176): a sample of it abandoned, and nothing more of one that has not begun. -/
def Blk.discardEffect (b : Blk) (f : Flight) : Blk :=
  let code := b.bindOf f
  let core := 5 * f.cl + code % 8
  let b := b.witDrop f
  if !b.begun f then b
  else if bindKind code = 0 then b.arrDiscard core (ArrDesc.parse f.raw)
  else if bindKind code = 1 then
    if f.result.isNone then b.vDiscard core
    else (if (f.result.getD 0) % 256 = VStat.trap.code then b.vUntrap core else b).vRelease core (if dsc f.raw 0 4 1 = 1 then [dsc f.raw 0 5 1] else [0, 1]) (linesOf f.wrote)
  else f.wrote.foldl (fun c l => c.poisonAt l) b

/-- The flags that a descriptor has raised: those of its result, or of the program that runs for it (R161). -/
def Blk.flagsOf (b : Blk) (f : Flight) : Nat :=
  match f.result with
  | some r => r / 256
  | none => if bindKind (b.bindOf f) = 1 ∧ b.begun f then ((slotGet b.vec.runs (5 * f.cl + b.bindOf f % 8)).map (·.flags)).getD 0 else 0

/-- The result word of a discarded descriptor: DISCARDED, and of an array the poisoned rows of its bank. -/
def Blk.discardWord (b : Blk) (f : Flight) : Nat :=
  0x32 + 256 * (b.flagsOf f ||| (if bindKind (b.bindOf f) = 0 ∧ b.begun f then 4 else 0))

/-- A descriptor counted as completed on its core (R83, R165). -/
def Blk.descCount (b : Blk) (f : Flight) : Blk :=
  let code := b.bindOf f
  let core := 5 * f.cl + code % 8
  if bindKind code = 0 then b.bump ⟨.SEQ_ARR_DESC_CNT, core, 0⟩ else if bindKind code = 1 then b.bump ⟨.SEQ_VEC_DESC_CNT, core, 0⟩ else b

/-- A discarded descriptor of an engine beyond the core leaves its status in the engine's error register (R174, R209). -/
def Blk.discardErr (b : Blk) (f : Flight) (res : Nat) : Blk :=
  if bindKind (b.bindOf f) ≠ 2 ∨ b.kept f then b
  else b.engErr (errReg f.cl (b.bindOf f)) { cl := f.cl, part := (b.partOf f.cl).getD 0xFF, queue := f.queue, replay := false, recomp := f.recomp, cobbler := f.cobbler, skip := false }
    f.raw (if res % 256 = 0x32 then .discarded else .ok) f.errIdx

/-- A discarded descriptor's counter reads 0 already (R258): a detected fault of the sequencer, which sets FAULT now and is treated as a unit's before the next attempt. -/
def Blk.owe (b : Blk) (cl mb : Nat) (shared : Bool) : Blk :=
  let b1 := b.fault ((b.partOf cl).getD 0xFF) mb shared
  { b1 with units := { b1.units with owed := b1.units.owed ++ [(cl, mb, shared)] } }

/-- One context discarded: its descriptor completes with DISCARDED and its record is stored (R260). A descriptor that the discard leaves alone completes later,
its attempt over. -/
def Blk.discardFlight (b : Blk) (f : Flight) : Blk :=
  if b.kept f then { b with seq := { b.seq with flights := b.seq.flights.map (fun (g : Flight) => if g.id = f.id then { g with late := true } else g) } }
  else
    let res := b.discardWord f
    let c := b.discardEffect f
    let n := ctrOf (b.bindOf f) f.raw
    let c1 := if n = 255 then c else if c.ctr f.cl n = 0 then c.owe f.cl f.mbatch f.shared else c.wf (ctrReg f.cl n) Fld.SEQ_CTR_VALUE (c.ctr f.cl n - 1)
    let c2 := (if f.result.isNone then c1.descCount f else c1).discardErr f res
    ({ (c2.storeRecord (b.complRecord f res)) with seq := { (c2.storeRecord (b.complRecord f res)).seq with
        flights := c2.seq.flights.filter (fun g => g.id != f.id) } } : Blk).tick

/-- Collectives that an I/O die leads (R334). -/
def Blk.leadOf (b : Blk) (q : Nat) : Nat := let ds := b.iodsUp; ds.getD (q % max 1 ds.length) iod0

/-- LAC_STATE of every I/O die follows the partitions. -/
def Blk.lacShow (b : Blk) : Blk :=
  let runs := (b.parts.map (fun x => (x.2.colls.filter (fun (c : Coll) => c.started && !c.complete)).map (fun c => b.leadOf c.cseq))).flatten
  let any := b.parts.any (fun x => x.2.loaded && x.2.colls != [])
  b.iodsUp.foldl (fun c d => (c.wf ⟨.LAC_STATE, d, 0⟩ Fld.LAC_STATE_LOADED (b2n any)).wf ⟨.LAC_STATE, d, 0⟩ Fld.LAC_STATE_RUNNING
    (min 4096 (runs.filter (fun x => x == d)).length)) b

/-- The 128 bytes of a flow context (R338); what lies behind them is the engine's own. -/
def Flow.bytes (w : Flow) : List Byte :=
  let u := leBytes
  u 1 w.state ++ u 1 (b2n w.recv + 2 * b2n w.relay + 4 * b2n w.herit) ++ u 2 w.peer ++ u 2 w.cseq ++ u 2 w.step ++ u 1 (w.attempt % 16) ++ u 1 (w.vc % 8) ++ u 1 w.eye ++ u 1 w.alt ++
  u 2 w.group ++ u 2 w.grank ++ u 6 w.base ++ u 2 w.tag ++ u 2 w.version ++ u 2 (w.epoch % 4096) ++ u 1 w.format ++ u 1 w.credit ++ u 2 0 ++ u 4 w.chunks ++ u 4 w.done ++ u 4 w.acked ++
  u 4 w.samples ++ u 8 w.prog.toNat ++ u 2 w.hop ++ zeros 70

/-- The place of a flow context in the firmware region: the table takes its first 32 MiB (R242, log entry 218). -/
def Blk.ctxPlace (b : Blk) (ctx : Nat) : Option (Nat × Nat) := mapBlock b.chanList hbmD 256 (ctx / 32)

/-- A context's entry written back to the table. -/
def Blk.ctxBack (b : Blk) (ctx : Nat) : Blk :=
  match (b.parts.flatMap (fun x => x.2.flows)).find? (fun w => w.ctx == ctx), b.ctxPlace ctx with
  | some w, some (pc, loc) =>
    if b.pcFenced pc then b
    else
      let old := b.hbm.block pc loc
      let k := 128 * (ctx % 32)
      { b with hbm := b.hbm.put pc loc (old.patched (old.pay.take k ++ w.bytes ++ old.pay.drop (k + 128)) false) }
  | _, _ => b

/-- A flow context used by an I/O die (R337): a miss fills its entry, and a full cache gives one up, which is written back. Every use changes the entry, so that each one cached awaits its write-back. -/
def Blk.ctxTouch (b : Blk) (d ctx : Nat) : Blk :=
  if b.lac.cached.contains (d, ctx) then b
  else
    let mine := b.lac.cached.filter (fun x => x.1 == d)
    let gone := if mine.length < 8192 then none else mine[(Config.cacheVictim b.fresh).val]?
    let left := b.lac.cached.filter (fun x => some x != gone)
    let b0 := gone.elim b (fun x => b.ctxBack x.2)
    let b1 : Blk := { b0 with lac := { b0.lac with cached := left ++ [(d, ctx)] } }
    ((b1.tick.wf ⟨.LAC_CACHE_STAT, d, 0⟩ Fld.LAC_CACHE_STAT_VALID (min 8192 (mine.length + 1))).wf ⟨.LAC_CACHE_STAT, d, 0⟩
      Fld.LAC_CACHE_STAT_DIRTY (min 8192 (mine.length + 1)) |>.bump ⟨.LAC_CACHE_MISS_CNT, d, 0⟩)

/-- A message forwarded to another member (R345, R373), under the context of its relay route. -/
def Blk.relayMsg (b : Blk) (p e : Nat) (m : Msg) : Blk :=
  let ctx := ((b.part p).bind (fun (x : Part) => x.flows.find? (fun w => w.relay && w.peer == m.dst))).map (fun w => w.ctx)
  (((ctx.elim b (fun c => b.ctxTouch (eyeDie e) c)).msgSend p m).bump ⟨.LAC_RELAY_CNT, eyeDie e, 0⟩)

/-- What a collective that has completed leaves beside its contexts: its completion record (R344), and LAC_ERR of its lead where it did not complete OK. -/
def Blk.collStore (b : Blk) (p op : Nat) (record : Bool) (c : Coll) : Blk :=
  let lead := b.leadOf c.cseq
  let now := b.shankNow lead
  let bytes := leBytes 2 c.cseq ++ leBytes 2 (c.status + c.flags) ++ leBytes 2 (b.sOf p) ++ leBytes 1 ((b.stepOf p).attempt % 16 + 16 * lead) ++ leBytes 1 op ++
    leBytes 4 c.overflow ++ leBytes 4 c.samples ++ leBytes 4 c.kib ++ leBytes 2 c.badPeer ++ leBytes 3 c.badChunk ++ [0] ++ leBytes 6 now.toNat
  let b1 := if c.status ≠ 0 ∨ record = true then (b.storeRecord bytes).tick else b
  if c.status = 0 then b1
  else b1.wn ⟨.LAC_ERR, lead, 0⟩
    (c.status + 2 ^ 8 * op + 2 ^ 16 * c.cseq + 2 ^ 32 * c.badPeer + 2 ^ 48 * (c.badChunk % 2 ^ 24) + 2 ^ 72 * (c.badAt.toNat % 2 ^ 40))

/-- The collectives that run in the attempt complete with LAC_DISCARDED. -/
def Blk.discardColls (b : Blk) (p : Nat) : Blk :=
  match b.part p with
  | none => b
  | some x =>
    let op (q : Nat) : Nat := ((x.last.bind (fun (l : Last) => l.colls.find? (fun d => dsc d 0 16 16 == q))).map (fun d => dsc d 0 0 6)).getD 0
    (x.colls.filter (fun (q : Coll) => q.started && !q.complete)).foldl (fun c (q : Coll) =>
      c.collStore p (op q.cseq) false { q with status := if q.status = 0x30 then 0x30 else 0x32, badAt := if q.status = 0 then c.shankNow (c.leadOf q.cseq) else q.badAt }) b

/-- Every context of the partition's attempt discarded. -/
def Blk.discardAll (b0 : Blk) (p : Nat) : Blk :=
  let b := b0.discardColls p
  let cls := b.clustersOf p
  let b1 := ((b.seq.flights.filter (fun f => cls.contains f.cl))).foldl (fun c f => c.discardFlight f) b
  let b2 := cls.foldl (fun c cl => if (slotGet c.cores.samples cl).isSome then c.witAbandon cl else c) b1
  (b2.onPart p (fun x => { x with
    colls := x.colls.map (fun (q : Coll) => if q.complete then q else { q with complete := true, status := 0x32 })
    flows := x.flows.map (fun (w : Flow) => if w.relay then w else { w with state := 0 }) })).lacShow

/-- ATTEMPT_ABORT sent to every member, along the tree from the sender's root path (R287, R372), and this package's attempt ended. -/
def Blk.abortAttempt (b : Blk) (p : Nat) : Blk :=
  match b.lastOf p with
  | none => b
  | some l =>
    let up := if l.rank = 0 then [] else [parentRank l.rank]
    let b1 := (up ++ childRanks l.rank l.members).foldl (fun c r => c.msgSend p (c.mkMsg p 0x46 r 0)) b
    (b1.onStep p (fun st => { st with aborted := true, allIn := true })).discardAll p

/-- SHANK counts of 40 ns passed between two counts, in ms. -/
def shankMs (t now : Nat) : Nat := (now + 2 ^ 64 - t % 2 ^ 64) % 2 ^ 64 / 25000

/-- RUN_S so far, in ms: what the runs that have ended or stand suspended took, and the run that is RUNNING (R424). -/
def Blk.runMs (b : Blk) (p : Nat) : Nat :=
  match b.part p with
  | some x => x.runS + (match x.runAt with | some t => shankMs t (b.shankNow iod0).toNat | none => 0)
  | none => 0

/-- A RUN_STEPS of the partition is RUNNING from here on, or no longer (R424). -/
def Blk.runClock (b : Blk) (p : Nat) (on : Bool) : Blk :=
  if (b.part p).any (fun x => x.runAt.isSome != on) then
    (b.onPart p (fun x => { x with runS := b.runMs p, runAt := if on then some (b.shankNow iod0).toNat else none })).tick
  else b

/-- A securing that ends here, and those that wait behind it (R419): a layer that has not committed does not commit. -/
def Blk.secureStop (b : Blk) (p : Nat) : Blk :=
  match b.part p with
  | none => b
  | some x =>
    let b1 := x.secNext.foldl (fun c y => c.endOp y.1 .securePartial 0 [(16, 4, y.2.2.s), (20, 1, 0)]) (b.onPart p (fun y => { y with secNext := [] }))
    match x.securing with
    | none => b1
    | some q =>
      let got := (if q.partner then 1 else 0) + (if q.flash then 2 else 0)
      let whole := q.read && (decide (q.layers % 2 = 0) || q.partner) && (decide (q.layers < 2) || q.flash)
      (b1.onPart p (fun y => { y with securing := if q.op = 0 then none else some { q with read := true, pFail := !q.partner, fFail := !q.flash } })).endOp q.op
        (if whole then .ok else .securePartial) 0 [(16, 4, q.s), (20, 1, got)]

/-! ### Closing words (R273) -/

def cword (flags attempt reason stepLo count : Nat) : Nat :=
  flags % 128 + 2 ^ 8 * (attempt % 16) + 2 ^ 12 * (reason % 16) + 2 ^ 16 * (stepLo % 65536) + 2 ^ 32 * (min count 0xFFFFFFFF)

def cwHas (w f : Nat) : Bool := decide (w % 128 &&& f ≠ 0)
def cwAttempt (w : Nat) : Nat := bits w 8 4
def cwReason (w : Nat) : Nat := bits w 12 4
def cwStep (w : Nat) : Nat := bits w 16 16
def cwCount (w : Nat) : Nat := bits w 32 32

/-- A child's word combined with one's own (R273, R371). -/
def cwCombine (own kid : Nat) : Nat :=
  let bad := decide (cwAttempt own ≠ cwAttempt kid) || decide (cwStep own ≠ cwStep kid) || decide (0xFFFFFFFF < cwCount own + cwCount kid)
  cword ((own % 128) ||| (kid % 128) ||| (if bad then fMismatch else 0)) (cwAttempt own) (max (cwReason own) (cwReason kid)) (cwStep own)
    (cwCount own + cwCount kid)

/-- COUNT: the samples of the replica's micro-batches that are not dropped (R273). -/
def Step.count (st : Step) : Nat :=
  ((st.batch.filter (fun x => !(st.drop.any (fun d => d.1 == x.1)))).map (·.2)).sum

/-- A CLOSE_RESULT or other message handed down the tree. -/
def Blk.toKids (b : Blk) (p : Nat) (f : Nat → Msg) : Blk :=
  match b.lastOf p with
  | none => b
  | some l => (childRanks l.rank l.members).foldl (fun c r => c.msgSend p (f r)) b

/-- The securing notice of the coordinator (R422): NEXT_S and LAYERS; (0, 0) without a policy. -/
def Blk.noticeOf (b : Blk) (p : Nat) : Nat × Nat :=
  match b.part p with
  | some x => match x.policy, x.last with
    | some q, some l => if l.rank = 0 then (x.nextS, q.layers) else x.step.notice
    | _, some l => if l.rank = 0 then (0, 0) else x.step.notice
    | _, none => (0, 0)
  | none => (0, 0)

/-- Once the package has its own word and those of its children, the combined word goes to the parent, or at the root becomes the result (R371). -/
def Blk.closeTry (b : Blk) (p : Nat) : Blk :=
  match b.lastOf p with
  | none => b
  | some l =>
    let st := b.stepOf p
    let kids := childRanks l.rank l.members
    if !st.sent || !(decide (st.round = 1) || decide (st.round = 3)) || !(kids.all (fun k => st.kids.any (fun x => x.1 == k))) then b
    else
      let w := kids.foldl (fun a k => cwCombine a (((st.kids.find? (fun x => x.1 == k)).map (·.2)).getD 0)) st.local_
      if l.rank ≠ 0 then b.msgSend p { (b.mkMsg p 0x40 (parentRank l.rank) st.round) with words := [w] }
      else b.onStep p (fun s => { s with result := w, rootOut := true })

/-- The own records of round 2 (R275): at most 256, the surplus replaced by one record of kind 3. -/
def Step.ownList (st : Step) (rank : Nat) : List NameRec :=
  let drops := st.dropNow.map (fun (d : Nat × Nat) => ({ mb := d.1, samples := d.2, rank := rank, kind := 1 } : NameRec))
  let faults := st.faults.map (fun (f : Nat × Nat) => ({ mb := f.1, samples := f.2, rank := rank, kind := if f.1 = 0xFFFF then 3 else 2 } : NameRec))
  let k3 : NameRec := { mb := 0xFFFF, samples := 0, rank := rank, kind := 3 }
  let stale := if decide (st.flags &&& fStale ≠ 0) then [({ mb := 0xFFFF, samples := 0, rank := rank, kind := 4 } : NameRec)] else []
  let lone := if decide (st.flags &&& fFault ≠ 0) && st.faults.isEmpty then [k3] else []
  let all := drops ++ faults.foldl (fun acc r => if acc.contains r then acc else acc ++ [r]) [] ++ lone ++ stale
  let sorted := all.foldl (fun acc (r : NameRec) => acc.filter (fun x => decide (x.mb ≤ r.mb)) ++ [r] ++ acc.filter (fun x => decide (r.mb < x.mb))) []
  if sorted.length ≤ 256 then sorted else sorted.take 255 ++ [k3]

/-- A merged list in ascending job rank. -/
def byRank (xs : List NameRec) : List NameRec :=
  xs.foldl (fun acc r => acc.filter (fun x => decide (x.rank ≤ r.rank)) ++ [r] ++ acc.filter (fun x => decide (r.rank < x.rank))) []

/-- Records sent as messages of at most 470 in order (R372); the message with fewer ends the list (log entry 49). -/
def Blk.sendNames (b : Blk) (p kind dst : Nat) (xs : List NameRec) : Blk :=
  let n := xs.length / 470 + 1
  (List.range n).foldl (fun c i => c.msgSend p { (c.mkMsg p kind dst 2) with names := (xs.drop (470 * i)).take 470 }) b

/-- Once the package's own list and those of its children stand (an older member names nothing, R361), the subtree's list goes to the parent, or at the root becomes the result. -/
def Blk.nameTry (b : Blk) (p : Nat) : Blk :=
  match b.lastOf p with
  | none => b
  | some l =>
    let st := b.stepOf p
    let kids := childRanks l.rank l.members
    if st.round ≠ 2 ∨ kids.all (fun k => decide (l.gens.getD k 0 ≠ 0) || st.kidNames.any (fun x => x.1 == k)) = false then b
    else
      let xs := byRank (st.ownNames ++ (st.kidNames.map (·.2)).flatten)
      if l.rank ≠ 0 then b.sendNames p 0x42 (parentRank l.rank) xs
      else b.onStep p (fun s => { s with names := xs, rootOut := true })

end Sys2Proof.Machine
end

