-- ==== Sys2Proof/Machine/Units.lean ====
section
/-!
DEFINITION. Units: the one treatment of a detected fault, stand-ins and handover, awl tests, disagreements (R376 to R395, R402, R403, R583), and the
cluster reset (R551).
-/
namespace Sys2Proof.Machine

/-! ### Roles -/

abbrev roActive : Nat := 0
abbrev roSpare : Nat := 1
abbrev roFenced : Nat := 2
abbrev roTesting : Nat := 3
abbrev roSuspect : Nat := 4
abbrev roFailed : Nat := 5
abbrev roIdle : Nat := 6

def Blk.role (b : Blk) (u : Nat) : Nat := b.rf (unitReg u) Fld.AWL_UNIT_ROLE

/-- A change of ROLE: the unit's word, the cobbler's table, and the gatherer's role-change event. A pass from before serves no unit that is FENCED, TESTING, SUSPECT or
FAILED: it leaves that only by a new one. -/
def Blk.setRole (b : Blk) (u r : Nat) : Blk :=
  let b1 := b.wf (unitReg u) Fld.AWL_UNIT_ROLE r
  ({ b1 with units := { b1.units with
      table := Sp.set 6 b1.units.table u r, passed := if 2 ≤ r ∧ r ≤ 5 then b1.units.passed.filter (fun x => x != u) else b1.units.passed } }).evGroup (unitDie u) 14 1

/-- The unit takes descriptors. -/
def Blk.unitUp (b : Blk) (u : Nat) : Bool := b.role u == roActive

/-- The unit behind an engine code of a cluster (R172, R377). -/
def codeUnit (cl code : Nat) : Nat :=
  if code < 5 then clUnit cl code else if 8 ≤ code ∧ code < 13 then clUnit cl (code - 8)
  else if code = 0x10 then clUnit cl 5 else if code = 0x11 then clUnit cl 6 else if code = 0x12 then clUnit cl 7 else if code = 0x13 then clUnit cl 8
  else clUnit cl (9 + (code - 0x14))

/-- The core of a cluster that serves a schedule core (R583). -/
def Blk.schedTo (b : Blk) (cl c : Nat) : Nat :=
  let v := Sp.get 0 b.units.sched (5 * cl + c)
  if v = 0 then c else v - 1

/-- The schedule core that a core serves. -/
def Blk.schedOf (b : Blk) (cl core : Nat) : Option Nat := (List.range 5).find? (fun c => b.schedTo cl c == core && decide (b.role (clUnit cl core) ≠ roSpare))

/-- Queues are bound to the unit. -/
def Blk.unitBound (b : Blk) (u : Nat) : Bool :=
  let cl := unitCluster u
  (List.range 16).any (fun q => decide (b.rf (qReg cl q) Fld.SEQ_Q_LENGTH ≠ 0) && decide (codeUnit cl (b.rf (qReg cl q) Fld.SEQ_Q_BIND) = u))

/-- Work is in flight on the unit: a descriptor, or for a lacing engine a collective that runs over its eyelets or whose lead it is. -/
def Blk.unitBusy (b : Blk) (u : Nat) : Bool :=
  if unitDie u < 4 then b.seq.flights.any (fun f => decide (codeUnit f.cl (b.bindOf f) = u))
  else b.parts.any (fun x => x.2.colls.any (fun (c : Coll) => c.started && !c.complete &&
    (decide (b.leadOf c.cseq = unitDie u) || x.2.flows.any (fun (w : Flow) => decide (w.cseq = c.cseq) && decide (eyeDie w.eye = unitDie u)))))

/-- The partitions that a unit works for: that of its cluster, or those with eyelets on its die. -/
def Blk.unitParts (b : Blk) (u : Nat) : List Nat :=
  if unitDie u < 4 then (b.partOf (unitCluster u)).toList
  else (b.parts.filter (fun x => (dieEyes (unitDie u)).any (fun e => bitOf x.2.eyelets e))).map (fun x => x.1)

/-! ### Handover (R383 to R385) -/

/-- The entries of a sparse map of core `i` (by a block of `w` keys) copied to core `j`. -/
def copyKeys {α : Type} (w i j : Nat) (m : List (Nat × α)) : List (Nat × α) :=
  let mine := (m.filter (fun x => decide (i * w ≤ x.1) && decide (x.1 < (i + 1) * w))).map (fun (x : Nat × α) => (x.1 - i * w + j * w, x.2))
  m.filter (fun x => decide (x.1 < j * w)) ++ mine ++ m.filter (fun x => decide ((j + 1) * w ≤ x.1))

/-- The whole state of one core copied into another (R383 step 4). -/
def Blk.copyCore (b : Blk) (i j : Nat) : Blk :=
  let c := b.cores
  let v := b.vec
  { b with
    cores := { c with
      cb := copyKeys (2 ^ 22) i j c.cb, lines := copyKeys (2 ^ 14) i j c.lines, acc := copyKeys (2 ^ 17) i j c.acc
      rowPois := copyKeys (2 ^ 11) i j c.rowPois, rowMask := copyKeys (2 ^ 11) i j c.rowMask, banks := copyKeys 16 i j c.banks }
    vec := { v with
      tiles := copyKeys (2 ^ 16) i j v.tiles, pois := copyKeys (2 ^ 9) i j v.pois, preds := copyKeys (2 ^ 14) i j v.preds
      pvl := copyKeys 1 i j v.pvl, prc := copyKeys 1 i j v.prc, runs := copyKeys 1 i j v.runs, mrow := copyKeys (2 ^ 9) i j v.mrow } }

/-- The queues of a cluster bound to one core rebound to another's codes (R383 step 5). -/
def Blk.rebind (b : Blk) (cl : Nat) (f : Nat → Nat) : Blk :=
  (List.range 16).foldl (fun c q => c.wf (qReg cl q) Fld.SEQ_Q_BIND (f (c.rf (qReg cl q) Fld.SEQ_Q_BIND))) b

/-- A cluster's sample follows a core's work (R384). -/
def WitSample.move (cl i j : Nat) (x : Nat × WitSample) : Nat × WitSample :=
  if x.1 = cl ∧ x.2.core = 5 * cl + i then (x.1, { x.2 with core := 5 * cl + j }) else x

/-- A core's work moved to another of its cluster; the old core's role is `old`. -/
def Blk.moveCore (b : Blk) (cl i j old : Nat) : Blk :=
  let b1 := b.copyCore (5 * cl + i) (5 * cl + j)
  let b2 := b1.rebind cl (fun x => if x = i then j else if x = 8 + i then 8 + j else x)
  let b3 : Blk := { b2 with
    units := { b2.units with sched := (List.range 5).foldl (fun m c => if b.schedTo cl c = i then Sp.set 0 m (5 * cl + c) (j + 1)
      else if b.schedTo cl c = j then Sp.set 0 m (5 * cl + c) (i + 1) else m) b2.units.sched }
    cores := { b2.cores with samples := b2.cores.samples.map (WitSample.move cl i j) }
    vec := { b2.vec with runs := b2.vec.runs.filter (fun x => x.1 != 5 * cl + i) } }
  let b3 := if (slotGet b2.cores.samples cl).any (fun x => decide (x.core = 5 * cl + i)) then b3.wf ⟨.WIT_STAT, cl, 0⟩ Fld.WIT_STAT_CORE j else b3
  (((b3.setRole (clUnit cl j) roActive).setRole (clUnit cl i) old).bump ⟨.AWL_HANDOVER_CNT, clDie cl, 0⟩ 1).record
    { code := 0x0110, die := clDie cl, unit := clUnit cl i, part := (b.partOf cl).getD 0xFF, data := leBytes 2 (clUnit cl j) }

/-- The cluster's SPARE. -/
def Blk.spareOf (b : Blk) (cl : Nat) : Option Nat := (List.range 5).find? (fun c => b.role (clUnit cl c) == roSpare)

/-! ### Requests for tests (R391) -/

def TestTrigger.code : TestTrigger → Nat
  | .fault => 1 | .witness => 2 | .health => 3 | .command => 4 | .disagreement => 5 | .startup => 6

/-- AWL_STATE follows the lists of tests. -/
def Blk.awlShow (b : Blk) (d : Nat) : Blk :=
  let r : RegRef := ⟨.AWL_STATE, d, 0⟩
  let mine (l : List TestReq) : List TestReq := l.filter (fun t => unitDie t.unit == d)
  ((b.wf r Fld.AWL_STATE_RUNNING (min 9 (mine b.units.running).length)).wf r Fld.AWL_STATE_QUEUED (min 4095 (mine b.units.queue).length)).wf r
    Fld.AWL_STATE_DEFERRED (b2n ((mine b.units.queue).any (fun t => t.deferred)))

/-- AWL_LAST: a test's result. -/
def Blk.awlLast (b : Blk) (u result trig stage sig : Nat) : Blk :=
  (b.wn ⟨.AWL_LAST, unitDie u, 0⟩ (u + 2 ^ 16 * result + 2 ^ 20 * trig + 2 ^ 24 * (stage % 256) + 2 ^ 32 * (sig % 2 ^ 32) +
    2 ^ 64 * ((b.shankNow (unitDie u)).toNat % 2 ^ 40))).tick.evGroup (unitDie u) 14 0

/-- A nibble of an AWL_TEST operation's result (R480). -/
def Blk.testNibble (b : Blk) (u x : Nat) : Blk :=
  { b with mbx := { b.mbx with ops := b.mbx.ops.map (fun (o : LongOp) =>
      if o.kind = .awlTest ∧ o.st.final = false then
        let ns := o.units.zipIdx.map (fun (y : Nat × Nat) => if y.1 = u ∧ o.nibbles.getD y.2 0 = 0 then x else o.nibbles.getD y.2 0)
        { o with nibbles := ns, st := if o.st = .queued then .running else o.st, ended := ns.all (fun v => v != 0)
                 result := ns.zipIdx.map (fun (y : Nat × Nat) => (16 + y.2 / 2, 1, (ns.getD (2 * (y.2 / 2)) 0) + 16 * (ns.getD (2 * (y.2 / 2) + 1) 0))) }
      else o) } }

/-- A test requested; a request for a unit whose test is queued or running is merged into it, and a queued test is then that of the unit as it stands: one that has been
fenced since waits for no closing (R391, R392). For a FAILED unit the result is that the test does not run (R407). -/
def Blk.askTest (b : Blk) (u : Nat) (k : TestTrigger) : Blk :=
  if b.role u = roFailed then (b.awlLast u 4 k.code 0 0).testNibble u 4
  else if b.units.running.any (fun t => t.unit == u) then b
  else if b.units.queue.any (fun t => t.unit == u) then
    if b.role u = roFenced ∨ b.role u = roSuspect then
      ({ b with units := { b.units with queue := b.units.queue.map (fun (t : TestReq) =>
          if t.unit = u then { t with prevRole := b.role u, deferred := false } else t) } }.wf (unitReg u) Fld.AWL_UNIT_DEFERRED 0).awlShow (unitDie u)
    else b
  else
    ({ b with units := { b.units with queue := b.units.queue ++ [({ unit := u, trigger := k, prevRole := b.role u, deferred := false } : TestReq)] } }).awlShow (unitDie u)

/-- A test that passes: counted, recorded, shown (R389, R406). -/
def Blk.awlPassed (b : Blk) (u trig : Nat) : Blk :=
  ((b.bump ⟨.AWL_PASS_CNT, unitDie u, 0⟩).record { code := 0x0120, die := unitDie u, unit := u, part := b.unitPart u }).awlLast u 1 trig 0 0

/-- A test that fails: counted, recorded, shown. -/
def Blk.awlFailed (b : Blk) (u trig stage sig : Nat) : Blk :=
  ((b.bump ⟨.AWL_FAIL_CNT, unitDie u, 0⟩).record { code := 0x0121, die := unitDie u, unit := u, part := b.unitPart u }).awlLast u 2 trig stage sig

/-! ### Failing a unit (R380, R388, R389) -/

/-- A DMA channel that counts for its cluster (R387): ACTIVE, or with no last loaded IDLE, or under a test that no fault asked for. -/
def Blk.dmaServes (b : Blk) (u : Nat) : Bool :=
  b.role u == roActive || b.role u == roIdle || (b.role u == roTesting && b.units.running.any (fun t => t.unit == u && t.prevRole == roActive))

/-- A cluster is short (R387, R388). -/
def Blk.short (b : Blk) (cl : Nat) : Bool :=
  let bad (i : Nat) : Bool := b.role (clUnit cl i) == roFailed
  decide (((List.range 5).filter (fun c => !bad c)).length < 4) || [5, 6, 7, 8, 14, 15].any bad || !([9, 10, 11, 12].any (fun i => b.dmaServes (clUnit cl i)))

/-- A partition whose last must be clicked again at its next boundary. -/
def Part.mustReclick (x : Nat × Part) : Nat × Part := (x.1, { x.2 with step := { x.2.step with reclick := true } })

/-- A die withdrawn: recorded once, and the lasts of the partitions that `f` names clicked again before the replay (R388, R406). -/
def Blk.withdraw (b : Blk) (d : Nat) (f : Nat × Part → Bool) : Blk :=
  let b1 := if bitOf b.pkg.withdrawn d then b else b.record { code := 0x0161, die := d, data := [BitVec.ofNat 8 d] }
  { b1 with pkg := { b1.pkg with withdrawn := setBit b1.pkg.withdrawn d true }, parts := b1.parts.map (fun (x : Nat × Part) => if f x then Part.mustReclick x else x) }

/-- The unit's cluster judged: one that is short now and was not withdraws its die (R388). `was` says that it was short before. -/
def Blk.judgeShort (b : Blk) (u : Nat) (was : Bool) : Blk :=
  let d := unitDie u
  if decide (4 ≤ d) || was || !b.short (unitCluster u) then b
  else (b.record { code := 0x0160, die := d, part := b.unitPart u, data := [BitVec.ofNat 8 (clK (unitCluster u))] }).withdraw d
    (fun x => (List.range 9).any (fun k => bitOf x.2.clusters (9 * d + k)))

/-- A unit becomes FAILED: listed in the boot NOR, a test it waits for or is under not run to an end, and its cluster judged. An I/O die whose lacing engine is FAILED
is withdrawn in the same way. -/
def Blk.failUnit (b : Blk) (u : Nat) : Blk :=
  if b.role u = roFailed then b
  else
    let d := unitDie u
    let was := decide (d < 4) && b.short (unitCluster u)
    let asked := (b.units.queue ++ b.units.running).any (fun t => t.unit == u)
    let b1 := ((b.setRole u roFailed).wf (unitReg u) Fld.AWL_UNIT_DEFERRED 0).record { code := 0x0124, die := d, unit := u, part := b.unitPart u }
    let b2 := { b1 with
      sec := { b1.sec with failedA := b1.sec.failedA.filter (fun x => x != u) ++ [u], failedB := b1.sec.failedB.filter (fun x => x != u) ++ [u] }
      units := { b1.units with queue := b1.units.queue.filter (fun t => t.unit != u), running := b1.units.running.filter (fun t => t.unit != u) } }
    let b3 := (if asked then b2.testNibble u 4 else b2).awlShow d
    if 4 ≤ d then b3.withdraw d (fun _ => true) else b3.judgeShort u was

/-! ### A detected fault (R379 to R381, R386, R387) -/

/-- The attempt that a unit's loss blocks is aborted (R386). -/
def Blk.noStandIn (b : Blk) (u : Nat) : Blk :=
  let p := b.unitPart u
  let b1 := (b.record { code := 0x0112, die := unitDie u, unit := u, part := p })
  let b2 := { b1 with units := { b1.units with noStand := if b1.units.noStand.contains u then b1.units.noStand else b1.units.noStand ++ [u] } }
  if (b2.stepOf p).open? then b2.abortAttempt p else b2

/-- A fault counted in the unit's FAULTS, with its time (R380, R414). -/
def Blk.countFault (b : Blk) (u : Nat) : Blk :=
  let b1 := b.bumpFld (unitReg u) Fld.AWL_UNIT_FAULTS
  ({ b1 with units := { b1.units with faultAt := b1.units.faultAt ++ [(u, (b.shankNow (unitDie u)).toNat)] } } : Blk).tick

/-- What follows a counted fault: with FAULT_LIMIT faults in the window before it the unit is FAILED without a test, else it is tested (R380). -/
def Blk.failOrTest (b : Blk) (u n : Nat) (k : TestTrigger) : Blk :=
  if b.rf ⟨.AWL_CFG, unitDie u, 0⟩ Fld.AWL_CFG_FAULT_LIMIT ≤ n then (b.failUnit u).awlLast u 4 k.code 0 0 else b.askTest u k

/-- A handover whose copy fails (R385): the source keeps its place, and the spare is fenced, reported and tested by the one treatment (log entry 180). -/
def Blk.copyFailed (b : Blk) (cl i j : Nat) : Blk :=
  let u := clUnit cl j
  let n := b.rf (unitReg u) Fld.AWL_UNIT_FAULTS
  let b1 := ((b.setRole u roFenced).record { code := 0x0101, die := clDie cl, unit := u, part := b.unitPart u }).countFault u
  let b2 := ((b1.evGroup (clDie cl) (clK cl) 5).record { code := 0x0111, die := clDie cl, unit := clUnit cl i, part := b.unitPart u, data := leBytes 2 u }).failOrTest u n .fault
  b2.fault (b.unitPart u) 0xFFFF true

/-- The stand-in of a fenced unit. `carried` says that a core carried work; `cf` that the copy of a handover fails its check. -/
def Blk.standIn (b : Blk) (u : Nat) (carried cf : Bool) : Blk :=
  let cl := unitCluster u
  let i := unitSlot u % 16
  if 4 ≤ unitDie u then b
  else if i < 5 then
    if !carried then b
    else match b.spareOf cl with
      | some j => if cf then (b.copyFailed cl i j).noStandIn u else b.moveCore cl i j roFenced
      | none => b.noStandIn u
  else if i = 5 ∨ i = 13 then b
  else if 9 ≤ i ∧ i ≤ 12 then
    match [9, 10, 11, 12].find? (fun k => b.unitUp (clUnit cl k)) with
    | some k => b.rebind cl (fun x => if x = 0x14 + (i - 9) then 0x14 + (k - 9) else x)
    | none => b.noStandIn u
  else b.noStandIn u

/-- The one treatment. `faults` says that the detection sets FAULT in the partition's attempt, attributed to `mb` unless the entry is SHARED; a lacing engine belongs to no
partition (R367), and its flows move by `Blk.flowsFollow` (R365, R387). -/
def Blk.unitTreat (b : Blk) (u : Nat) (k : TestTrigger) (faults : Bool) (mb : Nat) (shared cf : Bool) : Blk :=
  if b.role u = roFailed then b
  else
    let p := b.unitPart u
    let d := unitDie u
    let n := b.rf (unitReg u) Fld.AWL_UNIT_FAULTS
    let carried := b.role u == roActive
    let was := b.short (unitCluster u)
    let b1 := b.setRole u roFenced
    let b2 := if faults then b1.fault p mb shared else b1
    let b3 := (b2.record { code := 0x0101, die := d, unit := u, part := p }).countFault u
    let b4 := if d < 4 then b3.evGroup d (clK (unitCluster u)) 5 else (b3.evGroup d 8 5).wf ⟨.LAC_STATE, d, 0⟩ Fld.LAC_STATE_FENCED 1
    let b5 := if d < 4 ∧ unitSlot u % 16 = 13 then b4.witEnd (unitCluster u) else b4
    ((b5.standIn u carried cf).judgeShort u was).failOrTest u n k

/-- Step 5 of R402: the one treatment, and SUSPECT. -/
def Blk.suspect (b : Blk) (u : Nat) : Blk :=
  let b1 := b.unitTreat u .disagreement true 0xFFFF true false
  let b2 := (b1.bump ⟨.AWL_SUSPECT_CNT, unitDie u, 0⟩).record { code := 0x0131, die := unitDie u, unit := u, part := b.unitPart u }
  if b2.role u = roFailed then b2
  else
    let b3 := b2.setRole u roSuspect
    { b3 with units := { b3.units with queue := b3.units.queue.map (fun (t : TestReq) => if t.unit = u then { t with prevRole := roSuspect } else t) } }

/-- Steps 1 and 2: the unit is fenced while its work in flight drains, with the role it had. -/
def Blk.drainStart (b : Blk) (u : Nat) : Blk :=
  let b1 := b.wf (unitReg u) Fld.AWL_UNIT_ROLE roFenced
  if (slotGet b1.units.drain u).isSome then b1 else { b1 with units := { b1.units with drain := slotPut b1.units.drain u (b.role u), passed := b1.units.passed.filter (fun x => x != u) } }

/-- The unit disagrees: its work in flight drains, or, with none, both reads show what disagreed and it is suspect at once. -/
def Blk.disagree (b : Blk) (u : Nat) : Blk :=
  let b1 := b.record { code := 0x0130, die := unitDie u, unit := u, part := b.unitPart u }
  if b.unitBusy u then b1.drainStart u else b1.suspect u

/-- The units among those of `f` whose state words differ from the cobbler's table, those apart that drain (R402). -/
def Blk.wordsOff (b : Blk) (f : Nat → Bool) : List Nat :=
  (b.units.table.filter (fun x => f x.1 && b.up (unitDie x.1) && decide (x.2 ≠ b.role x.1) && !(b.units.drain.any (fun y => y.1 == x.1)))).map (fun (x : Nat × Nat) => x.1)

/-- The table compared with the state words of the units of `f`. -/
def Blk.wordsCheck (b : Blk) (f : Nat → Bool) : Blk := (b.wordsOff f).foldl (fun c u => c.disagree u) b

/-- A detected fault of a unit: the one treatment, and at this event the words of every other unit compared with the table (R402). -/
def Blk.unitFault (b : Blk) (u : Nat) (k : TestTrigger) (faults : Bool) (mb : Nat) (shared cf : Bool) : Blk :=
  if b.role u = roFailed then b else (b.unitTreat u k faults mb shared cf).wordsCheck (fun _ => true)

/-- FAULT_WINDOW_EXPIRY (R380): the unit's oldest fault leaves the window. -/
def Blk.faultExpiry (b : Blk) (u : Nat) : Blk :=
  let b1 := b.wf (unitReg u) Fld.AWL_UNIT_FAULTS (b.rf (unitReg u) Fld.AWL_UNIT_FAULTS - 1)
  { b1 with units := { b1.units with faultAt := b1.units.faultAt.eraseP (fun (x : Nat × Nat) => x.1 == u) } }

/-- A path fault noted (R382): counted on the consumer's die; found again on the same block in a later attempt of the step, the block is bad at its source. -/
def Blk.pathNote (b : Blk) (p d blk : Nat) : Blk :=
  let b1 := (b.bump ⟨.AWL_PATH_CNT, d, 0⟩).record { code := 0x0102, die := d, part := p, data := leBytes 8 blk }
  let at_ := (b.stepOf p).attempt
  let b2 := b1.onStep p (fun st => { st with pathBlk := st.pathBlk ++ [(blk, at_)] })
  let again := (b.stepOf p).pathBlk.any (fun (x : Nat × Nat) => decide (x.1 = blk) && decide (x.2 < at_))
  if again && decide (blk < 2 ^ 40) && !b.units.badBlk.contains blk then { b2 with units := { b2.units with badBlk := b2.units.badBlk ++ [blk] } } else b2

/-- A path fault of an engine, which sets FAULT. -/
def Blk.pathFault (b : Blk) (p d blk mb : Nat) (shared : Bool) : Blk := (b.pathNote p d blk).fault p mb shared

/-! ### Handover and tests (R389 to R395) -/

/-- HANDOVER: the work of a core moves to its cluster's SPARE; `cf` says that the copy fails its check (R385). -/
def Blk.handover (b : Blk) (cl i : Nat) (cf : Bool) : Blk :=
  let u := clUnit cl i
  if 5 ≤ i ∨ 36 ≤ cl ∨ !(b.role u == roActive || (b.role u == roFenced && b.units.noStand.contains u)) then b
  else match b.spareOf cl with
    | none => b
    | some j =>
      if cf then (if b.role u = roFenced then (b.copyFailed cl i j).noStandIn u else b.copyFailed cl i j)
      else
        let b1 := b.moveCore cl i j (if b.role u = roFenced then roFenced else roTesting)
        { b1 with units := { b1.units with noStand := b1.units.noStand.filter (fun x => x != u) } }

/-- An attempt runs on the partition of a cluster. -/
def Blk.attemptOn (b : Blk) (cl : Nat) : Bool :=
  match b.partOf cl with
  | some p => let st := b.stepOf p
              decide (st.state = 1) || decide (st.state = 2) && decide (st.outcome = .none) || decide (st.state = 3)
  | none => false

/-- A collective of a lacing engine's partitions is running, or one whose lead it is (R389). -/
def Blk.collsRunning (b : Blk) (u : Nat) : Bool :=
  b.parts.any (fun x => x.2.colls.any (fun (c : Coll) => c.started && !c.complete && ((b.unitParts u).contains x.1 || decide (b.leadOf c.cseq = unitDie u))))

/-- The cluster carries work: a last is loaded on its partition, and its die is not one that rejoins. -/
def Blk.clusterWorks (b : Blk) (cl : Nat) : Bool := match b.partOf cl with | some p => (b.part p).any (fun x => x.loaded) && !bitOf b.pkg.lost (clDie cl) | none => false

/-- The partition stands within a step whose closing has not reached APPLY, APPLY_DROP, SKIP or EMPTY (R278, R393). -/
def Blk.midStep (b : Blk) (p : Nat) : Bool := (b.part p).any (fun x => x.loaded) && (decide ((b.stepOf p).state = 1) || decide ((b.stepOf p).state = 2))

/-- A test of a healthy DMA channel that runs beside the step: another channel of its cluster is ACTIVE (R393). -/
def Blk.dmaBeside (b : Blk) (u : Nat) : Bool :=
  let i := unitSlot u % 16
  decide (unitDie u < 4) && decide (9 ≤ i) && decide (i ≤ 12) && [9, 10, 11, 12].any (fun k => b.unitUp (clUnit (unitCluster u) k) && decide (k ≠ i))

/-- No attempt runs on a cluster that holds a last (R390): at a step boundary with its queues at their ends, after a closing that repeats the step, or once the job has halted. -/
def Blk.seqIdle (b : Blk) (cl : Nat) : Bool :=
  match b.partOf cl with
  | some p =>
    let st := b.stepOf p
    b.flightsOf cl == [] && (decide (st.state = 5) || (decide (st.state = 2) && (st.outcome == .replay || st.outcome == .dropAttempt)) ||
      (decide (st.state = 0) && (decide (st.outcome = .none) || (List.range 16).all (fun q => decide (b.rf (qReg cl q) Fld.SEQ_Q_LENGTH ≤ b.rf (qReg cl q) Fld.SEQ_Q_POS)))))
  | none => true

/-- A test is of a fenced unit. -/
def TestReq.fenced (t : TestReq) : Bool := t.prevRole == roFenced || t.prevRole == roSuspect

/-- A healthy unit's test cannot start beside the step: its core has no ready SPARE, or it is another engine, a DMA channel apart while another channel is
ACTIVE, or a lacing engine in the step of a partition that it works for (R393). -/
def Blk.mustDefer (b : Blk) (t : TestReq) : Bool :=
  let u := t.unit
  let cl := unitCluster u
  !t.fenced && (b.unitParts u).any b.midStep &&
  (if 4 ≤ unitDie u then true
   else b.clusterWorks cl && (if unitSlot u % 16 < 5 then b.role u == roActive && (b.spareOf cl).isNone else !b.dmaBeside u))

/-- A unit may start its test now (R389, R390, R392). -/
def Blk.testMay (b : Blk) (t : TestReq) : Bool :=
  let u := t.unit
  let cl := unitCluster u
  let i := unitSlot u % 16
  if 4 ≤ unitDie u then !b.collsRunning u
  else
    let busy := b.units.running.any (fun x => decide (unitDie x.unit < 4) && unitCluster x.unit == cl)
    let earlier := (b.units.queue.takeWhile (fun x => x != t)).any (fun x => decide (unitDie x.unit < 4) && unitCluster x.unit == cl && (x.fenced == t.fenced) && !x.deferred)
    let fencedFirst := !t.fenced && b.units.queue.any (fun x => x.fenced && decide (unitDie x.unit < 4) && unitCluster x.unit == cl)
    !b.pwr.doze && (!b.clusterWorks cl || (!busy && !earlier && !fencedFirst)) && (decide (i ≠ 15) || !b.clusterWorks cl || b.seqIdle cl)

/-! ### Gating (R435, R446) -/

/-- The cluster is gated. -/
def Blk.gated (b : Blk) (cl : Nat) : Bool := bitOf (b.rn ⟨.CLK_GATED, clDie cl, 0⟩) (clK cl)

def Blk.setGated (b : Blk) (cl : Nat) (x : Bool) : Blk :=
  b.wn ⟨.CLK_GATED, clDie cl, 0⟩ (setBit (b.rn ⟨.CLK_GATED, clDie cl, 0⟩) (clK cl) x)

/-- BARRIER_RAMP: the gap taken at the edge, ⌊f × 0.0625 + 0.5⌋ cycles, and the ramp counted. -/
def Blk.barrier (b : Blk) (d : Nat) : Blk :=
  if b.rf ⟨.CLK_RAMP_CFG, d, 0⟩ Fld.CLK_RAMP_CFG_ENABLE = 0 then b
  else (b.wf ⟨.CLK_RAMP_CFG, d, 0⟩ Fld.CLK_RAMP_CFG_WAVE_GAP ((b.rf ⟨.CLK_STATE, d, 0⟩ Fld.CLK_STATE_FREQ + 8) / 16)).bump ⟨.CLK_BARRIER_CNT, d, 0⟩

/-- CLUSTER_WAKE: a barrier for the cluster's arrays. -/
def Blk.clusterWake (b : Blk) (cl : Nat) : Blk :=
  if cl < 36 ∧ b.gated cl = true then ((b.setGated cl false).bump ⟨.CLK_WAKE_CNT, clDie cl, 0⟩).barrier (clDie cl) else b

/-- The insole and engines of a cluster returned to reset (R551). -/
def Blk.clusterClear (b : Blk) (cl : Nat) : Blk :=
  let keep (n : RegName) : Bool := n == .SEQ_INS_MAPOUT
  let b1 := { b with regs := b.regs.filter (fun x =>
    let w : RegRow := x.1.name.row
    !((w.scope == Scope.cluster && decide (x.1.at_ = cl) && !keep x.1.name) || (w.scope == Scope.core && decide (x.1.at_ / 5 = cl)))) }
  let cut {α : Type} (w n : Nat) (m : List (Nat × α)) : List (Nat × α) := Sp.clear m (n * w) w
  { b1 with
    ins := { data := cut (2 ^ 27) cl b1.ins.data, aglets := cut (2 ^ 15) cl b1.ins.aglets }
    cores := {
      cb := cut (5 * 2 ^ 22) cl b1.cores.cb, lines := cut (5 * 2 ^ 14) cl b1.cores.lines, acc := cut (5 * 2 ^ 17) cl b1.cores.acc
      rowPois := cut (5 * 2 ^ 11) cl b1.cores.rowPois, rowMask := cut (5 * 2 ^ 11) cl b1.cores.rowMask, banks := cut 80 cl b1.cores.banks, accCnt := cut 5 cl b1.cores.accCnt
      samples := cut 1 cl b1.cores.samples }
    vec := {
      tiles := cut (5 * 2 ^ 16) cl b1.vec.tiles, pois := cut (5 * 2 ^ 9) cl b1.vec.pois, preds := cut (5 * 2 ^ 14) cl b1.vec.preds
      pvl := cut 5 cl b1.vec.pvl, prc := cut 5 cl b1.vec.prc, runs := cut 5 cl b1.vec.runs, mrow := cut (5 * 2 ^ 9) cl b1.vec.mrow }
    stash := { b1.stash with
      ents := cut 4096 cl b1.stash.ents, insUse := cut 16 cl b1.stash.insUse, hbmUse := cut 16 cl b1.stash.hbmUse
      swtch := setBit b1.stash.swtch cl false, fell := setBit b1.stash.fell cl false }
    seq := { b1.seq with flights := b1.seq.flights.filter (fun f => f.cl != cl) } }

/-- A cluster reset; a gated cluster is woken for it and gated again (R551). -/
def Blk.clusterReset (b : Blk) (cl : Nat) : Blk := if b.gated cl then ((b.clusterWake cl).clusterClear cl).setGated cl true else b.clusterClear cl

/-- CLUSTER_RESET, made only while no descriptor is in flight and no attempt runs. -/
def Blk.clusterResetCmd (b : Blk) (cl : Nat) : Blk :=
  if cl < 36 ∧ b.flightsOf cl = [] ∧ b.attemptOn cl = false then b.clusterReset cl else b

/-- An AWL_TEST operation whose test starts is RUNNING (R479). -/
def Blk.testRuns (b : Blk) (u : Nat) : Blk :=
  { b with mbx := { b.mbx with ops := b.mbx.ops.map (fun (o : LongOp) =>
      if o.kind = .awlTest ∧ o.st = .queued ∧ o.units.contains u = true then { o with st := OpState.running } else o) } }

/-- A requested test begins: the unit is TESTING. -/
def Blk.testGo1 (b : Blk) (t : TestReq) : Blk :=
  let b1 := (b.setRole t.unit roTesting).wf (unitReg t.unit) Fld.AWL_UNIT_DEFERRED 0
  (({ b1 with units := { b1.units with
      queue := b1.units.queue.filter (fun x => x.unit != t.unit), running := b1.units.running ++ [{ t with deferred := false }] } }).testRuns t.unit).awlShow (unitDie t.unit)

/-- A test that ends without a result (R394): the role before the test, a core whose work had moved FENCED, and the test asked for again. -/
def Blk.testAbort (b : Blk) (u : Nat) : Blk :=
  match b.units.running.find? (fun t => t.unit == u) with
  | none => b
  | some t =>
    let back := if t.moved then roFenced else t.prevRole
    let b1 := ({ b with units := { b.units with running := b.units.running.filter (fun x => x.unit != u) } }).setRole u back
    let b2 := (b1.awlLast u 3 t.trigger.code 0 0).record { code := 0x0123, die := unitDie u, unit := u, part := b.unitPart u }
    ((b2.askTest u t.trigger).testNibble u 3).awlShow (unitDie u)

/-- The section of the image that holds a unit's awl program (R513). -/
def awlSection (u : Nat) : Nat := if unitDie u < 4 then 5 else 6

/-- A section that does not match on its second reading (R514). -/
def Blk.sectionBad (b : Blk) (d t : Nat) : Blk := b.record { code := 0x0008, die := d, data := leBytes 2 t }

/-- A start-up test that ends without a result, its program not matching its hash (R394, R514); it is asked for again. -/
def Blk.untested (b : Blk) (u : Nat) : Blk :=
  (((b.sectionBad (unitDie u) (awlSection u)).awlLast u 3 6 0 0).record { code := 0x0123, die := unitDie u, unit := u, part := b.unitPart u }).askTest u .startup

/-- A test begins with its awl program; with a program that does not match its hash it ends without a result (R514). -/
def Blk.testBegin (b : Blk) (t : TestReq) : Blk :=
  let b1 := b.testGo1 t
  if b.sec.loadsOk (awlSection t.unit) then b1 else (b1.sectionBad (unitDie t.unit) (awlSection t.unit)).testAbort t.unit

/-- AWL_TEST_START: the queued test of a unit starts when the cluster's order allows; a healthy core hands its work over first; where it must wait, it is
deferred to a closing (R393). -/
def Blk.testStart (b : Blk) (u : Nat) (cf : Bool) : Blk :=
  match b.units.queue.find? (fun t => t.unit == u) with
  | none => b
  | some t =>
    if b.role u = roFailed then
      ({ b with units := { b.units with queue := b.units.queue.filter (fun x => x.unit != u) } }).awlLast u 4 t.trigger.code 0 0 |>.testNibble u 4 |>.awlShow (unitDie u)
    else if b.mustDefer t then
      if t.deferred then b
      else
        let b1 := { b with units := { b.units with queue := b.units.queue.map (fun (x : TestReq) => if x.unit = u then { x with deferred := true } else x) } }
        (((b1.wf (unitReg u) Fld.AWL_UNIT_DEFERRED 1).bump ⟨.AWL_DEFER_CNT, unitDie u, 0⟩).record
          { code := 0x0122, die := unitDie u, unit := u, part := b.unitPart u }).awlShow (unitDie u)
    else if !b.testMay t then b
    else
      let cl := unitCluster u
      let i := unitSlot u % 16
      let core := decide (unitDie u < 4) && decide (i < 5)
      let b1 := if core && b.role u == roActive && b.clusterWorks cl && (b.spareOf cl).isSome then b.handover cl i cf else b
      if core && b.role u == roActive && b.clusterWorks cl && b1.role u == roActive then b1
      else
        let b2 := if decide (unitDie u < 4) && decide (9 ≤ i) && decide (i ≤ 12) && b.role u == roActive then b1.standIn u true false else b1
        let b3 := if decide (unitDie u < 4) && decide (i = 15) && !b.clusterWorks cl then b2.clusterReset cl else b2
        b3.testBegin { t with moved := t.moved || (core && b.role u == roActive && decide (b1.role u ≠ roActive)) }

/-- The queues and counters of a cluster written from the last in force (R298), each queue bound to the core that serves its schedule core. A queue or counter that
the variant does not use is at its reset value, with no program (R254). -/
def Blk.loadSched (b : Blk) (p cl : Nat) : Blk :=
  match b.variantOf p with
  | none => b
  | some v =>
    let b : Blk := { b with regs := b.regs.filter (fun x => !((x.1.name == .SEQ_Q || x.1.name == .SEQ_CTR) && decide (x.1.at_ = cl))) }
    match v.sched.find? (fun (s : Sched) => s.cl == cl) with
    | none => b
    | some s =>
      let b1 := s.progs.foldl (fun c (q : QProg) =>
        let bind := if q.bind < 5 then b.schedTo cl q.bind else if 8 ≤ q.bind ∧ q.bind < 13 then 8 + b.schedTo cl (q.bind - 8) else q.bind
        c.wn (qReg cl q.q) (q.base % 2 ^ 27 + 2 ^ 32 * (q.bytes.length % 2 ^ 27) + 2 ^ 64 * bind + 2 ^ 72 * b2n q.latency)) b
      s.ctrs.foldl (fun c (x : Nat × Nat × Nat) => c.wn ⟨.SEQ_CTR, cl, x.1⟩ (x.2.1 % 65536 + 65536 * (x.2.2 % 65536))) b1

/-- A CONFIG word as its register takes it: its fields, clamped; reserved bits stay 0 (R8). -/
def cfgWord (n : RegName) (v : Nat) : Nat := (regClamp 0 n (BitVec.ofNat 256 v &&& n.row.rw)).toNat

/-- A value that R130 calls invalid: a GROW_STEPS, FLOOR_SKIPS or THRESH of 0. -/
def cfgInvalid (n : RegName) (v : Nat) : Bool :=
  (n == .FIN_LSCALE_CFG && (decide (bits v 8 16 = 0) || decide (bits v 24 8 = 0))) || (n == .FIN_GH_CFG && decide (bits v 0 16 = 0))

/-- A CONFIG word written; an invalid value is replaced and recorded (R130). -/
def Blk.setCfg (b : Blk) (n : RegName) (cl v : Nat) : Blk :=
  let b1 := b.wn ⟨n, cl, 0⟩ (cfgWord n v)
  if cfgInvalid n v then b1.record { code := 0x0025, die := clDie cl, part := (b.partOf cl).getD 0xFF, data := leBytes 4 v } else b1

/-- The CONFIG registers of a cluster written from the last. -/
def Blk.loadConfig (b : Blk) (l : Last) (cl : Nat) : Blk :=
  ((((((b.setCfg .FIN_LSCALE_CFG cl l.cfgScale).setCfg .FIN_UF_CFG cl l.cfgUf).setCfg .FIN_GH_CFG cl l.cfgGh).setCfg .WIT_CFG cl l.cfgWit).setCfg
    .WIT_TOL_CFG cl l.cfgTol).setCfg .SEQ_STEP_CFG cl l.cfgStep).setCfg .SEQ_CLOSE_TMO cl l.cfgTmo

/-- The queues of a cluster stand at their ends. -/
def Blk.endQueues (b : Blk) (cl : Nat) : Blk :=
  (List.range 16).foldl (fun c q => c.wf ⟨.SEQ_Q, cl, q⟩ Fld.SEQ_Q_POS (c.rf ⟨.SEQ_Q, cl, q⟩ Fld.SEQ_Q_LENGTH)) b

/-- A core that has passed its test: its arrays and its vector engine are unfenced (R83, R165). -/
def Blk.coreUnfence (b : Blk) (core : Nat) : Blk :=
  ((b.wf ⟨.SEQ_ARR_STATE, core, 0⟩ Fld.SEQ_ARR_STATE_FENCE_W 0).wf ⟨.SEQ_ARR_STATE, core, 0⟩ Fld.SEQ_ARR_STATE_FENCE_E 0).wf
    ⟨.SEQ_VEC_STATE, core, 0⟩ Fld.SEQ_VEC_STATE_FENCED 0

/-- What a passed sequencer test leaves (R390): the last's values, and statistics from 0. -/
def Blk.seqRestored (b : Blk) (cl : Nat) : Blk :=
  match b.partOf cl with
  | none => b
  | some p =>
    match b.lastOf p with
    | none => b
    | some l =>
      let b1 := (((b.loadSched p cl).endQueues cl).setCfg .SEQ_STEP_CFG cl l.cfgStep).setCfg .SEQ_CLOSE_TMO cl l.cfgTmo
      [RegName.SEQ_REPLAY_CNT, .SEQ_DROP_MB_CNT, .SEQ_SKIP_CNT, .SEQ_STEP_DONE_CNT, .SEQ_FEED_WAIT, .SEQ_RNG_RECOMP, .SEQ_RNG_STALL, .SEQ_DMA_BLK_CNT, .SEQ_DMA_AGLET_CNT,
        .SEQ_INS_CE, .SEQ_INS_UE].foldl (fun c n => c.wn ⟨n, cl, 0⟩ 0) b1

/-- The role a unit takes after a pass (R379): a core its cluster's SPARE, unless its work never moved; any other unit ACTIVE. -/
def Blk.roleBack (b : Blk) (u : Nat) (prev : Nat) (moved : Bool) : Nat :=
  let cl := unitCluster u
  let i := unitSlot u % 16
  if prev = roIdle then roIdle
  else if unitDie u < 4 ∧ i < 5 then
    if b.units.noStand.contains u || (prev == roActive && !moved) then roActive
    else if (List.range 5).any (fun c => b.role (clUnit cl c) == roSpare && c != i) then roActive else roSpare
  else roActive

/-- A test's result noted where it is the first test of a health alarm (R128). -/
def Blk.healthSeen (b : Blk) (u : Nat) (pass : Bool) : Blk :=
  { b with parts := b.parts.map (fun (x : Nat × Part) => (x.1, { x.2 with healthAsk := x.2.healthAsk.map (fun (z : Nat × Nat × Nat) =>
      if z.2.1 = u ∧ z.2.2 = 0 then (z.1, z.2.1, if pass then 1 else 2) else z) })) }

/-- AWL_TEST_RESULT: the unit passes and returns, or fails and becomes FAILED; a returned spare takes the work of a core that has no stand-in (R395). -/
def Blk.testResult (b : Blk) (u : Nat) (pass : Bool) (stage sig : Nat) : Blk :=
  match b.units.running.find? (fun t => t.unit == u) with
  | none => b
  | some t =>
    let d := unitDie u
    let cl := unitCluster u
    let b0 := ({ b with units := { b.units with running := b.units.running.filter (fun x => x.unit != u) } } : Blk).healthSeen u pass
    if pass then
      let b1 := b0.awlPassed u t.trigger.code
      let b2 := b1.setRole u (b1.roleBack u t.prevRole t.moved)
      let b3 := { b2 with units := { b2.units with noStand := b2.units.noStand.filter (fun x => x != u), passed := b2.units.passed.filter (fun x => x != u) ++ [u] } }
      let b4 := if d < 4 ∧ unitSlot u % 16 = 15 then b3.seqRestored cl else if d < 4 ∧ unitSlot u % 16 < 5 then b3.coreUnfence (5 * cl + unitSlot u % 16) else b3
      let b5 := if 4 ≤ d then b4.wf ⟨.LAC_STATE, d, 0⟩ Fld.LAC_STATE_FENCED 0 else b4
      let b6 := match (if d < 4 then (List.range 5).find? (fun c => b5.role (clUnit cl c) == roFenced && b5.units.noStand.contains (clUnit cl c)) else none) with
        | some c => b5.handover cl c false
        | none => b5
      (b6.testNibble u 1).awlShow d
    else
      (((b0.awlFailed u t.trigger.code stage sig).failUnit u).testNibble u 2).awlShow d

/-- Tests of a kind of unit that are running end without a result. -/
def Blk.abortTests (b : Blk) (f : Nat → Bool) : Blk :=
  ((b.units.running.map (fun t => t.unit)).filter f).foldl (fun c u => c.testAbort u) b

/-- The deferred tests of a partition may start: its closing has reached APPLY, APPLY_DROP, SKIP or EMPTY (R278, R393). A lacing engine's waits for every partition that it
works for, a sequencer's for the boundary (R390). -/
def Blk.deferredGo (b : Blk) (p : Nat) : Blk :=
  let go (t : TestReq) : Bool := t.deferred && (b.unitParts t.unit).contains p && !b.mustDefer t && !(decide (unitDie t.unit < 4) && decide (unitSlot t.unit % 16 = 15))
  ((b.units.queue.filter go).map (fun t => t.unit)).foldl (fun c u =>
    let c1 := { c with units := { c.units with queue := c.units.queue.map (fun (x : TestReq) => if x.unit = u then { x with deferred := false } else x) } }
    ((c1.wf (unitReg u) Fld.AWL_UNIT_DEFERRED 0).awlShow (unitDie u)).testStart u false) b

/-- A test that must end before the partition's next attempt (R379, R390, R393): of a core that has no SPARE beside it, of a healthy engine other than a DMA channel that another
stands beside, or of a fenced engine that nothing stands in for. -/
def Blk.testHolds (b : Blk) (t : TestReq) : Bool :=
  let i := unitSlot t.unit % 16
  if 4 ≤ unitDie t.unit then !t.fenced
  else if i < 5 then !t.fenced && (b.spareOf (unitCluster t.unit)).isNone && !t.moved
  else if t.fenced then decide (i ≠ 13) && !(decide (9 ≤ i) && decide (i ≤ 12))
  else !b.dmaBeside t.unit

/-- The units that an attempt waits for (R282, R386, R393): fenced without a stand-in, or with a test that must end first, a withdrawn die's apart (R388). A test that waits
for a closing holds no attempt back, but a sequencer's at the boundary. -/
def Blk.unitsReady (b : Blk) (p : Nat) : Bool :=
  let mine (u : Nat) : Bool := (b.unitParts u).contains p && !(decide (unitDie u < 4) && bitOf b.pkg.withdrawn (unitDie u))
  let atEnd (t : TestReq) : Bool := decide (unitDie t.unit < 4) && decide (unitSlot t.unit % 16 = 15) && decide ((b.stepOf p).state = 0)
  let due := (b.units.running ++ b.units.queue.filter (fun t => !t.deferred || atEnd t)).filter (fun t => mine t.unit)
  !(b.units.noStand.any (fun u => mine u && !(b.role u == roFailed))) && !(due.any b.testHolds)

/-! ### AWL_CMD (R378, R407) -/

def Blk.unitExists (b : Blk) (u : Nat) : Bool :=
  decide (u < 4096) && b.present (unitDie u) && decide (unitSlot u < (if unitDie u < 4 then 144 else 1))

/-- FENCE: of a unit that is in use; one that is FENCED, SUSPECT or TESTING leaves that only by a pass or by failing. -/
def Blk.awlFence (b : Blk) (u : Nat) : Blk :=
  if b.unitExists u && (b.role u == roActive || b.role u == roSpare || b.role u == roIdle) then b.setRole u roFenced else b
/-- RETURN, accepted only after a pass. -/
def Blk.awlReturn (b : Blk) (u : Nat) : Blk :=
  if b.unitExists u && b.units.passed.contains u && decide (b.role u ≠ roFailed) then
    ({ b with units := { b.units with passed := b.units.passed.filter (fun x => x != u) } }).setRole u (b.roleBack u (b.role u) false)
  else b
/-- TEST: the unit is under test as soon as its cluster's order allows, by its queued request where it has one; a FAILED unit's test does not run. -/
def Blk.awlTestCmd (b : Blk) (u : Nat) : Blk := if b.unitExists u then (b.askTest u .command).testStart u false else b
/-- MAKE_SPARE: a core, and one that may carry work (a fenced unit leaves only by a pass). -/
def Blk.awlSpare (b : Blk) (u : Nat) : Blk :=
  if b.unitExists u && decide (unitDie u < 4) && decide (unitSlot u % 16 < 5) &&
      (b.role u == roActive || b.role u == roIdle || b.role u == roSpare || b.units.passed.contains u) && decide (b.role u ≠ roFailed) then b.setRole u roSpare else b
/-- FAIL. -/
def Blk.awlFail (b : Blk) (u : Nat) : Blk := if b.unitExists u then b.failUnit u else b

/-! ### Management path and data path (R402, R403) -/

/-- DRAIN_TIMEOUT: what is left of the unit's work is discarded, and the word is read twice, as `w1` and `w2` (roles). For a difference in shared registers the
last's values stand in for the table, and the registers for the word; those of a suspect unit are rewritten (R403). -/
def Blk.drainTimeout (b : Blk) (u w1 w2 : Nat) : Blk :=
  match slotGet b.units.drain u with
  | none => b
  | some was =>
    let regs := b.units.regWait.filter (fun x => x.1 == u)
    let left := b.unitBusy u
    let work := if unitDie u < 4 then b.seq.flights.filter (fun f => decide (codeUnit f.cl (b.bindOf f) = u)) else []
    let b1 := work.foldl (fun c f => c.discardFlight f) { b with units := { b.units with
      drain := b.units.drain.filter (fun x => x.1 != u), regWait := b.units.regWait.filter (fun x => x.1 != u) } }
    let home := if regs = [] then Sp.get 6 b.units.table u else was
    if (if regs = [] then w1 = w2 ∧ w1 = home else regs.all (fun x => decide (b.rn x.2.1 = x.2.2 % 2 ^ x.2.1.name.row.width)) = true) then
      let b2 := (b1.bump ⟨.AWL_DISAGREE_CNT, unitDie u, 0⟩)
      if left then (b2.wf (unitReg u) Fld.AWL_UNIT_ROLE home).unitFault u .disagreement true 0xFFFF true false
      else b2.wf (unitReg u) Fld.AWL_UNIT_ROLE home
    else ((regs.foldl (fun c x => c.wn x.2.1 x.2.2) b1).wf (unitReg u) Fld.AWL_UNIT_ROLE was).suspect u

/-- The registers of a cluster that every cluster of a job holds alike, with the unit that holds each. -/
def sharedRegs (l : Last) : List (RegName × Nat × Nat) :=
  [(.FIN_LSCALE_CFG, l.cfgScale, 5), (.FIN_UF_CFG, l.cfgUf, 5), (.FIN_GH_CFG, l.cfgGh, 5), (.WIT_CFG, l.cfgWit, 13),
   (.SEQ_STEP_CFG, l.cfgStep, 15), (.SEQ_CLOSE_TMO, l.cfgTmo, 15)]

/-- One shared register compared (R403). A difference is a disagreement of its holder: after the drain of its work, at once where there is none, the register is read
again, and a holder made SUSPECT has it rewritten; the cobbler, which holds AWL_CFG, rewrites it itself. -/
def Blk.checkReg (b : Blk) (r : RegRef) (want : Nat) (u : Nat) (unit : Bool) : Blk :=
  if b.rn r = want % 2 ^ r.name.row.width ∨ (b.units.regWait.any (fun x => decide (x.2.1 = r))) = true then b
  else
    let b1 := b.record { code := 0x0132, die := unitDie u, unit := if unit then u else 0xFFFF, part := if unit then b.unitPart u else 0xFF }
    if !unit || b.role u == roFailed then b1.wn r want
    else
      let b2 := b1.record { code := 0x0130, die := unitDie u, unit := u, part := b.unitPart u }
      if b.unitBusy u then
        let b3 := b2.drainStart u
        { b3 with units := { b3.units with regWait := b3.units.regWait ++ [(u, r, want)] } }
      else (b2.wn r want).suspect u

/-- MGMT_CROSS_CHECK (R402, R403): the table against the state words of a partition's units, and the shared registers against CONFIG. FIN_LSCALE, which the last does not
hold, is compared with that of the partition's first live cluster (log entry 173). -/
def Blk.crossCheck (b : Blk) (p : Nat) : Blk :=
  let b1 := b.wordsCheck (fun u => decide (4 ≤ unitDie u) || (b.unitParts u).contains p)
  match b1.lastOf p with
  | none => b1
  | some l =>
    let cls := b1.liveClusters p
    let b2 := cls.foldl (fun c cl => (sharedRegs l).foldl (fun c x => c.checkReg ⟨x.1, cl, 0⟩ (cfgWord x.1 x.2.1) (clUnit cl x.2.2) true) c) b1
    let scale := b2.rn ⟨.FIN_LSCALE, cls.headD 0, 0⟩
    let b3 := cls.foldl (fun c cl => c.checkReg ⟨.FIN_LSCALE, cl, 0⟩ scale (clUnit cl 5) true) b2
    let b4 := b3.iodsUp.foldl (fun c d => c.checkReg ⟨.LAC_CFG, d, 0⟩ (cfgWord .LAC_CFG l.cfgLac) (unitId d 0) true) b3
    ((List.range 10).filter b4.up).foldl (fun c d => c.checkReg ⟨.AWL_CFG, d, 0⟩ (cfgWord .AWL_CFG l.cfgAwl) (unitId d 0) false) b4

end Sys2Proof.Machine
end

