-- ==== Sys2Proof/Machine/Sequencer.lean ====
section
/-!
DEFINITION. The cluster sequencer (R255 to R261, R269 to R271): issue, waits, the engines' descriptors, completions, and the re-issue of a stopped
FIN_APPLY (R190).
-/
namespace Sys2Proof.Machine

/-! ### Where tensors lie (R220, R240) -/

/-- The first logical block of the half that holds outliving regions, or of the other half. -/
def Blk.regionBase (b : Blk) (held : Bool) : Nat :=
  let high := b.rf capReg Fld.HBM_CAP_HELD_HIGH == 1
  halfBase (if held then high else !high) b.hbmP

/-- The first logical block and the blocks of the i-th tensor of the table under the variant in force. -/
def Blk.tensorAt (b : Blk) (p i : Nat) : Option (Nat × Nat) :=
  (b.variantOf p).bind (fun (v : Variant) => (v.places[i]?).map (fun (x : Nat × Nat × Nat) => (b.regionBase (x.1 == 1) + x.2.1, x.2.2)))

/-- The operations an engine has; another code is reserved and completes with BAD_DESC. -/
def opKnown (code : Nat) (raw : BitVec 512) : Bool :=
  let op := opOf code raw
  if code < 5 then decide (op ≤ 2) else if code < 13 then decide (op = 0) || decide (op = 3)
  else if code = 0x10 then decide (op ≤ 2) else if code = 0x11 then decide (op ≤ 3) else if code < 0x14 then decide (op ≤ 4)
  else decide (op = 0) || (decide (op = 1) && decide ((DmaDesc.parse raw).mode ≤ 3))

/-- Descriptors an engine holds in flight (R173). -/
def inFlightMax (code : Nat) : Nat := if code < 0x10 then 128 else if code = 0x10 then 2 else if code < 0x14 then 4 else 16

/-! ### Counters (R255, R258) -/

/-- A counter loaded with its reload value. -/
def Blk.rearm (b : Blk) (cl n : Nat) : Blk :=
  if n = 255 then b else b.wf (ctrReg cl n) Fld.SEQ_CTR_VALUE (b.rf (ctrReg cl n) Fld.SEQ_CTR_RELOAD)

/-- COUNTER_UNDERFLOW: a detected fault of the sequencer; one that recurs in a replay halts with LAST_ERROR (R258, R288). -/
def Blk.underflow (b : Blk) (cl mb : Nat) (shared : Bool) : Blk :=
  let p := (b.partOf cl).getD 0xFF
  let st := b.stepOf p
  let b1 := if st.uflow ≠ 0 ∧ st.uflow ≤ st.attempt then b.haltFlag p 1 else b
  (b1.onStep p (fun s => { s with uflow := if s.uflow = 0 then s.attempt + 1 else s.uflow })).unitFault (clUnit cl 15) .fault true mb shared false

/-- A decrement of a counter. -/
def Blk.signal (b : Blk) (cl n mb : Nat) (shared : Bool) : Blk :=
  if n = 255 then b
  else if b.ctr cl n = 0 then b.underflow cl mb shared
  else b.wf (ctrReg cl n) Fld.SEQ_CTR_VALUE (b.ctr cl n - 1)

/-! ### Issue (R255 to R257) -/

/-- The step closed without an update. -/
def Step.noUpdate (st : Step) : Bool := st.outcome == .skip || st.outcome == .empty
def Step.update (st : Step) : Bool := st.outcome == .apply || st.outcome == .applyDrop

/-- A securing of the partition has not read every block: phase UPD stays shut (R418). -/
def Part.reading (x : Part) : Bool := x.secNext != [] || (match x.securing with | some q => !q.read | none => false)

/-- A phase is open (R267). -/
def Blk.phaseOpen (b : Blk) (p ph : Nat) : Bool :=
  let st := b.stepOf p
  if ph ≤ 3 then decide (st.state = 1) && !st.aborted
  else if ph = 4 then decide (st.state = 3) && (st.update || st.noUpdate) && !((b.part p).any Part.reading)
  else st.update && (decide (st.state = 3) || decide (st.state = 0))

/-- A suspension in force holds issue; a NOW suspension that takes effect within an attempt stops it at once (R291). -/
def Step.held (st : Step) : Bool := decide (st.susp = 3) || (decide (st.susp = 2) && st.open?)

/-- An entry whose micro-batch is in the drop set. -/
def Step.dropped (st : Step) (mb : Nat) : Bool := decide (mb ≠ 0xFFFF) && st.drop.any (fun d => d.1 == mb)

/-- A descriptor is a FIN_APPLY on the engine of a code. -/
def isApply (code : Nat) (raw : BitVec 512) : Bool := decide (code = 0x10) && decide (opOf code raw = 2)

/-- An entry that the attempt retires without issue: of a dropped micro-batch (R257), of FWD or BWD outside the replay set (R281), of UPD or POST
other than FIN_APPLY after a closing that skipped the update (R187, R267). -/
def Blk.passes (b : Blk) (p cl q : Nat) (e : Entry) : Bool :=
  let st := b.stepOf p
  let code := b.rf (qReg cl q) Fld.SEQ_Q_BIND
  st.dropped e.mbatch || (decide (st.attempt ≠ 0) && !st.inSet && decide (e.phase ≤ 1) && decide (st.state = 1)) ||
  (st.noUpdate && (decide (st.state = 3) || decide (st.state = 0)) && (decide (e.phase = 5) || decide (e.phase = 4)) && !isApply code e.raw)

/-- The head of a queue moves on. -/
def Blk.advance (b : Blk) (cl q : Nat) (e : Entry) : Blk :=
  b.wf (qReg cl q) Fld.SEQ_Q_POS (b.rf (qReg cl q) Fld.SEQ_Q_POS + e.size)

/-- A word's bits replaced in a descriptor. -/
def patchBits (raw : BitVec 512) (w lo n v : Nat) : BitVec 512 :=
  let at_ := 32 * w + lo
  BitVec.ofNat 512 (raw.toNat - bits raw.toNat at_ n * 2 ^ at_ + v % 2 ^ n * 2 ^ at_)

/-- The current version of a tag on a cluster (R269) and the one its forward gather found (R270). -/
def Part.version (x : Part) (cl t : Nat) : Nat := Sp.get 0 x.versions (65536 * cl + t)
def Part.foundVersion (x : Part) (cl t : Nat) : Nat := Sp.get (x.version cl t) x.found (65536 * cl + t)

/-- The patch of an entry applied to its descriptor (R256). -/
def Blk.patched (b : Blk) (p cl : Nat) (e : Entry) : BitVec 512 :=
  match b.part p with
  | none => e.raw
  | some x =>
    if e.psrc = 1 then patchBits e.raw e.pword 0 16 (x.version cl e.ptag)
    else if e.psrc = 2 then patchBits e.raw e.pword 0 16 (x.foundVersion cl e.ptag)
    else if e.psrc = 3 then patchBits e.raw e.pword 0 16 (b.view cl e.pview).tscale
    else if e.psrc = 4 then patchBits e.raw e.pword 16 16 (b.view cl e.pview).tscale
    else e.raw

/-- A descriptor enters the scoreboard. One with a reserved opcode completes at once with BAD_DESC, counted by a core (R83, R165) and noted in another engine's error
register (R174). -/
def Blk.launchRaw (b : Blk) (cl q : Nat) (e : Entry) (raw : BitVec 512) (recomp cobbler : Bool) (parent : Nat) : Blk :=
  let code := b.rf (qReg cl q) Fld.SEQ_Q_BIND
  let known := opKnown code raw
  let f : Flight := {
    id := b.seq.next, cl := cl, queue := q, raw := raw, len := e.len, phase := e.phase, shared := e.shared, regath := e.regath, record := e.record
    mbatch := e.mbatch, recomp := recomp, parent := parent, pending := 0, worst := 0, ptag := if e.psrc = 1 then e.ptag + 1 else 0, skipped := false
    ran := !known, errIdx := 0, result := if known then none else some 0x10, slot := e.slot, cobbler := cobbler }
  let b1 : Blk := { b with seq := { b.seq with flights := b.seq.flights ++ [f], next := b.seq.next + 1 } }
  if known then b1
  else if bindKind code = 2 then b1.engErr (errReg cl code) { cl := cl, part := 0, queue := q, replay := false, recomp := recomp, cobbler := cobbler, skip := false } raw .badDesc 0
  else b1.descCount f

/-- An entry's descriptor, patched, enters the scoreboard. -/
def Blk.launch (b : Blk) (p cl q : Nat) (e : Entry) (recomp : Bool) (parent : Nat) : Blk := b.launchRaw cl q e (b.patched p cl e) recomp false parent

/-- A descriptor that the cobbler issues on a queue's engine beside the program (R139, R170, log entry 158): of no phase, slot or micro-batch. -/
def Blk.cobblerIssue (b : Blk) (cl q : Nat) (raw : BitVec 512) : Blk :=
  b.launchRaw cl q { Entry.parse 0 [] with len := 4, phase := 7, mbatch := 0xFFFF } raw false true 0

/-- The wait of an entry is satisfied (R256, R258). -/
def Blk.waitOk (b : Blk) (cl : Nat) (e : Entry) : Bool := !e.waitEn || decide (b.ctr cl e.ctr = 0)

/-- Room in the scoreboard, on the die and in the engine (R173, R255). -/
def Blk.boardRoom (b : Blk) (cl q : Nat) : Bool :=
  let code := b.rf (qReg cl q) Fld.SEQ_Q_BIND
  decide ((b.flightsOf cl).length < 128) && decide (b.dieFlights (clDie cl) < 1024) &&
  decide (((b.flightsOf cl).filter (fun f => decide (b.bindOf f = code))).length < inFlightMax code)

/-- A queue that may act: its cluster has a partition whose step is not held, and the sequencer is ACTIVE; the cluster's clocks run and no coolant stop is in force (R440, R453). -/
def Blk.queueLive (b : Blk) (cl q : Nat) : Option Nat :=
  match b.partOf cl with
  | some p => if b.up (clDie cl) && decide (q < 16) && !(b.stepOf p).held && b.unitUp (clUnit cl 15) && !b.pwr.coolStop && !bitOf (b.rn ⟨.CLK_GATED, clDie cl, 0⟩) (clK cl) then some p else none
  | none => none

/-- The backward of a micro-batch in a slot has ended on a cluster, its last entry retired: its stash regions are free again (R191, log entry 30). -/
def Blk.slotEnd (b : Blk) (cl ph slot mb : Nat) : Blk :=
  if ph ≠ 1 ∨ (b.flightsOf cl).any (fun g => g.phase == 1 && g.slot == slot && g.mbatch == mb) = true ∨
      (List.range 16).any (fun q => (b.restOf cl q).any (fun e => e.phase == 1 && e.slot == slot && e.mbatch == mb)) = true then b
  else { b with stash := { b.stash with insUse := Sp.set 0 b.stash.insUse (16 * cl + slot) 0, hbmUse := Sp.set 0 b.stash.hbmUse (16 * cl + slot) 0 } }

/-- The phase of an entry is open for its issue: a FIN_APPLY never issues before the closing, and issues after a skip in whatever phase it stands, to complete
SKIPPED (R187, R267). -/
def Blk.entryOpen (b : Blk) (p code : Nat) (e : Entry) : Bool :=
  let st := b.stepOf p
  if isApply code e.raw then b.phaseOpen p (max 4 e.phase) || (st.noUpdate && decide (4 < e.phase) && (decide (st.state = 3) || decide (st.state = 0)))
  else b.phaseOpen p e.phase

/-- A descriptor that the cobbler issues beside the program may issue: a FIN_APPLY only after its partition's closing (R187). -/
def Blk.ownOpen (b : Blk) (cl code : Nat) (raw : BitVec 512) : Bool := !isApply code raw || (b.partOf cl).any (fun p => b.phaseOpen p 4)

/-- QUEUE_ENTRY_ISSUE; `own` is a descriptor that the cobbler issues on the queue's engine instead of the head entry. -/
def Blk.queueIssue (b : Blk) (cl q : Nat) (own : Option (BitVec 512)) : Blk :=
  match own, b.queueLive cl q, b.headEntry cl q with
  | some raw, _, _ =>
    let code := b.rf (qReg cl q) Fld.SEQ_Q_BIND
    if !b.up (clDie cl) || decide (16 ≤ q) || !b.boardRoom cl q || !b.unitUp (codeUnit cl code) || !b.ownOpen cl code raw then b else b.cobblerIssue cl q raw
  | none, some p, some e =>
    if !e.legal || decide (e.kind ≠ 0) then b
    else if b.passes p cl q e then
      ((b.advance cl q e).slotEnd cl e.phase e.slot e.mbatch).signal cl (ctrOf (b.rf (qReg cl q) Fld.SEQ_Q_BIND) e.raw) e.mbatch e.shared
    else if !b.entryOpen p (b.rf (qReg cl q) Fld.SEQ_Q_BIND) e || !b.waitOk cl e || !b.boardRoom cl q || !b.unitUp (codeUnit cl (b.rf (qReg cl q) Fld.SEQ_Q_BIND)) then b
    else
      let b1 := if e.waitEn && e.rearm then b.rearm cl e.ctr else b
      (b1.advance cl q e).launch p cl q e false 0
  | _, _, _ => b

/-- An entry that fails its parity, or that of its scoreboard entry, is a fault of the cluster's sequencer (R381). -/
def Blk.entryParity (b : Blk) (cl q : Nat) : Blk :=
  match b.queueLive cl q, b.headEntry cl q with
  | some _, some e => b.unitFault (clUnit cl 15) .fault true e.mbatch e.shared false
  | _, _ => b

/-- WAIT_ENTRY: a WAIT entry retires as soon as its wait is passed. -/
def Blk.waitEntry (b : Blk) (cl q : Nat) : Blk :=
  match b.queueLive cl q, b.headEntry cl q with
  | some p, some e =>
    if !e.legal || decide (e.kind ≠ 1) then b
    else if b.passes p cl q e then (b.advance cl q e).slotEnd cl e.phase e.slot e.mbatch
    else if !b.phaseOpen p e.phase || !b.waitOk cl e then b
    else ((if e.waitEn && e.rearm then b.rearm cl e.ctr else b).advance cl q e).slotEnd cl e.phase e.slot e.mbatch
  | _, _ => b

/-! ### The engines take their descriptors -/

def Blk.setFlight (b : Blk) (f : Flight) : Blk :=
  { b with seq := { b.seq with flights := b.seq.flights.map (fun (g : Flight) => if g.id = f.id then f else g) } }

/-- The engine returns a result word with the index of the first failing block; a core counts the descriptor. The unit that ran it is the one that a fault is charged to. -/
def Blk.returned (b : Blk) (f : Flight) (res idx : Nat) : Blk :=
  (b.setFlight { f with ran := true, result := some res, errIdx := idx, unit := some (codeUnit (f.onCl.getD f.cl) (b.bindOf f)) }).descCount f

/-- The first descriptor of a queue that its engine has not returned. -/
def Blk.engHead (b : Blk) (cl q : Nat) : Option Flight := b.seq.flights.find? (fun f => f.cl == cl && f.queue == q && !f.ran)

/-- An engine whose check has failed, on whichever cluster's descriptor, takes no further descriptor until the fault has been handled (R159, R175, R190). -/
def Blk.engStopped (b : Blk) (cl code : Nat) : Bool :=
  decide (8 ≤ code) && b.seq.flights.any (fun g => (g.unit == some (codeUnit cl code)) && !g.skipped && !g.rngBad && g.result.any (fun r => decide (r % 256 = 0x30)))

/-- The engine may work on it: its context is not stopped (R73), its unit takes descriptors, and the earlier descriptors of its recompute segment have completed (R194). -/
def Blk.engMay (b : Blk) (f : Flight) : Bool :=
  b.up (clDie f.cl) && !f.stopped && b.unitUp (codeUnit f.cl (b.bindOf f)) && !b.engStopped f.cl (b.bindOf f) &&
  !(decide (f.parent ≠ 0) && b.seq.flights.any (fun g => g.parent == f.parent && decide (g.id < f.id)))

/-- The descriptor that a command for an operation `op` of the engines with codes from `lo` to `hi` starts. -/
def Blk.engTake (b : Blk) (cl q lo hi op : Nat) : Option Flight :=
  match b.engHead cl q with
  | some f =>
    let code := b.bindOf f
    if decide (lo ≤ code) && decide (code ≤ hi) && decide (opOf code f.raw = op) && b.engMay f then some f else none
  | none => none

/-- The context of a descriptor. -/
def Blk.ectxOf (b : Blk) (f : Flight) : ECtx :=
  let p := (b.partOf f.cl).getD 0xFF
  let st := b.stepOf p
  { cl := f.cl, part := p, queue := f.queue, replay := decide (st.attempt ≠ 0), recomp := f.recomp, cobbler := f.cobbler, skip := st.noUpdate }

/-- What an engine's run leaves on its descriptor: the result word, the error register, and a recompute segment's descriptors issued on the queues they name
with the recompute mark (R194). -/
def Blk.engDone (f : Flight) (o : EOut) (seat : Bool := false) : Blk :=
  let code := o.b.bindOf f
  let x := o.b.ectxOf f
  let e := o.err.getD (o.st, o.idx)
  let b1 := o.b.engErr (errReg (f.onCl.getD f.cl) code) x f.raw e.1 e.2
  let g := { f with wrote := o.wr, seat := seat }
  match (if o.st = .ok then o.seg else none) with
  | none => b1.returned g (o.st.code + 256 * o.fl) o.idx
  | some s => b1.setFlight { g with ran := true, pending := s.2, seg := b1.entryRun f.cl s.2 s.1 }

/-- The next descriptor of a recompute segment issues as soon as the scoreboard, the die and its engine have room (R173, R194, R255). -/
def Blk.segIssue (b : Blk) (f : Flight) : Blk :=
  match f.seg with
  | [] => b
  | e :: es =>
    if !b.boardRoom f.cl e.queue then b
    else (b.setFlight { f with seg := es }).launch ((b.partOf f.cl).getD 0xFF) f.cl e.queue e true (f.id + 1)

/-- Every recompute segment of a die issues what it can. -/
def Blk.segIssueDie (b : Blk) (d : Nat) : Blk :=
  (b.seq.flights.filter (fun f => clDie f.cl == d)).foldl (fun c f => (List.range f.seg.length).foldl (fun d _ => match d.seq.flights.find? (fun g => g.id == f.id) with
    | some g => d.segIssue g
    | none => d) c) b

/-- NOP of an engine beyond the core (R171). -/
def Blk.runEngNop (b : Blk) (cl q : Nat) (ph : EPhys) : Blk :=
  match b.engTake cl q 0x10 0x17 0 with | some f => Blk.engDone f (engNop b (b.ectxOf f) f.raw ph) | none => b

/-- A run whose source or destination is the seat aperture: it is one that a fenced seat would stop (R27). -/
def Blk.meetsSeat (b : Blk) (run : Blk → EOut) : Bool :=
  b.pkg.sku.seat && decide ((run { b with pkg := { b.pkg with seatDown := true } }).st = .seatDown)

/-- A descriptor of an engine run by its own function, with what is observed meanwhile. -/
def Blk.runEng (b : Blk) (cl q lo hi op : Nat) (run : Blk → ECtx → BitVec 512 → EPhys → EOut) (ph : EngPhys) : Blk :=
  match b.engTake cl q lo hi op with 
  | some f =>
    let go (c : Blk) : EOut := run c (b.ectxOf f) f.raw ph.fault
    (Blk.engDone f (go (b.insErrs ph)) (b.meetsSeat go)).segIssueDie (clDie cl)
  | none => b

/-- A stash descriptor; the entries of a recompute segment that a LOAD runs are checked for their address and at the last hop into the sequencer (R170, R180). -/
def stashOp (b : Blk) (x : ECtx) (raw : BitVec 512) (ph : EPhys) : EOut :=
  let o := stashRun b x raw ph
  match o.seg with
  | none => o
  | some s =>
    let r := [(s.1, ((b.entryRun x.cl s.2 s.1).map Entry.size).sum)]
    if !b.recOk x r then .refuse b .address else if b.recCheck x.cl r ≠ .ok then .badRecord b (b.recCheck x.cl r) else o

/-- A DMA descriptor of one mode. -/
def Blk.runDma (b : Blk) (cl q mode : Nat) (ph : EngPhys) : Blk :=
  match b.engTake cl q 0x14 0x17 1 with
  | some f => if (DmaDesc.parse f.raw).mode = mode then
      let go (c : Blk) : EOut := dmaRun c (b.ectxOf f) f.raw ph.fault
      Blk.engDone f (go (b.insErrs ph)) (b.meetsSeat go) else b
  | none => b

/-- The seat is fenced (R27): an operation in flight whose source or destination is its aperture completes with SEAT_DOWN, unless its status ranks higher. -/
def Blk.seatLost (b : Blk) : Blk :=
  b.seq.flights.foldl (fun (c : Blk) (f : Flight) => match f.result with
    | some r => if f.seat && !([0x30, 0x31, 0x32].contains (r % 256)) then
        (c.setFlight { f with result := some (r - r % 256 + 0x27) }).engErr (errReg f.cl (c.bindOf f)) (c.ectxOf f) f.raw .seatDown f.errIdx else c
    | none => c) { b with pkg := { b.pkg with seatDown := true } }

/-- Whether a scanned block is watched (R126): the whole tensor, or a range of its blocks. -/
def Last.watched (l : Last) (t : Tensor) (k : Nat) : Bool :=
  decide (t.watch = 1) || (decide (t.watch = 2) && l.watch.any (fun w => w.1 == t.tag && decide (w.2.1 ≤ k) && decide (k < w.2.1 + w.2.2)))

/-- The scan of a gradient noted for the health monitor: per tag whether every watched block so far is a zero block (R126). -/
def Blk.scanNote (b : Blk) (f : Flight) : Blk :=
  let p := (b.partOf f.cl).getD 0xFF
  match b.lastOf p with
  | none => b
  | some l =>
    let r := FinRec.parse (b.ins.data.read (f.cl * 2 ^ 27 + dsc f.raw 2 0 27) 64)
    match l.tensors.findIdx? (fun t => t.tag == r.tagG), locOf f.cl r.g with
    | some i, some g =>
      match l.tensors[i]?, b.tensorAt p i with
      | some t, some at_ =>
        (List.range (dsc f.raw 3 0 24)).foldl (fun c j =>
          let place := g.add (4096 * (dsc f.raw 4 0 24 + j))
          if l.watched t (place.off / 4096 - at_.1) then
            let z := (Aglet.parse (b.locBlock place).agl).zeroBlk
            c.onStep p (fun st =>
              let rest := st.scan.filter (fun x => x.1 != t.tag)
              { st with scan := rest ++ [(t.tag, z && ((slotGet st.scan t.tag).getD true))] })
          else c) b
      | _, _ => b
    | _, _ => b

/-- FIN_SCAN. -/
def Blk.runFinScan (b : Blk) (cl q : Nat) (ph : EngPhys) : Blk :=
  match b.engTake cl q 0x10 0x10 1 with
  | some f =>
    let o := finScan (b.insErrs ph) (b.ectxOf f) f.raw ph.fault
    Blk.engDone f { o with b := if o.st.rank = 0 then o.b else o.b.scanNote f }
  | none => b

/-- The physical core behind an array queue, and the schedule core it serves (R205, R583). -/
def Blk.coreOf (b : Blk) (f : Flight) : Nat × Nat :=
  let c := b.bindOf f % 8
  (5 * f.cl + c, 5 * f.cl + (b.schedOf f.cl c).getD c)

/-- A flight is a split descriptor that runs on the core of another (R71). -/
def Blk.splitMate (b : Blk) (f g : Flight) : Bool :=
  g.cl == f.cl && g.id != f.id && decide (b.bindOf g = b.bindOf f) && b.begun g && g.result.any (fun r => decide (r % 256 = 0) || decide (r % 256 = 0x20)) &&
  (ArrDesc.parse g.raw).split

/-- Arrays of a core that run a split descriptor besides a given one (R71). -/
def Blk.splitOthers (b : Blk) (f : Flight) : List Nat :=
  ((b.seq.flights.filter (b.splitMate f)).map (fun g => ((ArrDesc.parse g.raw).named).map (fun (x : Nat × Nat) => x.1))).flatten

/-- Both halves stop on a shared check (R73): the descriptor that runs on the other half completes with the same fault, and its half's rows are poisoned. -/
def Blk.sharedStop (b : Blk) (f : Flight) (res : Nat) : Blk :=
  if res % 256 ≠ 0x31 then b
  else
    let mates := b.seq.flights.filter (fun g => b.splitMate f g && decide ((ArrDesc.parse g.raw).arrays = (ArrDesc.parse f.raw).arrays))
    mates.foldl (fun c g =>
      let d := ArrDesc.parse g.raw
      let core := 5 * g.cl + b.bindOf g % 8
      let cores := d.named.foldl (fun (k : Cores) (x : Nat × Nat) => k.poisonRows (bankNo core x.1 d.bank) d.halves (List.range 128)) c.cores
      { c with cores := cores }.setFlight { g with mate := true, result := some (0x31 + 256 * (g.result.getD 0 / 256 ||| 4)) }) b

/-- The sequencer stops a half's context, both halves' on a shared check (R73): what it has in flight on the array, and for that half of the core's vector engine, and has
not run waits for its discard (R78, R160). -/
def Blk.halfStop (b : Blk) (f : Flight) (res : Nat) : Blk :=
  let d := ArrDesc.parse f.raw
  if !d.split || !(decide (res % 256 = 0x30) || decide (res % 256 = 0x31)) then b
  else
    let both := decide (res % 256 = 0x31)
    let hit (g : Flight) : Bool := g.cl == f.cl && g.id != f.id && g.result.isNone &&
      ((decide (b.bindOf g = b.bindOf f) && (let e := ArrDesc.parse g.raw; e.split && decide (e.arrays = d.arrays) && (both || decide (e.half = d.half)))) ||
       (decide (b.bindOf g = 8 + b.bindOf f) && decide (dsc g.raw 0 4 1 = 1) && (both || decide (dsc g.raw 0 5 1 = d.half))))
    { b with seq := { b.seq with flights := b.seq.flights.map (fun (g : Flight) => if hit g then { g with stopped := true } else g) } }

/-- An array descriptor: its checks at issue (R80), then the run once its banks are the array's. -/
def Blk.runArr (b : Blk) (cl q op : Nat) (ph : ArrPhys) : Blk :=
  match b.engTake cl q 0 4 op with
  | none => b
  | some f =>
    let x := b.ectxOf f
    let core := (b.coreOf f).1
    let sched := (b.coreOf f).2
    let d := ArrDesc.parse f.raw
    let st := ArrDesc.check f.raw x.part (b.rn ⟨.IDENT_FEATURE_EFF, 0, 0⟩) (b.splitOthers f)
    if st ≠ .ok then b.returned f st.code 0
    else if op = 0 then b.returned f 0 0
    else if !b.arrReady core d then b
    else
      let r := if op = 1 then b.matmul cl core sched d ph else b.accClear cl core d ph
      let fresh := op == 1 && !(slotGet b.cores.samples cl).any (fun s => s.closed)
      let c := if fresh then r.1.witMark cl core d f.id f.mbatch f.shared else r.1
      ((c.sharedStop f r.2).halfStop f r.2).returned f r.2 0

/-- The result of a vector program that has ended goes to its descriptor. -/
def Blk.vSync (b : Blk) (core : Nat) : Blk :=
  match slotGet b.vec.runs core with
  | some r =>
    match r.result, b.seq.flights.find? (fun f => f.cl == core / 5 && decide (b.bindOf f = 8 + core % 5) && f.pending == 1 && f.result.isNone) with
    | some res, some f => b.returned { f with wrote := r.stored.map (fun ln => Loc.cb core (256 * ln)) } res 0
    | _, _ => b
  | none => b

/-- A vector descriptor (R137, R139): checked, then its program runs on from where it stands. -/
def Blk.runVec (b : Blk) (cl q op : Nat) (k : Option VFault) : Blk :=
  match b.engTake cl q 8 12 op with
  | none => b
  | some f =>
    let x := b.ectxOf f
    let core := (b.coreOf f).1
    let busy := (slotGet b.vec.runs core).any (fun r => r.result.isNone)
    let fuel := dsc f.raw 2 0 16 * (dsc f.raw 1 14 10 + 1) + 1
    if b.rf ⟨.SEQ_VEC_STATE, core, 0⟩ Fld.SEQ_VEC_STATE_FENCED = 1 then b
    else if f.pending = 1 then (b.vRunAll core k fuel).vSync core
    else
      let st := vecCheck f.raw x.part x.cobbler
      if st ≠ .ok then b.returned f st.code 0
      else if op = 0 then b.returned f 0 0
      else if busy then b
      else (((b.setFlight ({ f with pending := 1 } : Flight)).vStart core cl f.raw f.recomp).vRunAll core k fuel).vSync core

/-- The random source that feeds a descriptor fails a check (R381): it is the unit fenced for the FAULT that the descriptor has completed with. -/
def Blk.rngFault (b : Blk) (f : Flight) (bad : Bool) : Blk :=
  match (if bad then b.seq.flights.find? (fun g => decide (g.id = f.id) && g.result.any (fun r => decide (r % 256 = 0x30))) else none) with
  | some g => (b.setFlight { g with rngBad := true }).unitFault (clUnit f.cl 14) .fault true f.mbatch f.shared false
  | none => b

/-- What a consumer of random fields shows where a descriptor ran: the cycles that it stalled (R181), and a failed check of the random source. -/
def Blk.rngStalls (b : Blk) (cl : Nat) (f : Option Flight) (n : Nat) (bad : Bool) : Blk :=
  match f with
  | some g => (b.bump ⟨.SEQ_RNG_STALL, cl, 0⟩ n).rngFault g bad
  | none => b

/-- The stall counts of a vector program's run (R134, R137, R162, R181), where a descriptor ran. -/
def Blk.vecStalls (b : Blk) (f : Option Flight) (bank dep ce rng : Nat) (bad : Bool) : Blk :=
  match f with
  | none => b
  | some f =>
    let core := (b.coreOf f).1
    (((b.bump ⟨.SEQ_VEC_BANK_WAIT, core, 0⟩ bank).bump ⟨.SEQ_VEC_DEP_STALL, core, 0⟩ dep).bump ⟨.SEQ_VEC_TILE_CE, core, 0⟩ ce).rngStalls f.cl (some f) rng bad

/-- One vector instruction on a core. -/
def Blk.vOne (b : Blk) (core cls op : Nat) (f : VOps) : Blk :=
  if core < 180 then (b.vIssue core { cls := cls, op := op, f := f }).vSync core else b

/-- VEC_BANK_TIMEOUT. -/
def Blk.vBankTimeout (b : Blk) (core : Nat) : Blk := (b.vTimeout core).vSync core

/-! ### Completions (R258 to R261) -/

/-- A FIN_APPLY of a queue entry or a descriptor in flight, with the tag of its master. -/
def Blk.applyTag (b : Blk) (cl code : Nat) (raw : BitVec 512) : Option FinRec :=
  if code = 0x10 ∧ opOf code raw = 2 then some (FinRec.parse (b.ins.data.read (cl * 2 ^ 27 + dsc raw 2 0 27) 64)) else none

/-- The cluster has another FIN_APPLY of a tag to come. -/
def Blk.applyLeft (b : Blk) (cl t : Nat) : Bool :=
  (b.flightsOf cl).any (fun f => (b.applyTag cl (b.bindOf f) f.raw).any (fun r => r.tagW == t)) ||
  (List.range 16).any (fun q => (b.restOf cl q).any (fun e =>
    decide (e.kind = 0) && (b.applyTag cl (b.rf (qReg cl q) Fld.SEQ_Q_BIND) e.raw).any (fun r => r.tagW == t)))

/-- The version table after a FIN_APPLY that completed OK (R269): the tags it writes advance when it was the tag's last on the cluster. -/
def Blk.versionUp (b : Blk) (p cl : Nat) (f : Flight) (code res : Nat) : Blk :=
  match b.applyTag cl code f.raw with
  | some r =>
    if res % 256 ≠ 0 ∨ b.applyLeft cl r.tagW = true then b
    else
      let algo := dsc f.raw 3 24 2
      let tags := [r.tagW] ++ (if algo ≤ 1 then [r.tagM] else []) ++ (if algo = 0 then [r.tagV] else [])
      b.onPart p (fun x => { x with versions := tags.foldl (fun m t => Sp.set 0 m (65536 * cl + t) ((x.version cl t + 1) % 65536)) x.versions })
  | none => b

/-- A parent LOAD hears that a descriptor of its segment has completed; it takes the worst status (the largest, log entry 51), and leaves it in STH_ERR when the last
has completed (R174, log entry 211). -/
def Blk.segChild (b : Blk) (f : Flight) (res : Nat) : Blk :=
  match b.seq.flights.find? (fun g => g.id + 1 == f.parent) with
  | none => b
  | some g =>
    let worse := decide (g.worst % 256 < res % 256)
    let h := { g with pending := g.pending - 1, worst := if worse then res else g.worst, errIdx := if worse then f.errIdx else g.errIdx }
    if 1 < g.pending then b.setFlight h
    else (b.setFlight { h with result := some h.worst }).stashErr (b.ectxOf g) g.raw h.worst h.errIdx

/-- Where the reads of a layout descriptor lie, in the order of work. -/
def Blk.layPlaces (b : Blk) (cl : Nat) (d : LayDesc) : List Read :=
  let s := b.view cl d.src
  match Fmt.ofCode s.fmt with
  | some f => ((List.range s.rows).map (b.layReads cl (d.master || decide (d.op = 4)) s (b.view cl d.src2) f)).flatten
  | none => []

/-- The place that a descriptor's error index names: the source block of a DMA or a stash move, the gradient block of a FIN_SCAN, the read of a gather or layout
operation. A LOAD that ran a recompute segment names none. -/
def Blk.errLoc (b : Blk) (f : Flight) (code : Nat) : Option Loc :=
  let k := f.errIdx
  if 0x14 ≤ code then
    let d := DmaDesc.parse f.raw
    (locOf f.cl d.src).map (fun l => l.add ((if d.sStride = 0 then 4096 else d.sStride) * k))
  else if code = 0x10 then
    (((FinRec.parse (b.ins.data.read (f.cl * 2 ^ 27 + dsc f.raw 2 0 27) 64)).unit f.cl (dsc f.raw 4 0 24 + k))[2]?).getD none
  else if code = 0x11 then
    let d := StashDesc.parse f.raw
    if d.op = 1 then (locOf f.cl d.addr).map (fun l => l.add (4096 * k))
    else match slotGet b.stash.ents (4096 * f.cl + d.entry) with
      | some e => if e.policy = 2 then none else (locOf f.cl e.addr).map (fun l => l.add (4096 * k))
      | none => none
  else if code = 0x13 then ((b.layPlaces f.cl (LayDesc.parse f.raw))[k]?).map Read.at_
  else if code = 0x12 then (b.gthPlaces f.cl (GthDesc.parse f.raw))[k]?
  else none

/-- The read that the error index of a layout operation names is one of a pair that fails the check of R94. -/
def Blk.pairBad (b : Blk) (f : Flight) (code : Nat) : Bool :=
  decide (code = 0x13) && ((b.layPlaces f.cl (LayDesc.parse f.raw))[f.errIdx]?).any Read.pair

/-- A number that names the block: logical HBM block, insole block, or the descriptor's tag and index where the place is not one block. -/
def Blk.errKey (b : Blk) (f : Flight) (code : Nat) : Nat :=
  match b.errLoc f code with
  | some (.hbm a) => a / 4096
  | some (.ins c a) => 2 ^ 40 + c * 2 ^ 15 + a / 4096
  | _ => 2 ^ 50 + tagOf code f.raw * 2 ^ 32 + f.errIdx

/-- The version that a forward gather found (R270): the one it asked for, or that of the shard where it met another. -/
def Blk.foundNote (b : Blk) (p cl : Nat) (f : Flight) (code res : Nat) : Blk :=
  if f.ptag ≠ 0 ∧ f.phase = 0 ∧ code = 0x12 ∧ opOf code f.raw = 4 ∧ (res % 256 = 0 ∨ res % 256 = 0x23) then
    let other := (if res % 256 = 0 then none else b.errLoc f code).map (fun l => (Aglet.parse (b.locBlock l).agl).version)
    b.onPart p (fun x => { x with found := slotPut x.found (65536 * cl + (f.ptag - 1)) (other.getD (x.version cl (f.ptag - 1))) })
  else b

/-- The action on a status (R261). `code` is the engine that serves the descriptor; a fault is charged to the unit that ran it, and a check that both halves share once. -/
def Blk.actOn (b : Blk) (p : Nat) (f : Flight) (code res : Nat) (cf : Bool) : Blk :=
  let st := res % 256
  let u := f.unit.getD (codeUnit (f.onCl.getD f.cl) code)
  let k := bindKind code
  let scan := decide (code = 0x10) && decide (opOf code f.raw = 1)
  let b1 := if scan && bitOf res 8 then b.flag p fNonfinite else b
  let b2 := if scan && bitOf res 10 then b1.fault p f.mbatch f.shared else b1
  if st ≤ 1 ∨ st = 0x32 ∨ f.rngBad = true then b2
  else if f.mate then b2.fault p f.mbatch f.shared
  else if k = 1 ∧ st = 0x21 then
    (b2.vRelease (5 * f.cl + (code - 8)) (if dsc f.raw 0 4 1 = 1 then [dsc f.raw 0 5 1] else [0, 1]) (linesOf f.wrote)).haltFlag p 2
  else if k = 1 ∧ st = 0x17 then b2.unitFault u .fault true f.mbatch f.shared cf
  else if st < 0x20 then b2.haltFlag p 1
  else if st = 0x23 ∧ f.regath = true then b2.flag p fStale
  else if st = 0x21 ∨ st = 0x22 then b2.pathFault p (clDie f.cl) (b.errKey f code) f.mbatch f.shared
  else if st = 0x20 ∨ st = 0x23 ∨ st = 0x27 then b2.fault p f.mbatch f.shared
  else if st = 0x25 then (b2.fault p f.mbatch f.shared).onStep p (fun s => { s with reclick := true })
  else b2.unitFault u .fault true f.mbatch f.shared cf

/-- A FIN_APPLY that stopped at a unit keeps its place until the cobbler completes it (R190). -/
def finStopped (code : Nat) (raw : BitVec 512) (st : Nat) : Bool :=
  decide (code = 0x10) && decide (opOf code raw = 2) && decide (0x20 ≤ st) && decide (st ≠ 0x32)

/-- A result word retires: the entry is freed, its counter signalled, its record written, and its status acted on. A descriptor whose attempt has ended signals no
counter. -/
def Blk.retire (b : Blk) (f : Flight) (res : Nat) (cf : Bool) : Blk :=
  let p := (b.partOf f.cl).getD 0xFF
  let code := b.bindOf f
  let rec_ := b.complRecord f res
  let b1 : Blk := { b with seq := { b.seq with flights := b.seq.flights.filter (fun g => g.id != f.id) } }
  let b2 := if f.late then b1 else ((b1.segChild f res).slotEnd f.cl f.phase f.slot f.mbatch).signal f.cl (ctrOf code f.raw) f.mbatch f.shared
  let b3 := if 1 < res % 256 ∨ f.record = true then (b2.storeRecord rec_).tick else b2
  let b5 := if f.shared then b3.onStep p (fun st => { st with sharedMb := if st.sharedMb.contains f.mbatch then st.sharedMb else st.sharedMb ++ [f.mbatch] }) else b3
  (((b5.versionUp p f.cl f code res).foundNote p f.cl f code res).actOn p f code res cf).segIssueDie (clDie f.cl)

/-- ENGINE_COMPLETION: the `i`-th descriptor of a cluster's scoreboard whose result has arrived; `cf` says that the copy of the handover that a fault brings
fails its check. -/
def Blk.engineCompletion (b : Blk) (cl i : Nat) (cf : Bool) : Blk :=
  match (b.flightsOf cl)[i]? with
  | some f =>
    match f.result with
    | some res =>
      let p := (b.partOf cl).getD 0xFF
      let code := b.bindOf f
      if finStopped code f.raw (res % 256) then
        if f.skipped then b
        else
          let b1 := (b.setFlight { f with skipped := true }).storeRecord (b.complRecord f res)
          b1.tick.actOn p f code res cf
      else b.retire f res cf
    | none => b
  | none => b

/-! ### A stopped FIN_APPLY (R190, R399) -/

/-- The descriptor that continues a stopped one from a unit on. -/
def finFrom (raw : BitVec 512) (k : Nat) : BitVec 512 :=
  patchBits (patchBits raw 3 0 24 (dsc raw 3 0 24 - k)) 4 0 24 (dsc raw 4 0 24 + k)

/-- The unit a stopped descriptor stands at, as five places. -/
def Blk.stoppedAt (b : Blk) (f : Flight) : FinRec × List (Option Loc) :=
  let r := FinRec.parse (b.ins.data.read (f.cl * 2 ^ 27 + dsc f.raw 2 0 27) 64)
  (r, r.unit f.cl (dsc f.raw 4 0 24 + f.errIdx))

/-- The block passes the check that FIN_APPLY makes of it at a version. -/
def Blk.unitBlockOk (b : Blk) (l : Option Loc) (tag fmt ver : Nat) : Bool :=
  match l with
  | some a => decide (((b.locBlock a).check { tag := tag, format := fmt, epoch := none, version := some ver }).1 = .ok)
  | none => false

/-- A twin has written the unit already: hi, lo, m and v stand at the next version (R399). -/
def Blk.unitTwinned (b : Blk) (f : Flight) : Bool :=
  let x := b.stoppedAt f
  let v := (x.1.ver + 1) % 65536
  let algo := dsc f.raw 3 24 2
  let at_ (i : Nat) : Option Loc := (x.2[i]?).getD none
  b.unitBlockOk (at_ 0) x.1.tagW 0x01 v && b.unitBlockOk (at_ 1) x.1.tagW 0x0E v && (decide (1 < algo) || b.unitBlockOk (at_ 3) x.1.tagM 0x01 v) &&
  (decide (0 < algo) || b.unitBlockOk (at_ 4) x.1.tagV 0x01 v)

/-- A stopped FIN_APPLY whose unit no member can make whole ends there, so that the step reaches its boundary and the package the attempt at which it halts (R400, R584, log
entry 179). -/
def Blk.finGiveUp (b : Blk) (p : Nat) : Blk :=
  (b.seq.flights.filter (fun f => b.partOf f.cl == some p && f.skipped && finStopped (b.bindOf f) f.raw ((f.result.getD 0) % 256))).foldl (fun c f =>
    ({ c with seq := { c.seq with flights := c.seq.flights.filter (fun g => g.id != f.id) } } : Blk).signal f.cl (ctrOf (b.bindOf f) f.raw) f.mbatch f.shared) b

/-- FIN_APPLY_REISSUE: the stopped FIN_APPLY of a queue goes on, on the finisher of a cluster `on` of the same die. `fetched` is the g block that the cobbler
has fetched from the data-parallel member of lowest rank, none where the group has no other member. -/
def Blk.finReissue (b : Blk) (cl q on : Nat) (fetched : Option (List Byte × BitVec 128)) (ph : EngPhys) : Blk :=
  match b.seq.flights.find? (fun f => f.cl == cl && f.queue == q && f.skipped) with
  | none => b
  | some f =>
    if clDie on ≠ clDie cl ∨ 36 ≤ on ∨ b.unitUp (clUnit on 5) = false then b
    else
      let p := (b.partOf cl).getD 0xFF
      let x := b.stoppedAt f
      let gAt : Option Loc := (x.2[2]?).getD none
      let go (c : Blk) (k : Nat) : Blk :=
        let f' := { f with raw := finFrom f.raw k, skipped := false, ran := false, errIdx := 0, result := none, onCl := some on }
        if dsc f'.raw 3 0 24 = 0 then (c.setFlight f').returned f' 0 0
        else (Blk.engDone f' (finApply ((c.setFlight f').insErrs ph) (b.ectxOf f') f'.raw ph.fault)).rngFault f' ph.rng
      if b.unitTwinned f then go b (f.errIdx + 1)
      else if b.unitBlockOk gAt x.1.tagG 0x01 x.1.ver then go b f.errIdx
      else match fetched, gAt with
        | some blk, some l =>
          let c := b.setBlock l { pay := blk.1, agl := blk.2 }
          if c.unitBlockOk gAt x.1.tagG 0x01 x.1.ver then go c f.errIdx else b
        | _, _ => (b.haltFlag p 3).finGiveUp p

end Sys2Proof.Machine
end

