-- ==== Sys2Proof/Syntax.lean ====
section
/-!
DEFINITION. The commands of the module: one constructor for each row of the manual's table of operations and events, in its order. A place is a plain
number (function, mailbox, die position, cluster, core, eyelet, unit identifier, partition); what a fault, a sensor or a far end shows is an operand too.
-/
namespace Sys2Proof

open Machine

/-- Stall counts that one run of a vector program shows (R134, R137, R162): bank waits, dependency stalls, corrected tile words, waits for random fields. -/
structure VStalls where
  bankWait : Nat
  depStall : Nat
  tileCe   : Nat
  rngStall : Nat
deriving DecidableEq, Repr

/-- The commands. -/
inductive Instr where
  /-- IDENTIFY (R476). -/
  | identify (f m : Nat)
  /-- QUERY_STATE_SUMMARY (R476). -/
  | queryStateSummary (f m : Nat)
  /-- QUERY_STATE_PARTITION (R476). -/
  | queryStatePartition (f m : Nat)
  /-- QUERY_STATE_OPERATION (R476). -/
  | queryStateOperation (f m : Nat)
  /-- QUERY_STATE_GENERATIONS (R476). -/
  | queryStateGenerations (f m : Nat)
  /-- QUERY_STATE_REGISTERS (R476). -/
  | queryStateRegisters (f m : Nat)
  /-- QUERY_STATE_UNITS (R476). -/
  | queryStateUnits (f m : Nat)
  /-- LOAD_LAST (R249). -/
  | loadLast (f m : Nat) (sections : Last)
  /-- UNLOAD_LAST (R551). -/
  | unloadLast (f m : Nat)
  /-- RUN_STEPS (R484). -/
  | runSteps (f m : Nat)
  /-- SUSPEND_BOUNDARY (R290). -/
  | suspendBoundary (f m : Nat)
  /-- SUSPEND_NOW (R291). -/
  | suspendNow (f m : Nat)
  /-- RESUME (R481). -/
  | resume (f m : Nat)
  /-- CANCEL (R482). -/
  | cancel (f m : Nat)
  /-- REPLAY_STEP (R296). -/
  | replayStep (f m : Nat) (partner : Option Gen) (bad : List (Nat × Nat × Nat))
  /-- RESHARD (R363). -/
  | reshard (f m : Nat) (sections : Last) (moves : List (Nat × BitVec 512))
  /-- RESHARD_DRAINED (R363). -/
  | reshardDrained (p : Nat)
  /-- SECURE_STATE_NOW (R415). -/
  | secureStateNow (f m : Nat)
  /-- SECURE_STATE_AT_STEP (R415). -/
  | secureStateAtStep (f m : Nat)
  /-- SECURE_STATE_EXPORT (R421). -/
  | secureStateExport (f m : Nat)
  /-- SECURE_STATE_POLICY (R423). -/
  | secureStatePolicy (f m : Nat)
  /-- SECURE_STATE_POLICY_OFF (R423). -/
  | secureStatePolicyOff (f m : Nat)
  /-- RESTORE_STATE (R429). -/
  | restoreState (f m : Nat) (partner : Option Gen) (bad : List (Nat × Nat × Nat))
  /-- AWL_TEST (R391). -/
  | awlTest (f m : Nat)
  /-- SCRUB (R235). -/
  | scrub (f m : Nat)
  /-- SET_POWER_MODULE_CAP (R443). -/
  | setPowerModuleCap (f m : Nat)
  /-- SET_POWER_PARTITION_CAP (R442). -/
  | setPowerPartitionCap (f m : Nat)
  /-- SET_POWER_OP_POINT (R438). -/
  | setPowerOpPoint (f m : Nat)
  /-- SET_POWER_STATE (R436). -/
  | setPowerState (f m : Nat)
  /-- SET_POWER_CAPPER_CFG (R441). -/
  | setPowerCapperCfg (f m : Nat)
  /-- SET_PARTITION_DEFINE (R489). -/
  | setPartitionDefine (f m : Nat)
  /-- SET_PARTITION_DELETE (R489). -/
  | setPartitionDelete (f m : Nat)
  /-- READ_RECORDER (R537). -/
  | readRecorder (f m : Nat) (bad0 bad1 : List Nat)
  /-- CLEAR_RECORDER (R538). -/
  | clearRecorder (f m : Nat)
  /-- UNLOCK_CHALLENGE (R528). -/
  | unlockChallenge (f m : Nat)
  /-- UNLOCK_RESPONSE (R530). -/
  | unlockResponse (f m : Nat)
  /-- UNLOCK_RESPONSE_RELOCK (R531). -/
  | unlockResponseRelock (f m : Nat)
  /-- FW_UPDATE (R521). -/
  | fwUpdate (f m : Nat)
  /-- ATTEST (R527). -/
  | attest (f m : Nat)
  /-- HOST_REQUEST (R462). -/
  | hostRequest (f m : Nat) (msg : List Byte)
  /-- RESPONSE_READ (R466). -/
  | responseRead (f m : Nat)
  /-- MBX_REQUEST_TIMEOUT (R463). -/
  | mbxRequestTimeout (f m : Nat)
  /-- MBX_LOCK_READ (R468). -/
  | mbxLockRead (f m owner : Nat)
  /-- MBX_LOCK_RELEASE (R468). -/
  | mbxLockRelease (f m v owner : Nat)
  /-- MBX_LOCK_BREAK (R468). -/
  | mbxLockBreak (mask : Nat)
  /-- OP_COMPLETION_COMMIT (R483). -/
  | opCompletionCommit (h : Nat)
  /-- DBL_FEED_PROD_WRITE (R484). -/
  | dblFeedProdWrite (f p v : Nat)
  /-- DBL_RESET_COLD (R559). -/
  | dblResetCold (v : Nat)
  /-- DBL_RESET_PACKAGE (R559). -/
  | dblResetPackage (v : Nat)
  /-- DBL_RESET_LAPSE (R559). -/
  | dblResetLapse
  /-- BAR2_WRITE (R231). -/
  | bar2Write (x : Nat) (xs : List Byte)
  /-- BAR2_READ (R231). -/
  | bar2Read (x n : Nat)
  /-- DEBUG_WINDOW_ACCESS (R533). -/
  | debugWindowAccess (a : Nat) (w : Option Word)
  /-- SEC_FAILED_CLEAR (R539). -/
  | secFailedClear (v : Nat)
  /-- EYE_PAUSE_WRITE (R324). -/
  | eyePauseWrite (e mask : Nat)
  /-- EYE_HOLD_WRITE (R329). -/
  | eyeHoldWrite (e : Nat)
  /-- AWL_CMD_FENCE (R378). -/
  | awlCmdFence (u : Nat)
  /-- AWL_CMD_RETURN (R378). -/
  | awlCmdReturn (u : Nat)
  /-- AWL_CMD_TEST (R378). -/
  | awlCmdTest (u : Nat)
  /-- AWL_CMD_MAKE_SPARE (R378). -/
  | awlCmdMakeSpare (u : Nat)
  /-- AWL_CMD_FAIL (R378). -/
  | awlCmdFail (u : Nat)
  /-- RELAY_START (R240). -/
  | relayStart
  /-- RELAY_COMPLETE (R239). -/
  | relayComplete (errs : List (Bool × Nat × HbmErr)) (wbad : List (Bool × Nat))
  /-- WLT_FENCE_WRITE (R37). -/
  | wltFenceWrite (o v : Nat)
  /-- WLT_UNFENCE_WRITE (R45). -/
  | wltUnfenceWrite (o v : Nat)
  /-- EVG_COMPLETE (R495). -/
  | evgComplete (d t src served : Nat)
  /-- EVG_Q_CONS_WRITE (R502). -/
  | evgQConsWrite (d t v : Nat)
  /-- EVG_Q_ENABLE (R499). -/
  | evgQEnable (d t v : Nat)
  /-- EVG_MASK_WRITE (R506). -/
  | evgMaskWrite (d t g v : Nat)
  /-- RCL_READ (R9). -/
  | rclRead (reg : RegRef) (lo w upd : Nat)
  /-- MIRROR_ENERGY_READ (R458). -/
  | mirrorEnergyRead
  /-- REGISTER_WRITE (R7). -/
  | registerWrite (reg : RegRef) (v : RegVal)
  /-- MIRROR_REFRESH (R458). -/
  | mirrorRefresh (avgMw avgK : Nat)
  /-- ARRAY_NOP (R80). -/
  | arrayNop (cl q : Nat)
  /-- MATMUL (R57). -/
  | matmul (cl q : Nat) (ph : ArrPhys) (rngStall : Nat)
  /-- ACC_CLEAR (R79). -/
  | accClear (cl q : Nat) (ph : ArrPhys)
  /-- VECTOR_NOP (R139). -/
  | vectorNop (cl q : Nat)
  /-- VECTOR_RUN (R137). -/
  | vectorRun (cl q : Nat) (k : Option VFault) (stalls : VStalls)
  /-- VEC_INSTR_NOP (R142). -/
  | vecInstrNop (core : Nat) (ops : VOps)
  /-- END (R142). -/
  | endProg (core : Nat) (ops : VOps)
  /-- SETVL (R142). -/
  | setvl (core : Nat) (ops : VOps)
  /-- SETRC (R142). -/
  | setrc (core : Nat) (ops : VOps)
  /-- ACCREL (R135). -/
  | accrel (core : Nat) (ops : VOps)
  /-- FADD (R143). -/
  | fadd (core : Nat) (ops : VOps)
  /-- FSUB (R143). -/
  | fsub (core : Nat) (ops : VOps)
  /-- FMUL (R143). -/
  | fmul (core : Nat) (ops : VOps)
  /-- FFMA (R143). -/
  | ffma (core : Nat) (ops : VOps)
  /-- FMAX (R142). -/
  | fmax (core : Nat) (ops : VOps)
  /-- FMIN (R142). -/
  | fmin (core : Nat) (ops : VOps)
  /-- FABS (R142). -/
  | fabs (core : Nat) (ops : VOps)
  /-- FNEG (R142). -/
  | fneg (core : Nat) (ops : VOps)
  /-- FMOV (R142). -/
  | fmov (core : Nat) (ops : VOps)
  /-- CVTFI (R142). -/
  | cvtfi (core : Nat) (ops : VOps)
  /-- CVTIF (R142). -/
  | cvtif (core : Nat) (ops : VOps)
  /-- IADD (R142). -/
  | iadd (core : Nat) (ops : VOps)
  /-- ISUB (R142). -/
  | isub (core : Nat) (ops : VOps)
  /-- IMUL (R142). -/
  | imul (core : Nat) (ops : VOps)
  /-- IMAX (R142). -/
  | imax (core : Nat) (ops : VOps)
  /-- IMIN (R142). -/
  | imin (core : Nat) (ops : VOps)
  /-- IAND (R142). -/
  | iand (core : Nat) (ops : VOps)
  /-- IOR (R142). -/
  | ior (core : Nat) (ops : VOps)
  /-- IXOR (R142). -/
  | ixor (core : Nat) (ops : VOps)
  /-- ISHL (R142). -/
  | ishl (core : Nat) (ops : VOps)
  /-- ISHR (R142). -/
  | ishr (core : Nat) (ops : VOps)
  /-- IMOV (R142). -/
  | imov (core : Nat) (ops : VOps)
  /-- RCP (R144). -/
  | rcp (core : Nat) (ops : VOps)
  /-- RSQRT (R144). -/
  | rsqrt (core : Nat) (ops : VOps)
  /-- SQRT (R144). -/
  | sqrt (core : Nat) (ops : VOps)
  /-- EXP2 (R144). -/
  | exp2 (core : Nat) (ops : VOps)
  /-- LOG2 (R144). -/
  | log2 (core : Nat) (ops : VOps)
  /-- TANH (R144). -/
  | tanh (core : Nat) (ops : VOps)
  /-- ERF (R144). -/
  | erf (core : Nat) (ops : VOps)
  /-- RED_SUM (R152). -/
  | redSum (core : Nat) (ops : VOps)
  /-- SUMSQ (R152). -/
  | sumsq (core : Nat) (ops : VOps)
  /-- PROD (R151). -/
  | prod (core : Nat) (ops : VOps)
  /-- RED_MAX (R154). -/
  | redMax (core : Nat) (ops : VOps)
  /-- RED_MIN (R154). -/
  | redMin (core : Nat) (ops : VOps)
  /-- ARGMAX (R154). -/
  | argmax (core : Nat) (ops : VOps)
  /-- ARGMIN (R154). -/
  | argmin (core : Nat) (ops : VOps)
  /-- ISUM (R152). -/
  | isum (core : Nat) (ops : VOps)
  /-- RED_IMAX (R151). -/
  | redImax (core : Nat) (ops : VOps)
  /-- RED_IMIN (R151). -/
  | redImin (core : Nat) (ops : VOps)
  /-- LPERM (R155). -/
  | lperm (core : Nat) (ops : VOps)
  /-- RPERM (R155). -/
  | rperm (core : Nat) (ops : VOps)
  /-- LBCAST (R155). -/
  | lbcast (core : Nat) (ops : VOps)
  /-- RBCAST (R155). -/
  | rbcast (core : Nat) (ops : VOps)
  /-- LROT (R155). -/
  | lrot (core : Nat) (ops : VOps)
  /-- FCMP (R142). -/
  | fcmp (core : Nat) (ops : VOps)
  /-- ICMP (R142). -/
  | icmp (core : Nat) (ops : VOps)
  /-- PAND (R142). -/
  | pand (core : Nat) (ops : VOps)
  /-- POR (R142). -/
  | por (core : Nat) (ops : VOps)
  /-- PXOR (R142). -/
  | pxor (core : Nat) (ops : VOps)
  /-- PNOT (R142). -/
  | pnot (core : Nat) (ops : VOps)
  /-- PTRI (R142). -/
  | ptri (core : Nat) (ops : VOps)
  /-- DROP (R148). -/
  | drop (core : Nat) (ops : VOps)
  /-- VLD (R147). -/
  | vld (core : Nat) (ops : VOps)
  /-- VST (R149). -/
  | vst (core : Nat) (ops : VOps)
  /-- VEC_BANK_TIMEOUT (R136). -/
  | vecBankTimeout (core : Nat)
  /-- ENGINE_NOP (R171). -/
  | engineNop (q : Machine.QueueAt) (ph : EPhys)
  /-- FIN_SCAN (R185). -/
  | finScan (cl q : Nat) (ph : EngPhys)
  /-- FIN_APPLY (R188). -/
  | finApply (cl q : Nat) (ph : EngPhys) (rngStall : Nat)
  /-- FIN_APPLY_REISSUE (R190). -/
  | finApplyReissue (cl q on : Nat) (fetched : Option (List Byte × BitVec 128)) (ph : EngPhys)
  /-- SAVE (R195). -/
  | save (cl q : Nat) (ph : EngPhys)
  /-- LOAD (R192). -/
  | load (cl q : Nat) (ph : EngPhys)
  /-- FREE (R192). -/
  | free (cl q : Nat) (ph : EngPhys)
  /-- GATHER (R198). -/
  | gather (cl q : Nat) (ph : EngPhys)
  /-- SCATTER (R198). -/
  | scatter (cl q : Nat) (ph : EngPhys)
  /-- SORT (R199). -/
  | sort (cl q : Nat) (ph : EngPhys)
  /-- PARAM (R200). -/
  | param (cl q : Nat) (ph : EngPhys)
  /-- CAST (R202). -/
  | cast (cl q : Nat) (ph : EngPhys) (rngStall : Nat)
  /-- AMAX (R109). -/
  | amax (cl q : Nat) (ph : EngPhys)
  /-- RESHARD_COPY (R202). -/
  | reshardCopy (cl q : Nat) (ph : EngPhys)
  /-- WCOPY (R112). -/
  | wcopy (cl q : Nat) (ph : EngPhys)
  /-- DMA_COPY (R178). -/
  | dmaCopy (cl q : Nat) (ph : EngPhys)
  /-- DMA_IN (R178). -/
  | dmaIn (cl q : Nat) (ph : EngPhys)
  /-- DMA_OUT (R179). -/
  | dmaOut (cl q : Nat) (ph : EngPhys)
  /-- DMA_ZERO (R177). -/
  | dmaZero (cl q : Nat) (ph : EngPhys)
  /-- CONTEXT_DISCARD (R176). -/
  | contextDiscard (cl : Nat) (x : Machine.FlightCut)
  /-- QUEUE_ENTRY_ISSUE (R257). -/
  | queueEntryIssue (q : Machine.QueueAt) (rd : Machine.EntryRead)
  /-- WAIT_ENTRY (R257). -/
  | waitEntry (cl q : Nat)
  /-- ENGINE_COMPLETION (R261). -/
  | engineCompletion (cl n : Nat) (cf : Bool)
  /-- FEED_FETCH (R265). -/
  | feedFetch (p : Nat) (again : Bool) (waited : Nat)
  /-- ATTEMPT_START (R266). -/
  | attemptStart (x : Machine.PartStart)
  /-- CLOSING_WORD_SEND (R272). -/
  | closingWordSend (p : Nat)
  /-- CLOSE_WORD (R371). -/
  | closeWord (e : Nat) (msg : Msg)
  /-- CLOSE_RESULT (R276). -/
  | closeResult (p : Nat) (x : Option (Nat × Msg))
  /-- NAME_LIST (R372). -/
  | nameList (e : Nat) (msg : Msg)
  /-- NAME_RESULT (R275). -/
  | nameResult (p : Nat) (x : Option (Nat × Msg))
  /-- CLOSE_TIMEOUT (R289). -/
  | closeTimeout (p : Nat)
  /-- DROP_NOTICE (R285). -/
  | dropNotice (e : Nat) (msg : Msg)
  /-- DROP_ACK (R285). -/
  | dropAck (e : Nat) (msg : Msg)
  /-- ATTEMPT_ABORT (R287). -/
  | attemptAbort (e : Nat) (msg : Msg)
  /-- STEP_BOUNDARY (R268). -/
  | stepBoundary (p ms : Nat)
  /-- SUSPENSION_POINT (R369). -/
  | suspensionPoint (h : Nat)
  /-- COLLECTIVE_ARM_REPORT (R342). -/
  | collectiveArmReport (p q t : Nat)
  /-- ALL_REDUCE (R349). -/
  | allReduce (p q : Nat) (lf : Bool)
  /-- REDUCE_SCATTER (R349). -/
  | reduceScatter (p q : Nat) (lf : Bool)
  /-- ALL_GATHER (R353). -/
  | allGather (p q : Nat) (lf : Bool)
  /-- BROADCAST (R353). -/
  | broadcast (p q : Nat) (lf : Bool)
  /-- SEND (R353). -/
  | send (p q : Nat) (lf : Bool)
  /-- RECV (R353). -/
  | recv (p q : Nat) (lf : Bool)
  /-- A2A_DISPATCH (R354). -/
  | a2aDispatch (p q : Nat) (lf : Bool)
  /-- A2A_COMBINE (R355). -/
  | a2aCombine (p q : Nat) (lf : Bool)
  /-- PUT (R353). -/
  | put (p q : Nat) (lf : Bool)
  /-- COLLECTIVE_COMPLETE (R342). -/
  | collectiveComplete (p q : Nat)
  /-- CONTRIB (R347). -/
  | contrib (e : Nat) (msg : Msg) (lf : Bool)
  /-- PARTIAL (R360). -/
  | partialSum (e : Nat) (msg : Msg) (lf : Bool)
  /-- RESULT (R347). -/
  | result (e : Nat) (msg : Msg) (lf : Bool)
  /-- A2A_ROWS (R354). -/
  | a2aRows (e : Nat) (msg : Msg) (lf : Bool)
  /-- A2A_COUNT (R354). -/
  | a2aCount (e : Nat) (msg : Msg)
  /-- CACK (R346). -/
  | cack (e : Nat) (msg : Msg)
  /-- PARTNER (R353). -/
  | partner (e : Nat) (msg : Msg)
  /-- HERITAGE_STEP_STATUS (R361). -/
  | heritageStepStatus (e : Nat) (overflow error abort : Bool) (samples step again : Nat)
  /-- COLLECTIVE_ORDER_TIMEOUT (R358). -/
  | collectiveOrderTimeout (p q : Nat)
  /-- LAC_TIMEOUT (R366). -/
  | lacTimeout (p q : Nat)
  /-- LINK_DOWN (R365). -/
  | linkDown (e : Nat)
  /-- DATA_FLIT (R313). -/
  | dataFlit (e : Nat) (raw : List Byte)
  /-- IDLE_FLIT (R303). -/
  | idleFlit (e ack : Nat) (credit : Nat × Nat) (fix : List Nat)
  /-- NAK (R310). -/
  | nak (x : Machine.RxFlit) (seq : Nat)
  /-- REPLAY_TIMEOUT (R310). -/
  | replayTimeout (e : Nat)
  /-- HEARTBEAT (R316). -/
  | heartbeat (x : Machine.RxFlit) (seq : Nat)
  /-- HEARTBEAT_SEND (R316). -/
  | heartbeatSend (e : Nat)
  /-- HEARTBEAT_SILENCE (R317). -/
  | heartbeatSilence (e : Nat)
  /-- FLIT_LOCK_LOSS (R317). -/
  | flitLockLoss (e : Nat)
  /-- PAUSE (R326). -/
  | pause (x : Machine.RxFlit) (mask : Nat)
  /-- UNPAUSE (R328). -/
  | unpause (x : Machine.RxFlit)
  /-- COAST_DONE (R327). -/
  | coastDone (x : Machine.RxFlit)
  /-- PAUSE_TMO (R327). -/
  | pauseTmo (e : Nat)
  /-- HOLD (R329). -/
  | hold (x : Machine.RxFlit)
  /-- DEGRADE (R322). -/
  | degrade (x : Machine.RxFlit) (lane : Nat) (tx : Bool)
  /-- LANE_FAILURE (R322). -/
  | laneFailure (e lane : Nat)
  /-- IDENTITY (R320). -/
  | identity (x : Machine.RxFlit) (id : BitVec 128)
  /-- CREDIT_INIT (R319). -/
  | creditInit (x : Machine.RxFlit) (cr : List Nat)
  /-- TRAINING_STAGE_TIMEOUT (R319). -/
  | trainingStageTimeout (e : Nat)
  /-- DETECT_RETRY (R318). -/
  | detectRetry (e : Nat) (found : Option (Nat × Nat))
  /-- EYELET_TRAINING_COMPLETE (R319). -/
  | eyeletTrainingComplete (e tx rx : Nat)
  /-- CABLE_INSERTED (R562). -/
  | cableInserted (n : Nat)
  /-- WELT_HEARTBEAT_SEND (R36). -/
  | weltHeartbeatSend (d retries : Nat)
  /-- DIE_LOSS_DETECT (R36). -/
  | dieLossDetect (o d : Nat)
  /-- DIE_LOSS_BROADCAST (R37). -/
  | dieLossBroadcast (o d : Nat)
  /-- ROUTE_INSTALL (R38). -/
  | routeInstall
  /-- WELT_LANE_REPAIR (R18). -/
  | weltLaneRepair (d n : Nat) (tx : Bool)
  /-- COBBLER_HEARTBEAT (R34). -/
  | cobblerHeartbeat (d : Nat)
  /-- COBBLER_SILENT (R34). -/
  | cobblerSilent (o d : Nat)
  /-- MASTER_CLAIM (R34). -/
  | masterClaim (d : Nat)
  /-- DIE_REJOIN (R41). -/
  | dieRejoin (d w : Nat) (failed : List (Nat × Nat × Nat))
  /-- DIE_ADMISSION (R41). -/
  | dieAdmission (d : Nat)
  /-- REJOIN_DEADLINE (R40). -/
  | rejoinDeadline (d : Nat)
  /-- SEAT_WRITE (R26). -/
  | seatWrite (edge a : Nat) (xs : List Byte)
  /-- SEAT_READ (R25). -/
  | seatRead (edge a n : Nat)
  /-- SEAT_DOORBELL (R25). -/
  | seatDoorbell (edge n : Nat)
  /-- SEAT_DOWN (R27). -/
  | seatDown
  /-- HBM_READ (R233). -/
  | hbmRead (fw : Bool) (blk : Nat) (err : HbmErr) (demoted : Bool)
  /-- HBM_WRITE (R223). -/
  | hbmWrite (at_ : Machine.HbmAt) (pay : List Byte) (a : Aglet) (err : HbmErr)
  /-- HBM_ROW_REPAIR (R238). -/
  | hbmRowRepair (pc : Nat) (errs : List (Nat × HbmErr))
  /-- HBM_SCRUB_READ (R235). -/
  | hbmScrubRead (op : Bool) (x : Nat) (err : HbmErr)
  /-- ROW_TRACKER_EXPIRY (R236). -/
  | rowTrackerExpiry (st row : Nat)
  /-- INSOLE_SCRUB (R168). -/
  | insoleScrub (cl : Nat) (ce ue : List Nat)
  /-- WITNESS_COMPARE (R207). -/
  | witnessCompare (cl : Nat) (w : Machine.WitSign)
  /-- HANDOVER (R383). -/
  | handover (cl n : Nat) (cf : Bool)
  /-- AWL_TEST_START (R392). -/
  | awlTestStart (u : Nat) (cf : Bool)
  /-- AWL_TEST_RESULT (R389). -/
  | awlTestResult (u : Nat) (pass : Bool) (stage sig : Nat)
  /-- FAULT_WINDOW_EXPIRY (R380). -/
  | faultWindowExpiry (u : Nat)
  /-- DRAIN_TIMEOUT (R402). -/
  | drainTimeout (u w1 w2 : Nat)
  /-- TWIN_REQUEST (R396). -/
  | twinRequest (e : Nat) (msg : Msg)
  /-- TWIN_REPLY (R398). -/
  | twinReply (e : Nat) (msg : Msg)
  /-- PARTNER_UNUSABLE_NOTICE (R397). -/
  | partnerUnusableNotice (e : Nat) (msg : Msg)
  /-- PARTNER_LAYER_COMMIT (R416). -/
  | partnerLayerCommit (p : Nat)
  /-- FLASH_LAYER_COMMIT (R416). -/
  | flashLayerCommit (p : Nat)
  /-- SECURE_REPORT (R424). -/
  | secureReport (e : Nat) (msg : Msg)
  /-- INPUT_APPLIED (R543). -/
  | inputApplied (mv : Nat) (ok : Bool)
  /-- BOOT_ROM (R514). -/
  | bootRom (fails : List (Nat × Nat × Nat))
  /-- DISCOVERY (R29). -/
  | discovery (answered : Nat) (seat : Option SeatInfo)
  /-- WELT_TRAINING (R16). -/
  | weltTraining (repairs : List (Nat × Nat × Nat × Nat))
  /-- HBM_TRAINING (R214). -/
  | hbmTraining (up : HbmUp)
  /-- STARTUP_AWL_TESTS (R543). -/
  | startupAwlTests (bad : List (Nat × Nat × Nat))
  /-- PACKAGE_READY (R543). -/
  | packageReady (ms : Nat)
  /-- BOOT_WATCHDOG_EXPIRY (R516). -/
  | bootWatchdogExpiry
  /-- COLD_RESET (R549). -/
  | coldReset
  /-- PACKAGE_RESET (R552). -/
  | packageReset
  /-- DIE_RESET (R549). -/
  | dieReset (d : Nat)
  /-- COBBLER_RESET (R549). -/
  | cobblerReset (d : Nat)
  /-- CLUSTER_RESET (R551). -/
  | clusterReset (cl : Nat)
  /-- FUNCTION_LEVEL_RESET (R470). -/
  | functionLevelReset (f : Nat)
  /-- PERST_N_ASSERT (R547). -/
  | perstNAssert
  /-- PERST_N_DEASSERT (R569). -/
  | perstNDeassert
  /-- HOST_LINK_TRAINING (R571). -/
  | hostLinkTraining (rate width best : Nat)
  /-- INPUT_SAMPLE (R433). -/
  | inputSample (mv ma : Nat)
  /-- INPUT_FAULT (R433). -/
  | inputFault
  /-- CAPPER_TICK (R442). -/
  | capperTick (meas issue : Nat) (parts : List (Nat × Nat × Nat))
  /-- TRIM_TICK (R443). -/
  | trimTick (avg : Nat)
  /-- ATTRIBUTION_SCALE (R441). -/
  | attributionScale (meter model : Nat)
  /-- BUBBLE_WINDOW (R440). -/
  | bubbleWindow (core taperNs : Nat) (cyc : Option Nat)
  /-- DROOP_ONSET (R444). -/
  | droopOnset (cl : Nat)
  /-- DROOP_RECOVERY (R444). -/
  | droopRecovery (cl : Nat)
  /-- DROOP_CLEAR (R444). -/
  | droopClear (cl : Nat)
  /-- FREQ_STEP (R439). -/
  | freqStep (d : Nat)
  /-- THERMAL_SAMPLE (R448). -/
  | thermalSample (xs : List (Nat × Nat))
  /-- THERMAL_LIMIT_TICK (R449). -/
  | thermalLimitTick
  /-- COOLANT_STOP (R452). -/
  | coolantStop
  /-- COOLANT_RESTORED (R453). -/
  | coolantRestored
  /-- PHASE_SHUTOFF (R404). -/
  | phaseShutoff (d rail : Nat)
  /-- CLUSTER_GATE (R435). -/
  | clusterGate (cl : Nat)
  /-- CLUSTER_WAKE (R435). -/
  | clusterWake (cl : Nat)
  /-- DOZE_WAKE_COMPLETE (R556). -/
  | dozeWakeComplete
  /-- EVENT_RAISE (R494). -/
  | eventRaise (d src : Nat) (kind : EvKind)
  /-- HOLDOFF_EXPIRY (R498). -/
  | holdoffExpiry (d g : Nat)
  /-- COALESCE_TIMER (R503). -/
  | coalesceTimer (f : Nat)
  /-- RECORDER_ENTRY (R535). -/
  | recorderEntry (x : RecIn) (bad0 bad1 : Bool)
  /-- RECORDER_FORWARD (R534). -/
  | recorderForward (d : Nat)
  /-- UNLOCK_EXPIRY (R531). -/
  | unlockExpiry
  /-- CHALLENGE_EXPIRY (R528). -/
  | challengeExpiry
  /-- COBBLER_MESSAGE (R472). -/
  | cobblerMessage (dst src : Nat) (msg : List Byte)
  /-- CLUSTER_MAILBOX (R472). -/
  | clusterMailbox (cl : Nat) (msg : List Byte)
  /-- DIE_DOORBELL (R472). -/
  | dieDoorbell (d bit : Nat)
  /-- I3C_READ (R574). -/
  | i3cRead (addr off n : Nat)
  /-- I3C_ENERGY_READ (R575). -/
  | i3cEnergyRead (addr : Nat)
  /-- I3C_REFRESH (R575). -/
  | i3cRefresh (avgMw : Nat)
  /-- RSTDAA (R574). -/
  | rstdaa
  /-- ENTDAA (R574). -/
  | entdaa (a : Nat)
  /-- SETDASA (R574). -/
  | setdasa (st a : Nat)
  /-- GETPID (R574). -/
  | getpid (addr : Nat)
  /-- GETBCR (R574). -/
  | getbcr (addr : Nat)
  /-- GETDCR (R574). -/
  | getdcr (addr : Nat)
  /-- GETSTATUS (R574). -/
  | getstatus (addr : Nat)
  /-- FLIT_TIME (R314). -/
  | flitTime (e : Nat)
  /-- RAILS (R566). -/
  | rails (failed : List (Nat × Nat))
  /-- CABLE_REMOVED (R562). -/
  | cableRemoved (n : Nat)
  /-- SECURING_READ_COMPLETE (R418). -/
  | securingReadComplete (p hold : Nat)
deriving DecidableEq, Repr

end Sys2Proof
end

