-- ==== Sys2Proof/Machine/PowerOn.lean ====
section
/-!
DEFINITION. The module with nothing in it: what a cold reset leaves before what persists is put back (R550), and what fuses and manufacture give (log entry 77).
-/
namespace Sys2Proof.Machine

/-- The slot selector of a boot NOR that holds no image (log entry 77). -/
def Selector.none : Selector :=
  { seq := 0, active := 3, previous := 3, pending := 3, fails := [0, 0, 0], bad := [false, false, false], svn := [0, 0, 0] }

/-- The identity word of a die by its position (R28): major revision A, every feature, no erratum, the position plus 1 as SERIAL (log entry 77). -/
def bornIdent (d : Nat) : BitVec 128 :=
  BitVec.ofNat 128 ((if d < 4 then 1 else 2) + 16 * d + 2 ^ 8 + 2 ^ 16 * 0xFF + 2 ^ 32 * (d + 1))

/-- Fuses and boot NOR as manufacture leaves them (log entry 77). -/
def Sec.born : Sec :=
  { vendorKeys := [0, 0, 0, 0], revoked := [false, false, false, false], uds := 0, svn := 0, udsLocked := false, nor := [], selA := .none, selB := .none
    failedA := [], failedB := [], aliasCert := [], booted := 3, recovery := false, bootCfg := { roles := [], seats := [], hb := 0x532, unlock := [] }
    fwVersion := 0, candFails := [], pendBad := false, pendCold := false, watchdog := false, nonce := .none, scopes := 0, grantKey := 0, unlocked := false
    key := 0, aliasSeed := [] }

/-- Power, clocks and thermal state without input (no rail is up). -/
def Pwr.off : Pwr :=
  { inputMv := 0, inputMa := 0, underUs := 0, overUs := 0, vshank := false, rails := (List.range 10).map (fun d => (d, 7)), fault := false, inputFlt := false
    fMod := 0, fPart := [], trimOff := 0, thermOff := 0, limited := false, throttled := false, tripCnt := [], warned := [], tripped := false, coolStop := false
    wait := false, scale := 1, mv := [], hostOp := 0, droop := [], bubble := [], railLim := [], energyMj := 0, energyPj := 0, attrNj := [], doze := false
    waking := false, mirLatch := 0, i3cLatch := 0, shutOff := 0 }

/-- A module of a part number as a cold reset finds it. -/
def Blk.blank (k : Sku) : Blk :=
  let r : RegFile := RegFile.set [] ⟨.PWR_CAP, iod0, 0⟩ (BitVec.ofNat 256 k.maxInput)
  { regs := RegFile.set r ⟨.PWR_I3C_ID, 0, 0⟩ (BitVec.ofNat 256 (k.identPart % 2 ^ 32))
    evg := { cnt := [], level := [], presented := [], holdoff := [], armed := [], full := [], seq := [], coal := [], cobQueue := [], msix := [] }
    recd := { owner := iod0, dev0 := [], dev1 := [], nextSeq := 1, oldestSeq := 1, cleared := 0, bootCnt := 0, held := [], lost := [] }
    sec := .born
    mbx := { req := [], rsp := [], rspQueue := [], lastSeq := [], cobbler := [], cluster := [], dieBell := [], dieMask := [], ops := [], retired := [], serial := 0 }
    units := { table := [], queue := [], running := [], passed := [], sched := [], noStand := [], badBlk := [], drain := [], regWait := [] }
    pwr := .off
    pins := { coolantOk := false, perst := true, cable := [], i3cDyn := none, linkUp := false, linkWidth := 0, linkRate := 0, linkFails := 0, linkHeld := false
              bar2Log2 := 35 }
    pkg := { sku := k, ident := ((List.range 10).filter (fun d => k.populated d)).map (fun d => (d, bornIdent d)), serials := [], answered := 0, lost := 0, rejoined := 0
             late := 0, withdrawn := 0, heldReset := 0, missed := [], claimed := 0, seatDown := false, seatBase := 0, seatSize := 0, seatTag := 0, weltFast := false
             done := 0, armed := 0, resetDue := 0, seatBell := 0, shankOnly := false, hostStrap := 2 ^ iod0, flashStrap := 2 ^ iod0, fellBack := 0, seatMods := 0, seatRate := 0
             routeDue := false }
    hbm := { data := [], aglets := [], track := [], rowFail := [], spares := [], records := [], due := [], relaying := [], chFailed := [], scrubbed := [] }
    ins := { data := [], aglets := [] }
    cores := { cb := [], lines := [], acc := [], rowPois := [], rowMask := [], banks := [], accCnt := [], samples := [] }
    vec := { tiles := [], pois := [], preds := [], pvl := [], prc := [], runs := [], mrow := [] }
    stash := { ents := [], insUse := [], hbmUse := [], swtch := 0, fell := 0 }
    seq := { flights := [], next := 0, store := [] }
    lac := { eyes := [], cached := [] }
    flash := [], parts := [], asleep := [], hostMem := [], hostHole := [], readData := [], fresh := 0 }

end Sys2Proof.Machine
end

