-- ==== Sys2Proof/Machine/Groups.lean ====
section
/-!
DEFINITION. Job axes, groups and collective descriptors (R335, R336, R340, R341, R348, R360).
-/
namespace Sys2Proof.Machine

/-- The coordinates of a job rank on axes of the given sizes, axis 0 fastest (R335). -/
def coords : List Nat → Nat → List Nat
  | [], _ => []
  | x :: xs, r => (if x = 0 then 0 else r % x) :: coords xs (if x = 0 then r else r / x)

/-- The rank at coordinates (R335). -/
def rankAt : List Nat → List Nat → Nat
  | x :: xs, c :: cs => c + x * rankAt xs cs
  | _, _ => 0

/-- The axes as six sizes, unused ones 1. -/
def Last.six (l : Last) : List Nat := (l.axes ++ List.replicate 6 1).take 6

/-- An axis is spanned by a group, from START over LEN coordinates. -/
def Group.spans (g : Group) (a : Nat) : Bool := bitOf g.axes a
def Group.startOf (g : Group) (a : Nat) : Nat := g.start.getD a 0
def Group.lenOf (g : Group) (a : Nat) : Nat := g.len.getD a 0

/-- A group record's fields (R336). -/
def Group.parse (w : BitVec 256) : Group :=
  let u (at_ : Nat) : Nat := bits w.toNat (8 * at_) 16
  { axes := u 0 % 256, size := u 2, start := (List.range 6).map (fun a => u (4 + 4 * a)), len := (List.range 6).map (fun a => u (6 + 4 * a)) }

/-- The group that a descriptor names. -/
def Last.groupAt (l : Last) (i : Nat) : Option Group := (l.groups[i]?).map Group.parse

/-- SIZE is the product of LEN over the spanned axes. -/
def Group.sizeOk (g : Group) : Bool :=
  decide (g.size = ((List.range 6).filter g.spans).foldl (fun n a => n * g.lenOf a) 1)

/-- `r` is a member of the group of member `m` (R336). -/
def Last.inGroup (l : Last) (g : Group) (m r : Nat) : Bool :=
  let cm := coords l.six m
  let cr := coords l.six r
  decide (r < l.members) && (List.range 6).all (fun a =>
    if g.spans a then decide (g.startOf a ≤ cr.getD a 0) && decide (cr.getD a 0 < g.startOf a + g.lenOf a)
    else decide (cr.getD a 0 = cm.getD a 0))

/-- The group's members for this package, in ascending group rank: axis 0 varies fastest in both numberings. -/
def Last.groupMembers (l : Last) (g : Group) : List Nat := (List.range l.members).filter (fun r => l.inGroup g l.rank r)

/-- A member's group rank (R336). -/
def Last.grank (l : Last) (g : Group) (r : Nat) : Nat :=
  let c := coords l.six r
  ((List.range 6).foldl (fun (acc : Nat × Nat) a =>
    if g.spans a then (acc.1 + (c.getD a 0 - g.startOf a) * acc.2, acc.2 * g.lenOf a) else acc) (0, 1)).1

/-- The members of the package's replica: those that share its coordinate on the data axis (R335). -/
def Last.replicaOf (l : Last) : List Nat :=
  let at_ (r : Nat) : Nat := (coords l.six r).getD l.dataAxis 0
  (List.range l.members).filter (fun r => at_ r == at_ l.rank)

/-- A collective descriptor's fields (R340). -/
structure CollDesc where
  op     : Nat
  redop  : Nat
  herit  : Nat
  vc     : Nat
  part   : Nat
  cseq   : Nat
  group  : Nat
  pred   : Nat
  src    : Nat
  srcTag : Nat
  dst    : Nat
  dstTag : Nat
  count  : Nat
  cblk   : Nat
  credit : Nat
  epoch  : Nat
  kind   : Nat
  fmt    : Nat
  chkVer : Bool
  regath : Bool
  record : Bool
  cap    : Nat
  lines  : Nat
  aux    : Nat
  arms   : List Nat
  sigs   : List Nat
deriving DecidableEq, Repr

def CollDesc.parse (d : BitVec 512) : CollDesc :=
  let u (w lo n : Nat) : Nat := dsc d w lo n
  { op := u 0 0 6, redop := u 0 6 2, herit := u 0 8 2, vc := u 0 10 3, part := u 0 13 3, cseq := u 0 16 16, group := u 1 0 16, pred := u 1 16 16
    src := u 2 0 48, srcTag := u 3 16 16, dst := u 4 0 48, dstTag := u 5 16 16, count := u 6 0 24, cblk := u 6 24 3, credit := u 6 27 5
    epoch := u 7 0 12, kind := u 7 12 4, fmt := u 7 16 8, chkVer := bitOf (u 7 24 1) 0, regath := bitOf (u 7 25 1) 0, record := bitOf (u 7 26 1) 0
    cap := u 8 0 16, lines := u 8 16 16, aux := u 9 0 48
    arms := [u 11 0 16, u 11 16 16, u 12 0 16, u 12 16 16], sigs := [u 13 0 16, u 13 16 16, u 14 0 16, u 14 16 16] }

/-- A triple (R340): its counter, package-wide cluster, and whether it is valid. -/
def tripCtr (t : Nat) : Nat := bits t 0 8
def tripCl (t : Nat) : Nat := 9 * bits t 12 2 + bits t 8 4
def tripOk (t : Nat) : Bool := bitOf t 15

/-- The arithmetic code of a reduction over a group (R360): the oldest member's, else the HERITAGE field. -/
def Last.arith (l : Last) (d : CollDesc) : Nat :=
  match l.groupAt d.group with
  | none => d.herit
  | some g =>
    let old := ((l.groupMembers g).map (fun r => l.gens.getD r 0)).foldl max 0
    if old = 0 then d.herit else old

/-- A reduction's opcode. -/
def CollDesc.reduces (d : CollDesc) : Bool := decide (d.op = 1) || decide (d.op = 2)

/-- OPCODE, REDOP, FORMAT, HERITAGE and ranges that clicking accepts (R341, R360). -/
def Last.collOk (l : Last) (d : CollDesc) : Bool :=
  let fmtOk := decide (d.fmt ≤ 0x0E)
  let red := if d.redop = 3 then decide (d.fmt = 0x0B) else decide (d.fmt = 1) || decide (d.fmt = 2)
  let her := decide (l.arith d = 0) || (decide (l.arith d < 3) && decide (d.redop = 0) && decide (d.fmt = 1))
  decide (1 ≤ d.op) && decide (d.op ≤ 9) && decide (d.herit ≠ 3) && decide (1 ≤ d.vc) && decide (d.cseq ≤ 65534) && decide (1 ≤ d.cblk) && decide (d.cblk ≤ 4) &&
  decide (1 ≤ d.credit) && decide (d.src % 4096 = 0) && decide (d.dst % 4096 = 0) && decide (d.group < l.groups.length) &&
  (if d.reduces then red && her else fmtOk)

/-- Chunks of a tensor of `d.count` blocks. -/
def CollDesc.chunks (d : CollDesc) : Nat := (d.count + d.cblk - 1) / d.cblk

/-- Bytes of a row, and blocks of `n` rows laid out one after another. -/
def CollDesc.rowBytes (d : CollDesc) : Nat := 256 * d.lines
def CollDesc.rowBlocks (d : CollDesc) (n : Nat) : Nat := (n * d.rowBytes + 4095) / 4096

/-- Chunks of a number of blocks. -/
def CollDesc.chunksOf (d : CollDesc) (n : Nat) : Nat := (n + d.cblk - 1) / d.cblk

/-- How many of the chunks a group rank owns (R348). -/
def ownedChunks (n g o : Nat) : Nat := if o < n then (n - o + g - 1) / g else 0

/-- The first block and the blocks of a member's share of an all-gather: equal runs in group-rank order, the last short (log entry 62). -/
def CollDesc.share (d : CollDesc) (g k : Nat) : Nat × Nat :=
  let q := (d.count + g - 1) / g
  (min d.count (q * k), min q (d.count - q * k))

/-- Chunks that go from `a` to `c` (group ranks) of a collective: contributions (`res` false) or results. -/
def Last.flowChunks (l : Last) (d : CollDesc) (g a c : Nat) (res : Bool) : Nat :=
  let n := d.chunks
  let ring := decide (l.arith d ≠ 0)
  match d.op with
  | 1 =>
    if ring then (if c = (a + 1) % g then n - ownedChunks n g (if res then c else a) else 0)
    else ownedChunks n g (if res then a else c)
  | 2 => if ring then (if c = (a + 1) % g && !res then n - ownedChunks n g a else 0) else if res then 0 else ownedChunks n g c
  | 3 => if res then d.chunksOf (d.share g a).2 else 0
  | 4 => if res ∧ a = d.cap then n else 0
  | 5 | 6 => if res then n else 0
  | 7 => if res then 0 else d.chunksOf (d.rowBlocks d.cap)
  | 8 => if res then 0 else d.chunksOf (d.rowBlocks d.cap)
  | 9 => if res then n else 0
  | _ => 0

/-- One flow of a collective: its descriptor, the group's members, the peer's group rank, DIR, and its chunks, contributions and results. -/
structure FlowEnd where
  d    : CollDesc
  ms   : List Nat
  me   : Nat
  o    : Nat
  recv : Bool
  nc   : Nat
  nr   : Nat
deriving DecidableEq, Repr

/-- The flows of a last's collectives: one for each peer and direction in which anything goes (R337). SEND only sends, RECV only receives, and PUT goes to the buddy. -/
def Last.flowEnds (l : Last) : List FlowEnd :=
  ((l.colls.map CollDesc.parse).map (fun d => match l.groupAt d.group with
    | none => []
    | some g =>
      let ms := l.groupMembers g
      let me := l.grank g l.rank
      let k := ms.length
      let both (o : Nat) : List FlowEnd :=
        [{ d := d, ms := ms, me := me, o := o, recv := false, nc := l.flowChunks d k me o false, nr := l.flowChunks d k me o true },
         { d := d, ms := ms, me := me, o := o, recv := true, nc := l.flowChunks d k o me false, nr := l.flowChunks d k o me true }]
      (((List.range k).filter (fun o => decide (o ≠ me))).map both).flatten.filter (fun y =>
        decide (y.nc + y.nr ≠ 0) && !(decide (d.op = 5) && y.recv) && !(decide (d.op = 6) && !y.recv) && !(decide (d.op = 9) && (y.recv || decide (ms.getD y.o 0 ≠ l.buddy)))))).flatten

end Sys2Proof.Machine
end

