-- ==== Sys2Proof/Machine/Power.lean ====
section
/-!
DEFINITION. Power, clocks and thermal control (chapter 12, R404, R405, R436 to R457): the input, the capper, droops, the barrier ramp, operating points,
temperatures, the coolant stop, gating and the telemetry mirror.
-/
namespace Sys2Proof.Machine

def pwrReg (n : RegName) : RegRef := ⟨n, iod0, 0⟩

/-! ### Module states and set points (R433, R436, R443) -/

/-- A RUN_STEPS operation is RUNNING somewhere. -/
def Blk.anyRun (b : Blk) : Bool := b.mbx.ops.any (fun o => o.kind == .runSteps && o.st == .running)

/-- The module state as PWR_STATE codes it. -/
def Blk.mstate (b : Blk) : Nat :=
  if b.pwr.wait then 5 else if b.pwr.coolStop then 4 else if b.pkg.shankOnly then 3 else if b.pwr.doze then 2 else if b.anyRun then 0 else 1

/-- The stage that IDENT_START shows (R558): a coolant stop and DOZE show as stages of their own. -/
def Blk.stageShown (b : Blk) : Nat :=
  if b.stage ≠ 5 then b.stage else if b.pwr.coolStop then 7 else if b.pwr.doze then 9 else 5

/-- PWR_CAP in mW. -/
def Blk.capMw (b : Blk) : Nat := 1000 * b.rf (pwrReg .PWR_CAP) Fld.PWR_CAP_CAP_W

/-- The smallest of the cap, the input limit V_in × 86 A, the thermal limit and, for a rail whose lost phases lower its highest point (R405), the load
that its live phases carry (log entry 60). -/
def Blk.capBound (b : Blk) : Nat :=
  b.pwr.railLim.foldl (fun m x => min m (Config.railLoad x.1 x.2)) (min (min b.capMw (b.pwr.inputMv * 86)) (b.capMw - b.pwr.thermOff))

/-- The module's set point in mW, with what TRIM takes off. -/
def Blk.setPoint (b : Blk) : Nat := b.capBound - b.pwr.trimOff

/-- PWR_STATE follows. -/
def Blk.pwrShow (b : Blk) : Blk :=
  let r := pwrReg .PWR_STATE
  ((((b.wf r Fld.PWR_STATE_MSTATE b.mstate).wf r Fld.PWR_STATE_THROTTLE (b2n (b.pwr.thermOff != 0))).wf r Fld.PWR_STATE_TRIM (b2n (b.pwr.trimOff != 0))).wf r
    Fld.PWR_STATE_SETPOINT (b.setPoint / 1000))

/-- INPUT_SAMPLE: voltage in mV and current in mA over 1 µs; the energy meters, the time out of range, and INPUT_LIMITED once per episode. -/
def Blk.inputSample (b : Blk) (mv ma : Nat) : Blk :=
  let pj := b.pwr.energyPj + mv * ma
  let mj := pj / 10 ^ 9
  let b1 : Blk := { b with pwr := { b.pwr with
    inputMv := mv, inputMa := ma, underUs := if mv < 42000 then b.pwr.underUs + 1 else 0, overUs := if 60000 < mv then b.pwr.overUs + 1 else 0
    energyPj := pj % 10 ^ 9, energyMj := (b.pwr.energyMj + mj) % 2 ^ 64 } }
  let b2 := b1.bump (pwrReg .PWR_ENERGY) mj
  let lim := decide (mv * 86 < min b2.capMw (b2.capMw - b2.pwr.thermOff))
  let b3 : Blk := { b2 with pwr := { b2.pwr with limited := lim } }
  (if lim && !b.pwr.limited then b3.record { code := 0x0174, die := iod0, data := leBytes 4 (mv / 10) } else b3).pwrShow

/-- FAULT_N is asserted (R567): for a cause that holds, and only while there is input. -/
def Blk.faultPin (b : Blk) : Bool := b.pwr.fault && decide (b.pwr.inputMv ≠ 0)

/-- The module stops: FAULT_N is asserted, every rail is off and VSHANK with them, the link is down, and no die answers (R405, R433). Only a cold reset restarts it. -/
def Blk.moduleOff (b : Blk) (input : Bool) : Blk :=
  let b1 := { b with
    pwr := { b.pwr with fault := true, inputFlt := b.pwr.inputFlt || input, vshank := false, rails := (List.range 10).map (fun d => (d, 7)) }
    pins := { b.pins with linkUp := false }, pkg := { b.pkg with answered := 0, resetDue := 0 } }
  (b1.wf ⟨.IDENT_PRESENT, 0, 0⟩ Fld.IDENT_PRESENT_PRESENT 0).setStage 0

/-- INPUT_FAULT: below 42 V for 100 µs or above 60 V for 10 µs switches every rail off and asserts FAULT_N; only a cold reset restarts the module. -/
def Blk.inputFault (b : Blk) : Blk := if 100 ≤ b.pwr.underUs ∨ 10 ≤ b.pwr.overUs then b.moduleOff true else b

/-! ### The power capper (R441 to R443) -/

def clampF (x : Rat) : Rat := if x < 0 then 0 else if (7 : Rat) / 8 < x then 7 / 8 else x

/-- ⌈64 f⌉. -/
def slots64 (f : Rat) : Nat := (64 * f).ceil.toNat

/-- One evaluation: `meas` the 5 µs average, `issue` the attributed power of array and vector issue, `c` the set point, all in mW; `f` of the period before. -/
def capF (gain meas issue c : Nat) (f : Rat) : Rat :=
  let d : Rat := (meas : Rat) + (issue : Rat) * (f / (1 - f))
  if c = 0 then 7 / 8 else clampF ((gain : Rat) / 4 * ((d - c) / c))

/-- CAPPER_TICK: the module's average and issue power, and those of each partition, in mW. -/
def Blk.capperTick (b : Blk) (meas issue : Nat) (ps : List (Nat × Nat × Nat)) : Blk :=
  let gain := b.rf (pwrReg .PWR_CAP_CFG) Fld.PWR_CAP_CFG_GAIN
  let f := capF gain meas issue b.setPoint b.pwr.fMod
  let fp (x : Nat × Nat × Nat) : Nat × Rat :=
    let c := b.rf ⟨.PWR_CAP_P, iod0, x.1⟩ Fld.PWR_CAP_P_CAP_W
    (x.1, if c = 0 then 0 else capF gain x.2.1 x.2.2 (1000 * c) (((slotGet b.pwr.fPart x.1)).getD 0))
  let b1 : Blk := { b with pwr := { b.pwr with fMod := f, fPart := ps.map fp } }
  let b2 := ps.foldl (fun c (x : Nat × Nat × Nat) =>
    let nj := Sp.get 0 c.pwr.attrNj x.1 + 5 * x.2.1
    ({ c with pwr := { c.pwr with attrNj := Sp.set 0 c.pwr.attrNj x.1 (nj % 10 ^ 6) } }).bump ⟨.PWR_ATTR, iod0, x.1⟩ (nj / 10 ^ 6)) b1
  let b3 := if 0 < f then b2.bump (pwrReg .PWR_CAP_CNT) else b2
  b3.wf (pwrReg .PWR_STATE) Fld.PWR_STATE_K_MOD (slots64 f)

/-- TRIM_TICK: the 1 ms average of the input, in mW. -/
def Blk.trimTick (b : Blk) (avg : Nat) : Blk :=
  if b.rf (pwrReg .PWR_CAP_CFG) Fld.PWR_CAP_CFG_TRIM = 0 then ({ b with pwr := { b.pwr with trimOff := 0 } }).pwrShow
  else if b.capMw < avg then
    (({ b with pwr := { b.pwr with trimOff := min b.capBound (b.pwr.trimOff + (avg - b.capMw)) } }).bump (pwrReg .PWR_TRIM_CNT)).pwrShow
  else if avg * 100 ≤ b.capMw * 98 then ({ b with pwr := { b.pwr with trimOff := b.pwr.trimOff - b.capMw / 100 } }).pwrShow
  else b

/-- ATTRIBUTION_SCALE: one factor so that the modelled energies sum to the input meter. -/
def Blk.attribution (b : Blk) (meter model : Nat) : Blk :=
  if model = 0 then b else { b with pwr := { b.pwr with scale := b.pwr.scale * ((meter : Rat) / model) } }

/-! ### Issue slots (R440, R444, R447) -/

/-- Slot t of a window is withheld when k slots are. -/
def withheld (k t : Nat) : Bool := decide (t * k / 64 < (t + 1) * k / 64)

/-- The withheld fraction of the ramp for wave w, `cyc` cycles after the barrier edge. -/
def rampF (gap w cyc : Nat) : Rat :=
  if cyc < w * gap then 1
  else match (cyc - w * gap) / 64 with
    | 0 => 3 / 4 | 1 => 9 / 16 | 2 => 3 / 8 | 3 => 3 / 16 | _ => 0

/-- The wave of an array: its index by die, cluster, rank of the schedule core it serves among those of the cluster that queues are bound to, array (R447). -/
def Blk.waveOf (b : Blk) (core a : Nat) : Nat :=
  let cl := core / 5
  let bound (c : Nat) : Bool := (List.range 16).any (fun q => decide (b.rf (qReg cl q) Fld.SEQ_Q_LENGTH ≠ 0) && decide (b.rf (qReg cl q) Fld.SEQ_Q_BIND % 8 = b.schedTo cl c) &&
    decide (b.rf (qReg cl q) Fld.SEQ_Q_BIND < 16))
  let rank := ((b.schedOf cl (core % 5)).map (fun s => ((List.range s).filter bound).length)).getD 0
  (144 * clDie cl + 16 * clK cl + 4 * rank + a) % 32

/-- f_cap of a cluster's cores: the larger of the module's and its partition's (R442). -/
def Blk.fCap (b : Blk) (cl : Nat) : Rat := max b.pwr.fMod (((b.partOf cl).bind (fun p => slotGet b.pwr.fPart p)).getD 0)

/-- k of one array: the most severe of the three demands, all 64 slots under a coolant stop. -/
def Blk.bubbleK (b : Blk) (core a taperNs : Nat) (cyc : Option Nat) : Nat :=
  let cl := core / 5
  let cap := b.fCap cl
  let drp : Rat := match Sp.get 0 b.pwr.droop cl with | 0 => 0 | 1 => 1 / 2 | _ => (taperNs : Rat) / 2000
  let ramp : Rat := match cyc with
    | some c => if b.rf ⟨.CLK_RAMP_CFG, clDie cl, 0⟩ Fld.CLK_RAMP_CFG_ENABLE = 0 then 0
                else rampF (b.rf ⟨.CLK_RAMP_CFG, clDie cl, 0⟩ Fld.CLK_RAMP_CFG_WAVE_GAP) (b.waveOf core a) c
    | none => 0
  if b.pwr.coolStop then 64 else slots64 (max (max cap drp) ramp)

/-- BUBBLE_WINDOW: the start of a window of a core, `taperNs` of the 1 µs droop taper still to come and `cyc` cycles after the last barrier edge. -/
def Blk.bubbleWindow (b : Blk) (core taperNs : Nat) (cyc : Option Nat) : Blk :=
  if 180 ≤ core then b
  else { b with pwr := { b.pwr with bubble := (List.range 4).foldl (fun m a => Sp.set 0 m (4 * core + a) (b.bubbleK core a (min 1000 taperNs) cyc)) b.pwr.bubble } }

/-- A barrier of every array of the package. -/
def Blk.barrierAll (b : Blk) : Blk := ((List.range 4).filter b.up).foldl (fun c d => c.barrier d) b

/-! ### Droop (R444, R445) -/

def Blk.dieDroops (b : Blk) (d : Nat) : Bool := (List.range 9).any (fun k => decide (Sp.get 0 b.pwr.droop (9 * d + k) ≠ 0))

def clkReg (d : Nat) : RegRef := ⟨.CLK_STATE, d, 0⟩

/-- DROOP_ONSET: the cluster's cores take k again at once, never less than before within the window (R440, R444). -/
def Blk.droopOnset (b : Blk) (cl : Nat) : Blk :=
  if 36 ≤ cl then b
  else
    let d := clDie cl
    let k := max 32 (slots64 (b.fCap cl))
    let b1 : Blk := { b with pwr := { b.pwr with
      droop := Sp.set 0 b.pwr.droop cl 1
      bubble := (List.range 20).foldl (fun m i => Sp.set 0 m (20 * cl + i) (max k (Sp.get 0 m (20 * cl + i)))) b.pwr.bubble } }
    let b2 := (b1.bump ⟨.PWR_DROOP_CNT, d, 0⟩).evGroup d 11 0
    let live := b.rf (clkReg d) Fld.CLK_STATE_CHANGING = 1 ∨ b.rf (clkReg d) Fld.CLK_STATE_PENDING = 1
    if live ∧ b.rf (clkReg d) Fld.CLK_STATE_FROZEN = 0 then (b2.wf (clkReg d) Fld.CLK_STATE_FROZEN 1).bump ⟨.CLK_FREEZE_CNT, d, 0⟩ else b2

/-- DROOP_RECOVERY. -/
def Blk.droopRecovery (b : Blk) (cl : Nat) : Blk :=
  if Sp.get 0 b.pwr.droop cl = 1 then { b with pwr := { b.pwr with droop := Sp.set 0 b.pwr.droop cl 2 } } else b

/-! ### Operating points (R437 to R439) -/

def opMhz (c : Nat) : Nat := [850, 750, 650, 500, 350].getD c 850
def opMv (c : Nat) : Nat := [800, 740, 690, 620, 560].getD c 800

/-- The target: the highest code that SET_POWER or a rail limit asks for. -/
def Blk.opCode (b : Blk) : Nat := (b.pwr.railLim.map (·.2)).foldl max b.pwr.hostOp

def Blk.mvOf (b : Blk) (d : Nat) : Nat := Sp.get 800 b.pwr.mv d

/-- The die stands at a point. Only VCORE_CD moves with the point (R439). -/
def Blk.atPoint (b : Blk) (d c : Nat) : Bool :=
  decide (b.rf (clkReg d) Fld.CLK_STATE_FREQ = opMhz c) && (decide (4 ≤ d) || decide (b.mvOf d = opMv c))

/-- Every partition with a RUN_STEPS running on the die stands at a step boundary (for an I/O die, every partition with one). -/
def Blk.opMay (b : Blk) (d : Nat) : Bool :=
  b.parts.all (fun x => !b.running x.1 || decide (x.2.step.state = 0) || (decide (d < 4) && !((List.range 9).any (fun k => bitOf x.2.clusters (9 * d + k)))))

/-- One step of a change under way: voltage first when rising, clock first when falling; the last step completes it (OP_CHANGED). -/
def Blk.opStep (b : Blk) (d : Nat) : Blk :=
  let r := clkReg d
  let c := b.rf r Fld.CLK_STATE_TARGET
  let f := b.rf r Fld.CLK_STATE_FREQ
  let v := b.mvOf d
  let setMv (x : Blk) (n : Nat) : Blk := { x with pwr := { x.pwr with mv := Sp.set 800 x.pwr.mv d n } }
  let b1 := (b.wf r Fld.CLK_STATE_CHANGING 1).wf r Fld.CLK_STATE_PENDING 0
  let b2 := if d < 4 ∧ f < opMhz c ∧ v < opMv c then setMv b1 (v + 10)
    else if f < opMhz c then b1.wf r Fld.CLK_STATE_FREQ (f + 25)
    else if opMhz c < f then b1.wf r Fld.CLK_STATE_FREQ (f - 25)
    else if d < 4 ∧ opMv c < v then setMv b1 (v - 10)
    else if d < 4 ∧ v < opMv c then setMv b1 (v + 10)
    else b1
  if b2.atPoint d c then
    ((b2.wf r Fld.CLK_STATE_CHANGING 0).bump ⟨.CLK_CHANGE_CNT, d, 0⟩).record { code := 0x0175, die := d, data := [BitVec.ofNat 8 c] }
  else b2

/-- FREQ_STEP: the next step of a change, unless a droop of the die holds it; a pending change starts where it may. -/
def Blk.freqStep (b : Blk) (d : Nat) : Blk :=
  let r := clkReg d
  if b.dieDroops d || !b.up d || decide (b.rf r Fld.CLK_STATE_PLL_LOCK = 0) then b
  else if b.rf r Fld.CLK_STATE_CHANGING = 1 ∨ (b.rf r Fld.CLK_STATE_PENDING = 1 ∧ b.opMay d = true) then (b.wf r Fld.CLK_STATE_FROZEN 0).opStep d
  else b

/-- DROOP_CLEAR: a change that was under way takes its next step at once. -/
def Blk.droopClear (b : Blk) (cl : Nat) : Blk :=
  if Sp.get 0 b.pwr.droop cl ≠ 2 then b
  else
    let d := clDie cl
    let b1 : Blk := { b with pwr := { b.pwr with droop := Sp.set 0 b.pwr.droop cl 0 } }
    if b1.rf (clkReg d) Fld.CLK_STATE_CHANGING = 1 ∧ b1.dieDroops d = false then b1.freqStep d else b1

/-- The target set on a die: pending unless a change under way is re-targeted or the die stands at the point. A change that may start takes its first
step at its FREQ_STEP; one that a droop of the die holds is counted (R445). -/
def Blk.opTarget (b : Blk) (d : Nat) : Blk :=
  let r := clkReg d
  let c := b.opCode
  let b1 := (b.wf ⟨.CLK_OP, d, 0⟩ Fld.CLK_OP_OP c).wf r Fld.CLK_STATE_TARGET c
  if b1.rf r Fld.CLK_STATE_CHANGING = 1 then b1
  else if b1.atPoint d c then b1.wf r Fld.CLK_STATE_PENDING 0
  else
    let b2 := b1.wf r Fld.CLK_STATE_PENDING 1
    if b2.dieDroops d && b2.rf r Fld.CLK_STATE_FROZEN == 0 then (b2.wf r Fld.CLK_STATE_FROZEN 1).bump ⟨.CLK_FREEZE_CNT, d, 0⟩ else b2

/-- The target set on every die that is up. -/
def Blk.opTargetAll (b : Blk) : Blk := ((List.range 10).filter b.up).foldl (fun c d => c.opTarget d) b

/-- OP_CHANGE_START at a step boundary: pending changes that may start take their first step. One that a droop has held starts with a FREQ_STEP, 10 µs after the
last droop (R445). -/
def Blk.opChangeStart (b : Blk) : Blk :=
  ((List.range 10).filter b.up).foldl (fun c d =>
    if c.rf (clkReg d) Fld.CLK_STATE_PENDING = 1 ∧ c.rf (clkReg d) Fld.CLK_STATE_CHANGING = 0 ∧ c.rf (clkReg d) Fld.CLK_STATE_FROZEN = 0 then c.freqStep d else c) b

/-- A die's clock and core rail at a point: its PLL locked, no change on (R437, R543). -/
def Blk.clockUp (b : Blk) (d c : Nat) : Blk :=
  let b1 := (((b.wn (clkReg d) 0).wf (clkReg d) Fld.CLK_STATE_FREQ (opMhz c)).wf (clkReg d) Fld.CLK_STATE_TARGET c).wf (clkReg d) Fld.CLK_STATE_PLL_LOCK 1
  { b1.wf ⟨.CLK_OP, d, 0⟩ Fld.CLK_OP_OP c with pwr := { b1.pwr with mv := if d < 4 then Sp.set 800 b1.pwr.mv d (opMv c) else b1.pwr.mv } }

/-- A die's clock stopped, its core rail at `mv`: a change is abandoned, the target stands (R436, R452, R454). -/
def Blk.clockDown (b : Blk) (d mv : Nat) : Blk :=
  let t := b.rf (clkReg d) Fld.CLK_STATE_TARGET
  let b1 := (b.wn (clkReg d) 0).wf (clkReg d) Fld.CLK_STATE_TARGET t
  { b1 with pwr := { b1.pwr with mv := if d < 4 then Sp.set 800 b1.pwr.mv d mv else b1.pwr.mv } }

/-! ### Temperatures (R448 to R450) -/

/-- A function's condition, and the physical function's. -/
def Blk.condAll (b : Blk) (bit : Nat) (lvl : Bool) : Blk := (List.range 9).foldl (fun c f => c.evCond iod0 (fnSource f bit) lvl) b

/-- The die that a sensor stands on. -/
def sensorDie (s : Nat) : Nat := if s < 36 then clDie s else if s < 48 then 4 + (s - 36) / 2 else if s < 80 then stackDie (s - 48) else iod0

/-- Warn, throttle and trip thresholds of a sensor. -/
def Blk.thresholds (b : Blk) (s : Nat) : Nat × Nat × Nat :=
  let g (f : Fld) : Nat := b.rf (pwrReg .PWR_THERM_CFG) f
  if s < 48 then (95, g Fld.PWR_THERM_CFG_THROTTLE_C, g Fld.PWR_THERM_CFG_TRIP_C)
  else if s < 80 then (85, g Fld.PWR_THERM_CFG_HBM_THROTTLE_C, g Fld.PWR_THERM_CFG_HBM_TRIP_C)
  else if s = 80 then (40, 1000, 1000) else (60, 1000, 1000)

/-- The hottest junction and stack as sampled last. -/
def Blk.hotJ (b : Blk) : Nat := b.rf (pwrReg .PWR_THERM_STAT) Fld.PWR_THERM_STAT_HOT_J
def Blk.hotS (b : Blk) : Nat := b.rf (pwrReg .PWR_THERM_STAT) Fld.PWR_THERM_STAT_HOT_HBM

/-- A sensor at or above its throttle threshold. -/
def Blk.tooHot (b : Blk) : Bool :=
  decide (b.rf (pwrReg .PWR_THERM_CFG) Fld.PWR_THERM_CFG_THROTTLE_C ≤ b.hotJ) || decide (b.rf (pwrReg .PWR_THERM_CFG) Fld.PWR_THERM_CFG_HBM_THROTTLE_C ≤ b.hotS)

/-- Every sensor at least `k` degrees below its throttle threshold. -/
def Blk.coolBy (b : Blk) (k : Nat) : Bool :=
  decide (b.hotJ + k ≤ b.rf (pwrReg .PWR_THERM_CFG) Fld.PWR_THERM_CFG_THROTTLE_C) && decide (b.hotS + k ≤ b.rf (pwrReg .PWR_THERM_CFG) Fld.PWR_THERM_CFG_HBM_THROTTLE_C)

/-- The running step of every partition is cut short by a coolant stop: its contexts are discarded and its operation, a RUN_STEPS or a REPLAY_STEP (log entry 58),
reports SUSPENDED (R452 to R454). -/
def Blk.coolParts (b : Blk) : Blk :=
  b.parts.foldl (fun c (x : Nat × Part) =>
    let c1 := if x.2.step.state = 1 ∨ x.2.step.state = 2 ∨ x.2.step.state = 3 then c.discardAll x.1 else c
    let c2 := c1.secureStop x.1
    match c2.opOn x.1 (fun k => k == .runSteps || k == .replayStep) with
    | some o => if o.st = .running then
        let o' := { o with st := OpState.suspended, susp := Susp.none }
        ((c2.runClock x.1 false).setOp o').notice o' else c2
    | none => c2) b

/-- The sequence of R452. `code` is COOLANT_STOP or THERMAL_TRIP. -/
def Blk.coolSequence (b : Blk) (code : Nat) : Blk :=
  if b.pwr.coolStop then b
  else
    let b1 := b.coolParts
    let b2 : Blk := { b1 with pwr := { b1.pwr with
      coolStop := true, wait := false, fault := true, tripped := decide (code = 0x0173)
      bubble := (List.range 720).foldl (fun m i => if b1.up (i / 180) then Sp.set 0 m i 64 else m) b1.pwr.bubble } }
    let b3 := ((List.range 48).filter b2.eyeExists).foldl (fun c e => c.pauseSend e 0xFF) b2
    let b4 := b3.abortTests (fun _ => true)
    let b5 := (List.range b4.pkg.sku.stacks).foldl (fun c st =>
      let r : RegRef := ⟨.HBM_STACK_STATE, stackDie st, stackQ st⟩
      if 2 ≤ c.rf r Fld.HBM_STACK_STATE_STATE ∧ c.rf r Fld.HBM_STACK_STATE_STATE ≤ 3 then c.wf r Fld.HBM_STACK_STATE_STATE 5 else c) b4
    let b6 := ((List.range 10).filter b5.up).foldl (fun c d =>
      let c1 := c.clockDown d 0
      { c1 with pwr := { c1.pwr with rails := Sp.set 0 c1.pwr.rails d (setBit (Sp.get 0 c1.pwr.rails d) (if d < 4 then 0 else 2) true) } }) b5
    let b6 := (b6.mbx.ops.filter (fun o => o.kind == .restore && o.st == .running && !o.ended)).foldl (fun c o => c.onPart o.part (fun x => { x with unrest := true, guar := 0 })) b6
    let b7 := ({ b6 with mbx := { b6.mbx with ops := b6.mbx.ops.map (fun (o : LongOp) =>
        if o.kind = OpKind.restore ∧ o.st = OpState.running ∧ o.ended = false then { o with ended := true, status := Status.opFailed.code } else o) } }).record
      { code := code, die := iod0, data := leBytes 8 (b6.shankNow iod0).toNat ++ [BitVec.ofNat 8 b6.hotJ, BitVec.ofNat 8 b6.hotS] ++
          leBytes 2 (b6.pwr.inputMv * b6.pwr.inputMa / 10 ^ 9) }
    (((b7.ringAll 17).condAll 8 true).evGroup iod0 11 3).pwrShow

/-- THERMAL_SAMPLE: sensors with their temperatures in °C. -/
def Blk.thermalSample (b : Blk) (xs : List (Nat × Nat)) : Blk :=
  let hot (p : Nat → Bool) : Nat := (xs.filter (fun x => p x.1)).foldl (fun m x => max m x.2) 0
  let r := pwrReg .PWR_THERM_STAT
  let at_ (k : Nat) : Nat := (slotGet xs k).getD 0
  let b1 := (((b.wf r Fld.PWR_THERM_STAT_HOT_J (hot (fun s => decide (s < 48)))).wf r Fld.PWR_THERM_STAT_HOT_HBM (hot (fun s => decide (48 ≤ s) && decide (s < 80)))).wf r
    Fld.PWR_THERM_STAT_INLET (at_ 80)).wf r Fld.PWR_THERM_STAT_OUTLET (at_ 81)
  let b2 := xs.foldl (fun c (x : Nat × Nat) =>
    let th := c.thresholds x.1
    let was := Sp.get 0 c.pwr.warned x.1
    let now := b2n (decide (th.1 ≤ x.2))
    let c1 : Blk := { c with pwr := { c.pwr with
      warned := Sp.set 0 c.pwr.warned x.1 now
      tripCnt := Sp.set 0 c.pwr.tripCnt x.1 (if th.2.2 ≤ x.2 then Sp.get 0 c.pwr.tripCnt x.1 + 1 else 0) } }
    let c2 := if now = 1 ∧ was = 0 then c1.evGroup (sensorDie x.1) 11 1 else c1
    if 48 ≤ x.1 ∧ x.1 < 80 then
      let q : RegRef := ⟨.HBM_STACK_STATE, stackDie (x.1 - 48), stackQ (x.1 - 48)⟩
      (c2.wf q Fld.HBM_STACK_STATE_TEMP x.2).wf q Fld.HBM_STACK_STATE_REF_2X (b2n (decide (85 < x.2)))
    else c2) b1
  let b3 := b2.condAll 3 (b2.tooHot || b2.pwr.warned != [])
  if b3.pwr.tripCnt.any (fun x => decide (3 ≤ x.2)) then b3.coolSequence 0x0173 else b3

/-- THERMAL_LIMIT_TICK. -/
def Blk.thermalTick (b : Blk) : Blk :=
  if b.tooHot then
    let b1 : Blk := { b with pwr := { b.pwr with thermOff := min (b.capMw * 3 / 4) (b.pwr.thermOff + b.capMw / 20), throttled := true } }
    (if b.pwr.throttled then b1 else b1.record { code := 0x0172, die := iod0, data := [BitVec.ofNat 8 b.hotJ, BitVec.ofNat 8 b.hotS] }).pwrShow
  else if b.coolBy 5 then
    let off := b.pwr.thermOff - b.capMw / 100
    let done := decide (min b.capMw (b.pwr.inputMv * 86) ≤ b.capMw - off)
    ({ b with pwr := { b.pwr with thermOff := if done then 0 else off, throttled := b.pwr.throttled && !done } }).pwrShow
  else b

/-! ### Rails and their phases (R404) -/

/-- The point that a die's rails permit: (code, rail off). -/
def railPoint (d rail live : Nat) : Nat × Bool :=
  if rail = 0 ∧ d < 4 then
    (if 11 ≤ live then (0, false) else if live = 10 then (1, false) else if live = 9 then (2, false) else if live = 8 then (3, false)
     else if live = 7 then (4, false) else (4, true))
  else if rail = 0 then (0, decide (live ≤ 3)) else if rail = 3 then (0, decide (live = 0)) else (0, decide (live ≤ 2))

def railFld (rail : Nat) : Fld :=
  match rail with | 0 => Fld.PWR_PHASES_CORE | 1 => Fld.PWR_PHASES_HBM | 2 => Fld.PWR_PHASES_EYE | _ => Fld.PWR_PHASES_SHANK

/-- Phases fitted (R404). -/
def phasesFitted (d rail : Nat) : Nat :=
  if rail = 0 then (if d < 4 then 12 else 5) else if d < 4 then 0 else if rail = 3 then (if d = iod0 then 2 else 0) else 4

/-! ### Coolant stop (R451 to R454) -/

/-- COOLANT_STOP: COOLANT_OK has been deasserted for 50 ms. -/
def Blk.coolantStop (b : Blk) : Blk :=
  let b1 : Blk := { b with pins := { b.pins with coolantOk := false } }
  if b.stage < 5 then b1 else b1.coolSequence 0x0170

/-- COOLANT_RESTORED: COOLANT_OK has been asserted for 50 ms; after a trip, with every sensor 10 °C below its throttle threshold. -/
def Blk.coolantRestored (b : Blk) : Blk :=
  let b : Blk := { b with pins := { b.pins with coolantOk := true } }
  if !b.pwr.coolStop || b.pwr.wait || (b.pwr.tripped && !b.coolBy 10) then b
  else
    let b1 := b.record { code := 0x0171, die := iod0 }
    (({ b1 with pwr := { b1.pwr with wait := true, fault := false } }).ringAll 17).pwrShow

/-- The rails that a die's live phases leave off (R404), as the mask of `Pwr.rails`. -/
def Blk.railsByPhases (b : Blk) (d : Nat) : Nat :=
  let live (rail : Nat) : Nat := phasesFitted d rail - (phasesFitted d rail - b.rf ⟨.PWR_PHASES, d, 0⟩ (railFld rail))
  let off (rail : Nat) : Nat := if (railPoint d rail (live rail)).2 then 2 ^ rail else 0
  if d < 4 then off 0 else off 0 + off 1 + off 2

/-- RESUME in COOLANT_WAIT: stacks leave self-refresh, eyelets retrain from DETECT, clocks run at the target, and the interrupted attempts are discarded and
replayed (R370, R453). -/
def Blk.coolResume (b : Blk) : Blk :=
  let b1 : Blk := { b with pwr := { b.pwr with
    coolStop := false, wait := false, tripped := false, tripCnt := [], droop := []
    bubble := [] } }
  let b2 := (List.range b1.pkg.sku.stacks).foldl (fun c st =>
    let r : RegRef := ⟨.HBM_STACK_STATE, stackDie st, stackQ st⟩
    if c.rf r Fld.HBM_STACK_STATE_STATE = 5 then c.wf r Fld.HBM_STACK_STATE_STATE (if c.rn (outReg st) = 0 then 2 else 3) else c) b1
  let b3 := ((List.range 48).filter b2.eyeExists).foldl (fun c e =>
    let c1 := if c.eyeUp e || decide (7 ≤ c.eyeState e ∧ c.eyeState e ≤ 8) then (c.eyeDown e 1).wf (eyeReg e) Fld.EYE_STATE_HOLD_SENT 0 else c
    if c1.pauseMask e ≠ 0 then c1.unpauseSend e else c1) b2
  let b4 := ((List.range 10).filter b3.up).foldl (fun c d =>
    let c1 := c.clockUp d (c.rf (clkReg d) Fld.CLK_STATE_TARGET)
    { c1 with pwr := { c1.pwr with rails := Sp.set 0 c1.pwr.rails d (c1.railsByPhases d) } }) b3
  let b5 := b4.parts.foldl (fun c (x : Nat × Part) =>
    if x.2.step.state = 1 ∧ x.2.step.sent = false then
      ((c.onStep x.1 (fun st => { st with flags := st.flags ||| fFault, susp := 0 }))).abortAttempt x.1
    else c.onStep x.1 (fun st => { st with susp := 0 })) b4
  (((b5.barrierAll).condAll 8 false)).pwrShow

/-! ### Regulator phases (R404, R405) -/

/-- PWR_PHASES of a die at the phases fitted. -/
def phasesWord (d : Nat) : Nat := phasesFitted d 0 + 2 ^ 4 * phasesFitted d 1 + 2 ^ 7 * phasesFitted d 2 + 2 ^ 10 * phasesFitted d 3

/-- PHASE_SHUTOFF: rail 0 core, 1 HBM, 2 eyelets, 3 VSHANK. -/
def Blk.phaseShutoff (b : Blk) (d rail : Nat) : Blk :=
  let r : RegRef := ⟨.PWR_PHASES, d, 0⟩
  let live := b.rf r (railFld rail)
  if live = 0 ∨ 3 < rail then b
  else
    let data := [BitVec.ofNat 8 rail, BitVec.ofNat 8 (live - 1)]
    let b1 := (b.wf r (railFld rail) (live - 1)).record { code := 0x0150, die := d, data := data }
    let b2 : Blk := { b1 with pwr := { b1.pwr with shutOff := min 0xFFFFFFFF (b1.pwr.shutOff + 1) } }
    let b3 := if live = phasesFitted d rail then b2.record { code := 0x0151, die := d, data := data } else b2
    let now := railPoint d rail (live - 1)
    let was := railPoint d rail live
    if now.2 && !was.2 then
      if rail = 3 then b3.moduleOff false
      else
        let b4 := b3.record { code := 0x0153, die := d, data := data }
        { b4 with pwr := { b4.pwr with rails := Sp.set 0 b4.pwr.rails d (setBit (Sp.get 0 b4.pwr.rails d) rail true) } }
    else if was.1 < now.1 then
      (({ b3 with pwr := { b3.pwr with railLim := Sp.set 0 b3.pwr.railLim d now.1 } }).record { code := 0x0152, die := d, data := data }).opTargetAll.pwrShow
    else b3

/-! ### Gating, DOZE (R435, R436, R556) -/

/-- Every queue of the cluster waits on a counter or a phase, or is at its end. -/
def Blk.clusterIdle (b : Blk) (cl : Nat) : Bool :=
  decide (b.flightsOf cl = []) &&
  (List.range 16).all (fun q => match b.headEntry cl q, b.partOf cl with
    | some e, some p => !b.passes p cl q e && (!b.phaseOpen p e.phase || !b.waitOk cl e)
    | _, _ => true)

/-- CLUSTER_GATE: a cluster that has been idle for GATE_IDLE. -/
def Blk.clusterGate (b : Blk) (cl : Nat) : Blk :=
  if cl < 36 ∧ b.up (clDie cl) = true ∧ b.rf ⟨.CLK_GATE_CFG, clDie cl, 0⟩ Fld.CLK_GATE_CFG_ENABLE = 1 ∧ b.clusterIdle cl = true then b.setGated cl true else b

/-- The wake from DOZE: IDLE, the compute dies at operating point 0, from which a target that is another begins its change, and the stacks active again. The queued
operations start in `Blk.wakeAll`. -/
def Blk.dozeWake (b : Blk) : Blk :=
  let b1 : Blk := ((List.range 4).filter b.up).foldl (fun (c : Blk) d => (c.clockUp d 0).opTarget d) { b with pwr := { b.pwr with doze := false, waking := false } }
  let b2 := (List.range b1.pkg.sku.stacks).foldl (fun c st =>
    let r : RegRef := ⟨.HBM_STACK_STATE, stackDie st, stackQ st⟩
    if c.rf r Fld.HBM_STACK_STATE_STATE = 5 then c.wf r Fld.HBM_STACK_STATE_STATE (if c.rn (outReg st) = 0 then 2 else 3) else c) b1
  b2.pwrShow

/-- DOZE entered: the compute dies stopped at 0.50 V, the stacks in self-refresh (R436, R556). -/
def Blk.dozeEnter (b : Blk) : Blk :=
  let b1 := (List.range b.pkg.sku.stacks).foldl (fun c st =>
    let r : RegRef := ⟨.HBM_STACK_STATE, stackDie st, stackQ st⟩
    if 2 ≤ c.rf r Fld.HBM_STACK_STATE_STATE ∧ c.rf r Fld.HBM_STACK_STATE_STATE ≤ 3 then c.wf r Fld.HBM_STACK_STATE_STATE 5 else c) b
  let b2 := ((List.range 4).filter b1.up).foldl (fun c d => c.clockDown d 500) b1
  ({ b2 with pwr := { b2.pwr with doze := true } }).pwrShow

/-! ### The telemetry mirror (R458) -/

/-- MIRROR_REFRESH: `avgMw` and `avgK` are the 1 ms averages of the input power and of the withheld slots. -/
def Blk.mirrorRefresh (b : Blk) (avgMw avgK : Nat) : Blk :=
  let m (n : RegName) : RegRef := ⟨n, 0, 0⟩
  let op := ((List.range 10).filter (fun d => b.up d && decide (b.rf (clkReg d) Fld.CLK_STATE_FREQ ≠ 0))).foldl (fun x d => max x (((List.range 5).reverse.find? (fun c => decide (b.rf (clkReg d) Fld.CLK_STATE_FREQ ≤ opMhz c))).getD 0)) 0
  let st := b.mstate + 2 ^ 3 * op + 2 ^ 6 * b2n b.pins.coolantOk + 2 ^ 7 * b2n (b.pwr.thermOff != 0) + 2 ^ 8 * b2n b.pwr.coolStop + 2 ^ 9 * min 63 avgK +
    2 ^ 15 * b2n (b.pwr.railLim.any (fun x => x.2 != 0))
  ((((b.wn (m .PWR_MIR_INPUT) (min 0xFFFF (b.pwr.inputMv / 10) + 2 ^ 16 * min 0xFFFF (avgMw / 1000))).wn (m .PWR_MIR_CAP) (b.capMw / 1000 + 2 ^ 16 * (b.setPoint / 1000))).wn
    (m .PWR_MIR_STATE) st).wn (m .PWR_MIR_TEMP) (b.rn (pwrReg .PWR_THERM_STAT))).wn (m .PWR_MIR_ENERGY) b.pwr.energyMj

/-- MIRROR_ENERGY_READ: the low word, with the high word latched. -/
def Blk.mirrorEnergy (b : Blk) : Blk :=
  let v := b.rn ⟨.PWR_MIR_ENERGY, 0, 0⟩
  { b with pwr := { b.pwr with mirLatch := BitVec.ofNat 32 (v / 2 ^ 32) }, readData := leBytes 4 (v % 2 ^ 32) }

end Sys2Proof.Machine
end

