-- ==== Sys2Proof/Machine/Clicking.lean ====
section
/-!
DEFINITION. Lasts: the image, clicking, loading, re-clicking and unloading (R244 to R254, R331, R337, R368). The sections whose bytes the manual does not
lay out come by content with the command (log entry 38); header, directory and tensor table are read from the image's bytes.
-/
namespace Sys2Proof.Machine

/-! ### The image (R244 to R246) -/

/-- A field of an image. -/
def imgU (xs : List Byte) (off n : Nat) : Nat := leNat ((xs.drop off).take n)

/-- A directory entry: code, variant mask (all variants for 0), length, offset. -/
structure DirEnt where
  code : Nat
  mask : Nat
  len  : Nat
  off  : Nat
deriving DecidableEq, Repr

def imgDir (xs : List Byte) : List DirEnt :=
  (List.range (imgU xs 6 2)).map (fun i =>
    let m := imgU xs (64 + 16 * i + 2) 2
    { code := imgU xs (64 + 16 * i) 2, mask := if m = 0 then 2 ^ imgU xs 19 1 - 1 else m, len := imgU xs (64 + 16 * i + 4) 4, off := imgU xs (64 + 16 * i + 8) 8 })

/-- A tensor table entry (R246). -/
def Tensor.parse (xs : List Byte) : Tensor :=
  { tag := imgU xs 0 2, recipe := imgU xs 2 1, format := imgU xs 3 1, kind := imgU xs 4 1, life := imgU xs 5 1, stash := imgU xs 6 1, gather := imgU xs 7 1
    bytes := imgU xs 8 8, lBase := imgU xs 16 6, version := imgU xs 22 2, epoch := imgU xs 24 2, watch := imgU xs 26 1, digest := imgU xs 27 1 }

/-- The tensor table of an image: the sections of code 4. -/
def imgTensors (xs : List Byte) : List Tensor :=
  match (imgDir xs).find? (fun d => d.code == 4) with
  | none => []
  | some d => (List.range (d.len / 32)).map (fun i => Tensor.parse ((xs.drop (d.off + 32 * i)).take 32))

/-- What the header and tensor table of the image say, over the sections that come by content. The layout's identity is the CRC-32C of its tensor tables (R414, log entry 219). -/
def Last.ofImage (l : Last) (xs : List Byte) : Last :=
  { l with
    jobKey := imgU xs 8 8, feature := imgU xs 16 2, heritage := imgU xs 18 1, replica := imgU xs 20 2, members := imgU xs 22 2, rank := imgU xs 24 2
    mbs := imgU xs 26 2, crc := imgU xs 28 4, major := imgU xs 40 1, tensors := imgTensors xs
    layoutCrc := (crc32c (((imgDir xs).filter (fun d => d.code == 4)).map (fun d => (xs.drop d.off).take d.len)).flatten).toNat
    mark := digestVal (sha256 (xs.take (64 + 16 * imgU xs 6 2))) }

/-- The formats of a recipe row (R110), elements and scale. -/
def recipeFormats (row : Nat) : List Nat × List Nat :=
  match row with
  | 0 => ([0x01, 0x0E], []) | 1 | 2 | 5 => ([0x04], [0x0C]) | 3 | 4 => ([0x03], [0x0C]) | 6 => ([0x06], [0x0C]) | 7 => ([0x05], [0x0C])
  | 8 => ([0x07], [0x0D]) | 9 | 10 => ([0x01], []) | 11 => ([0x0A], []) | 12 => ([0x0B], []) | _ => ([], [])

/-- A tensor entry's fields are in range, and its format is its recipe's (R110, log entry 63). -/
def Tensor.ok (t : Tensor) : Bool :=
  decide (t.recipe ≤ 12) && decide (t.kind ≤ 13) && decide (t.life ≤ 3) && decide (t.gather ≤ 2) && decide (t.watch ≤ 2) && decide (t.digest ≤ 1) &&
  decide (t.epoch < 4096) && decide (t.stash % 128 < 16) && decide (t.stash % 4 < 3) && decide (t.stash / 4 % 4 < 3) &&
  (if t.kind = 8 then (recipeFormats t.recipe).2.contains t.format else (recipeFormats t.recipe).1.contains t.format)

/-- Tags are unique but for the two halves of a split master. -/
def tagsOk (ts : List Tensor) : Bool :=
  ts.zipIdx.all (fun (x : Tensor × Nat) => (ts.take x.2).all (fun y => decide (y.tag ≠ x.1.tag) ||
    (decide (y.recipe = 0) && decide (x.1.recipe = 0) && decide (y.format ≠ x.1.format))))

/-- Sections: codes listed, inside the image, the mandatory ones for every variant, no two of one code for one variant (R245). -/
def dirOk (xs : List Byte) : Bool :=
  let ds := imgDir xs
  let n := imgU xs 19 1
  ds.all (fun d => decide (1 ≤ d.code) && decide (d.code ≤ 11) && decide (d.mask < 2 ^ n) && decide (d.off + d.len ≤ xs.length)) &&
  [1, 2, 3, 4, 5, 7, 11].all (fun c => (List.range n).all (fun v => ds.any (fun d => d.code == c && bitOf d.mask v))) &&
  ds.zipIdx.all (fun (x : DirEnt × Nat) => (ds.take x.2).all (fun y => decide (y.code ≠ x.1.code) || decide (y.mask &&& x.1.mask = 0)))

/-- Check 1 of R249 on the bytes. -/
def imageOk (xs : List Byte) : Bool :=
  decide (64 ≤ xs.length) && decide (imgU xs 0 4 = 0x5453414C) && decide (imgU xs 4 2 = 3) && decide (1 ≤ imgU xs 6 2) && decide (imgU xs 6 2 ≤ 64) &&
  decide (imgU xs 32 8 = xs.length) && decide (64 + 16 * imgU xs 6 2 ≤ xs.length) &&
  decide ((crc32c (xs.take 28 ++ zeros 4 ++ xs.drop 32)).toNat = imgU xs 28 4) && decide (imgU xs 18 1 ≤ 2) && decide (1 ≤ imgU xs 19 1) && decide (imgU xs 19 1 ≤ 4) &&
  decide (1 ≤ imgU xs 20 2) && decide (1 ≤ imgU xs 22 2) && decide (imgU xs 24 2 < imgU xs 22 2) && decide (1 ≤ imgU xs 26 2) && decide (imgU xs 26 2 ≤ 256) &&
  decide (imgU xs 40 1 ≠ 0) && (((xs.drop 41).take 23).all (fun x => x == 0)) && dirOk xs &&
  ((imgDir xs).filter (fun d => d.code == 4)).all (fun d => decide (d.len % 32 = 0) &&
    (List.range (d.len / 32)).all (fun i => decide (imgU xs (d.off + 32 * i + 28) 4 = 0)))

/-- The header and descriptor of an entry at the front of a program's bytes. -/
def entryFront (xs : List Byte) : Entry :=
  let h := leNat (xs.take 16)
  Entry.parse h ((xs.drop 16).take ((Entry.parse h []).size - 16))

/-- The entries of a segment's or program's bytes. -/
def entriesOf : Nat → List Byte → List Entry
  | 0, _ => []
  | fuel + 1, xs => if xs.length < 16 then [] else entryFront xs :: entriesOf fuel (xs.drop (entryFront xs).size)

def entriesIn (xs : List Byte) : List Entry := entriesOf (xs.length / 16 + 1) xs

/-- The reserved bits of the entries' headers are 0 (R256); the top four bits of a segment's header name the queue. -/
def headsOk (seg : Bool) : Nat → List Byte → Bool
  | 0, _ => true
  | fuel + 1, xs =>
    if xs = [] then true
    else
      let h := leNat (xs.take 16)
      decide (16 ≤ xs.length) && decide ((entryFront xs).size ≤ xs.length) && decide (bits h 21 11 = 0) && decide (bits h 52 12 = 0) && decide (bits h 87 9 = 0) &&
      (if seg then decide (bits h 123 1 = 0) else decide (bits h 123 5 = 0)) && (entryFront xs).legal && headsOk seg fuel (xs.drop (entryFront xs).size)

/-- Every micro-batch on one slot of a die named, distinct modulo 256, the slots as many as VARIANTS says; thin stages disjoint, passes of stages and of micro-batches on
their die (R262, R263, log entry 131). -/
def Variant.slotsOk (v : Variant) (mbs : Nat) : Bool :=
  decide (v.slotMap.length = mbs) && v.slotMap.all (fun x => bitOf v.dies x.2.1 && decide (x.2.2 < 16)) &&
  decide (((v.slotMap.map (fun x => x.2)).eraseDups).length = v.slots) &&
  v.slotMap.zipIdx.all (fun (x : (Nat × Nat × Nat) × Nat) => (v.slotMap.take x.2).all (fun y => decide (y.1 % 256 ≠ x.1.1 % 256))) &&
  v.stages.zipIdx.all (fun (x : (Nat × Nat) × Nat) => (v.stages.take x.2).all (fun y => decide (y.1 + y.2 ≤ x.1.1) || decide (x.1.1 + x.1.2 ≤ y.1))) &&
  v.passes.all (fun x => decide (x.2.1 < 2) && decide (x.2.2.1 < v.stages.length) && v.slotMap.any (fun y => y.1 == x.2.2.2 && y.2.1 == x.1))

/-- The work of a micro-batch stands on the die and in the slot that the slot map gives it (R262). -/
def Variant.workOk (v : Variant) (cl : Nat) (e : Entry) : Bool :=
  decide (e.mbatch = 0xFFFF) || v.slotMap.any (fun x => x.1 == e.mbatch && x.2.1 == clDie cl && x.2.2 == e.slot)

/-- Fields of SCHEDULE, SEGMENTS and the insole part of MEMPLAN are in range: queues 0 to 15, each once, aligned bases, counters, clusters of a die named, whole legal
entries. -/
def Variant.schedOk (v : Variant) : Bool :=
  v.sched.all (fun s => decide (s.cl < 36) && bitOf v.dies (clDie s.cl) && s.ctrs.all (fun c => decide (c.1 < 256) && decide (c.2.1 < 65536) && decide (c.2.2 < 65536)) &&
    decide (((s.progs.map (fun q => q.q)).eraseDups).length = s.progs.length) &&
    s.progs.all (fun q => decide (q.q < 16) && decide (q.base % 16 = 0) && decide (q.base + q.bytes.length ≤ 2 ^ 27) && decide (q.bind < 256) &&
      headsOk false (q.bytes.length / 16 + 1) q.bytes && (entriesIn q.bytes).all (v.workOk s.cl))) &&
  v.insole.all (fun y => decide (y.1 < 36) && decide (y.2.1 + y.2.2 ≤ 2 ^ 27)) &&
  v.stash.all (fun y => decide (y.1 < 36) && decide (y.2.1 < 16)) &&
  v.segments.all (fun g => decide (g.1 < 36) && decide (g.2.1 + g.2.2.length ≤ 2 ^ 27) && headsOk true (g.2.2.length / 16 + 1) g.2.2 && (entriesIn g.2.2).all (v.workOk g.1))

/-- The blocks that a slot of a cluster stashes for one micro-batch under a policy: its SAVE descriptors at the padded sizes they give. -/
def Variant.stashed (s : Sched) (slot mb pol : Nat) : Nat :=
  ((s.progs.filter (fun q => decide (q.bind = 0x11))).map (fun q => (((entriesIn q.bytes).filter (fun e => decide (e.kind = 0) && decide (e.mbatch = mb))).map
    (fun e => let d := StashDesc.parse e.raw; if d.op = 1 ∧ d.slot = slot ∧ d.policy = pol then d.blocks else 0)).sum)).sum

/-- The regions of STH_SLOT hold what the slot stashes of any one micro-batch (R191, log entry 172). -/
def Variant.stashOk (v : Variant) : Bool :=
  v.sched.all (fun s => (List.range 16).all (fun slot =>
    let w := ((v.stash.find? (fun y => y.1 == s.cl && y.2.1 == slot)).map (fun y => y.2.2.toNat)).getD 0
    (0xFFFF :: v.slotMap.map (fun x => x.1)).all (fun mb => decide (4096 * Variant.stashed s slot mb 0 ≤ bits w 32 27) && decide (Variant.stashed s slot mb 1 ≤ bits w 108 20))))

/-- What a memory plan places in the held half: outliving tensors in table order, and further regions, the partner region among them (R220, R240, R413). -/
def Last.heldPlan (l : Last) (v : Variant) : List (Nat × Nat × Nat) × List (Nat × Nat × Nat) :=
  (((l.tensors.zip v.places).filter (fun x => decide (x.1.life = 1))).map (fun x => x.2), v.regions.filter (fun x => decide (x.1 = 1)) ++ l.partnerRegion)

/-- The off-load region of a stash slot as the plan gives it: in the half that is not held, offset and blocks from STH_SLOT's HBM_BASE and HBM_BLOCKS (R191, log entry 212). -/
def offRegion (w : BitVec 128) : Nat × Nat × Nat := (0, bits w.toNat 64 44 / 4096, bits w.toNat 108 20)

/-- Check 1 of R249 on the sections given by content. Every variant leaves each outliving region at one offset (R240, R254, log entry 172). -/
def Last.fieldsOk (l : Last) (variants : Nat) : Bool :=
  decide (l.variants.length = variants) && l.tensors.all Tensor.ok && tagsOk l.tensors && l.groups.all (fun g => (Group.parse g).sizeOk) && l.colls.all (fun d => l.collOk (CollDesc.parse d)) &&
  decide (l.six.foldl (· * ·) 1 = l.members) && decide (l.dataAxis < 6) && decide (l.buddy < l.members) && (decide (l.buddy ≠ l.rank) || decide (l.members = 1)) &&
  l.cut.all (fun c => decide (c.eye < 48) && decide (c.peer < l.members)) &&
  l.variants.all (fun v => decide (v.places.length = l.tensors.length) && v.slotsOk l.mbs && decide (v.dies < 16) && v.schedOk && v.stashOk) &&
  l.variants.all (fun v => l.variants.all (fun w => decide (l.heldPlan v = l.heldPlan w)))

/-! ### The checks of clicking (R249 to R252) -/

/-- The variants in order of preference. -/
def Last.byOrder (l : Last) : List (Nat × Variant) :=
  (l.variants.zipIdx.foldl (fun (acc : List (Nat × Variant)) x =>
    acc.filter (fun y => decide (y.2.order ≤ x.1.order)) ++ [(x.2, x.1)] ++ acc.filter (fun y => decide (x.1.order < y.2.order))) [])

/-- The compute dies a variant needs are present, and usable. -/
def Blk.variantHere (b : Blk) (v : Variant) : Bool :=
  (List.range 4).all (fun d => !bitOf v.dies d || (b.up d && !bitOf b.pkg.withdrawn d))

/-- The package's major revision. -/
def Blk.major (b : Blk) : Nat := idMajor (b.identWord b.master)

/-- Check 2: features, forced heritage, a variant on present dies, JOB_MAJOR. -/
def Blk.clickFeature (b : Blk) (l : Last) : Bool :=
  let f := b.rn ⟨.IDENT_FEATURE_EFF, 0, 0⟩
  let forced (code bit : Nat) : Bool := (l.colls.map CollDesc.parse).any (fun d => d.reduces &&
    (match l.groupAt d.group with
     | some g => decide (((l.groupMembers g).map (fun r => l.gens.getD r 0)).foldl max 0 = code)
     | none => false)) && !bitOf f bit
  decide (l.feature &&& f = l.feature) && !forced 1 1 && !forced 2 0 && l.variants.any b.variantHere && decide (l.major = b.major)

/-- The last of a partition with its variant: loaded, or accepted by a LOAD_LAST that has not committed. -/
def Part.lastHeld (x : Part) : Option (Last × Nat) := match x.last with | some l => some (l, x.variant) | none => x.loading

/-- The clusters that a variant names, wherever it names them. -/
def Variant.named (v : Variant) : List Nat :=
  maskList v.clusters 36 ++ v.sched.map (fun s => s.cl) ++ v.insole.map (fun y => y.1) ++ v.segments.map (fun y => y.1) ++ v.stash.map (fun y => y.1)

/-- Check 3: the partition's clusters, and the shared registers of other lasts. -/
def Blk.clickPartition (b : Blk) (p : Nat) (l : Last) : Bool :=
  let mask := ((b.part p).map (fun x => x.clusters)).getD 0
  l.variants.all (fun v => v.named.all (fun cl => bitOf mask cl)) &&
  b.parts.all (fun x => decide (x.1 = p) || (match x.2.lastHeld with
    | some (m, _) => decide (cfgWord .LAC_CFG m.cfgLac = cfgWord .LAC_CFG l.cfgLac) && decide (cfgWord .AWL_CFG m.cfgAwl = cfgWord .AWL_CFG l.cfgAwl)
    | none => true))

/-- A queue binding that names an engine (R172). -/
def bindOk (c : Nat) : Bool := decide (c < 5) || (decide (8 ≤ c) && decide (c < 13)) || (decide (0x10 ≤ c) && decide (c ≤ 0x17))

/-- Check 4: segments of descriptors of permitted kinds, bindings, latency-critical queues. -/
def Last.queuesOk (l : Last) : Bool :=
  l.variants.all (fun v =>
    v.sched.all (fun s => s.progs.all (fun q => bindOk q.bind) && decide ((s.progs.filter (fun q => q.latency)).length ≤ 2)) &&
    v.segments.all (fun g =>
      match v.sched.find? (fun s => s.cl == g.1) with
      | none => false
      | some s => (entriesIn g.2.2).all (fun e => decide (e.kind = 0) &&
          match s.progs.find? (fun q => q.q == e.queue) with
          | some q => decide (q.bind < 13) || decide (q.bind = 0x12) || decide (q.bind = 0x13) || decide (0x14 ≤ q.bind)
          | none => false)))

/-- The banks of a cluster's insole that are marked. -/
def Blk.markedBanks (b : Blk) (cl : Nat) : Nat := maskPop (b.rn ⟨.SEQ_INS_MAPOUT, cl, 0⟩) 64

/-- The flows of a variant's collectives and relays (R337). -/
def Last.flowCount (l : Last) : Nat := l.flowEnds.length + l.relays.length

/-- The first byte above everything that a variant places in a cluster's insole: grants, programs, segments, stash regions (R167). -/
def Variant.insoleTop (v : Variant) (cl : Nat) : Nat :=
  let ends := (v.insole.filter (fun y => y.1 == cl)).map (fun y => y.2.1 + y.2.2) ++
    ((v.sched.filter (fun s => s.cl == cl)).map (fun s => s.progs.map (fun q => q.base + q.bytes.length))).flatten ++
    (v.segments.filter (fun g => g.1 == cl)).map (fun g => g.2.1 + g.2.2.length) ++
    (v.stash.filter (fun y => y.1 == cl && decide (bits y.2.2.toNat 32 27 ≠ 0))).map (fun y => bits y.2.2.toNat 0 27 + bits y.2.2.toNat 32 27)
  ends.foldl max 0

/-- Blocks of the firmware region that the last's tables and its digest store take (R242, R294, log entry 171). -/
def Last.tableBlocks (l : Last) : Nat :=
  let tables := 64 + 32 * l.tensors.length + 32 * l.groups.length + 64 * l.colls.length + (l.hyper.map (fun x => x.length)).sum
  let depth := bits (cfgWord .SEQ_STEP_CFG l.cfgStep) 16 8
  (tables + depth * (64 + 4 * (l.tensors.filter (fun t => decide (t.digest = 1))).length) + 4095) / 4096

/-- What a variant asks of the resources of R251 that follow from its own plan. -/
def Last.ownNeeds (l : Last) (v : Variant) : List Need :=
  let used (d : Nat) : Nat := (((v.slotMap.filter (fun x => x.2.1 == d)).map (fun x => x.2.2)).eraseDups).length
  (v.named.eraseDups).map (fun cl => (⟨1, clDie cl, clK cl, (v.insoleTop cl + 4095) / 4096⟩ : Need)) ++ [⟨4, 15, 0xFF, l.tableBlocks⟩, ⟨5, 15, 0xFF, l.flowCount⟩] ++ (v.sched.map (fun s => (⟨6, clDie s.cl, clK s.cl, (s.ctrs.filter (fun c => decide (c.1 ≠ 255))).length⟩ : Need))) ++
  ((List.range 4).filter (fun d => decide (used d ≠ 0))).map (fun d => (⟨7, d, 0xFF, used d⟩ : Need)) ++ [⟨8, 15, 0xFF, v.stages.length⟩, ⟨9, 15, 0xFF, l.mbs⟩]

/-- What other partitions hold of a resource of the whole package. -/
def Blk.heldByOthers (b : Blk) (p code : Nat) : Nat :=
  (b.parts.filter (fun x => decide (x.1 ≠ p))).foldl (fun n x =>
    match x.2.lastHeld with
    | none => n
    | some (l, i) => match l.variants[i]? with
      | some v => n + ((v.needs ++ l.ownNeeds v).filter (fun k => decide (k.code = code) && decide (k.die = 15))).foldl (fun a k => a + k.amount) 0
      | none => n) 0

/-- A partition's contiguous range of a half of `total` blocks: HBM_SHARE 64ths, after those of the partitions before it (R485). -/
def Blk.shareRange (b : Blk) (p total : Nat) : Nat × Nat :=
  let before := ((b.parts.filter (fun x => decide (x.1 < p))).map (fun x => x.2.hbmShare)).sum
  let own := ((b.part p).map (fun x => x.hbmShare)).getD 0
  (total * before / 64, total * (before + own) / 64)

/-- A plan that places a block of a half outside the partition's range asks for more of that half than it has: the whole extent from the range to the block. An outliving
tensor, or a partner region, that it places in the other half does not fit in the held half (R220, R413). The off-load regions of the stash slots count in the other
half (R191). -/
def Blk.placeNeeds (b : Blk) (p : Nat) (l : Last) (v : Variant) : List Need :=
  let r := b.shareRange p (b.rf capReg Fld.HBM_CAP_PCS * hbmD / 2)
  let stray := ((((l.heldPlan v).1 ++ l.partnerRegion).filter (fun x => decide (x.1 ≠ 1))).map (fun x => x.2.2)).sum
  [(1, 2), (0, 3)].filterMap (fun (h : Nat × Nat) =>
    let xs := (v.places ++ v.regions ++ l.partnerRegion ++ v.stash.map (fun y => offRegion y.2.2)).filter (fun x => decide (x.1 = h.1) && decide (x.2.2 ≠ 0))
    let lo := xs.foldl (fun m x => min m x.2.1) r.1
    let hi := xs.foldl (fun m x => max m (x.2.1 + x.2.2)) r.2
    let more := if h.1 = 1 then stray else 0
    if hi - lo + more = r.2 - r.1 then none else some ⟨h.2, 15, 0xFF, hi - lo + more⟩)

/-- What is there of a resource for a partition (R251): insole blocks, HBM blocks at the capacity after pending map-outs, firmware blocks less the
flow-context table and the staging, flow contexts, counters, slots, stages, micro-batches. -/
def Blk.available (b : Blk) (p : Nat) (k : Need) : Nat :=
  let pcs := b.rf capReg Fld.HBM_CAP_PCS
  let own (total : Nat) : Nat := total - b.heldByOthers p k.code
  match k.code with
  | 1 => 31232 - 512 * b.markedBanks (9 * k.die + k.cl)
  | 2 | 3 => let r := b.shareRange p (pcs * hbmD / 2); r.2 - r.1
  | 4 => own (256 * pcs - 24576)
  | 5 => 4096 * ((b.part p).map (fun x => x.flowShare)).getD 0
  | 6 => 255
  | 7 => min 16 (((b.part p).map (fun x => x.slots.getD k.die 0)).getD 0)
  | 8 => own 8
  | 9 => 256
  | _ => 0

/-- The resources of a variant that do not fit, in the order of R252: by code, die position, cluster. -/
def Blk.unfit (b : Blk) (p : Nat) (l : Last) (v : Variant) : List Need :=
  ((v.needs ++ l.ownNeeds v ++ b.placeNeeds p l v).filter (fun k => decide (b.available p k < k.amount))).foldl (fun acc k =>
    let key (x : Need) : Nat := 65536 * x.code + 256 * x.die + x.cl
    acc.filter (fun y => decide (key y ≤ key k)) ++ [k] ++ acc.filter (fun y => decide (key k < key y))) []

/-- A refusal: its status, and for REFUSED_FIT the variant and need reported. -/
structure Refused where
  status : Status
  v      : Nat
  need   : Option Need
deriving DecidableEq, Repr

/-- Check 5: the first variant that fits, or the need that refuses; `may` are the variants it may take. -/
def Blk.clickFit (b : Blk) (p : Nat) (l : Last) (may : Variant → Bool := fun _ => true) : Except Refused Nat :=
  let here := l.byOrder.filter (fun x => b.variantHere x.2 && may x.2)
  match here.find? (fun x => b.unfit p l x.2 == []) with
  | some x => .ok x.1
  | none => match here.head? with
    | some x => .error ⟨.refusedFit, x.1, (b.unfit p l x.2).head?⟩
    | none => .error ⟨.refusedFeature, 0, none⟩

/-- Clicking a last against a partition (R249). -/
def Blk.click (b : Blk) (p : Nat) (l : Last) (xs : List Byte) : Except Refused Nat :=
  if !imageOk xs || !l.fieldsOk (imgU xs 19 1) then .error ⟨.refusedImage, 0, none⟩
  else if !b.clickFeature l then .error ⟨.refusedFeature, 0, none⟩
  else if !b.clickPartition p l then .error ⟨.refusedPartition, 0, none⟩
  else if !l.queuesOk then .error ⟨.refusedImage, 0, none⟩
  else b.clickFit p l

/-- The refusal record as the notice's result (R252, R480). -/
def Blk.refusalResult (b : Blk) (p : Nat) (r : Refused) : List (Nat × Nat × Nat) :=
  match r.need with
  | none => []
  | some k => [(16, 1, k.code), (17, 1, r.v), (18, 1, k.die), (19, 1, k.cl), (24, 8, k.amount), (32, 8, b.available p k)]

/-! ### Loading (R253) -/

/-- A context of no flow. -/
def Flow.blank : Flow :=
  { ctx := 0, state := 0, recv := false, relay := false, herit := false, first := 0, peer := 0, cseq := 0, step := 0, attempt := 0, vc := 0, eye := 0xFF
    alt := 0xFF, group := 0, grank := 0, base := 0, tag := 0, version := 0, epoch := 0, format := 0, credit := 0, chunks := 0, done := 0, acked := 0
    samples := 0, prog := 0, hop := 0, held := [] }

/-- The place of the flow's first block from the start of SRC or DST, in bytes (R338). -/
def FlowEnd.start (l : Last) (y : FlowEnd) : Nat :=
  let g := y.ms.length
  let ring := decide (l.arith y.d ≠ 0)
  let chunk0 (own : Nat) : Nat := 4096 * y.d.cblk * (if ring then ((List.range y.d.chunks).filter (fun t => decide (t % g ≠ own))).headD 0 else own)
  match y.d.op with
  | 1 | 2 =>
    let res := decide (y.nc = 0)
    if ring then chunk0 (if res = y.recv then y.me else y.o) else chunk0 (if res = y.recv then y.o else y.me)
  | 3 => if y.recv then 4096 * (y.d.share g y.o).1 else 0
  | 7 => if y.recv then y.o * y.d.cap * y.d.rowBytes / 4096 * 4096 else 0
  | 8 => if y.recv then 0 else y.o * y.d.cap * y.d.rowBytes / 4096 * 4096
  | _ => 0

/-- The flow context of a flow. -/
def Blk.makeFlow (b : Blk) (p : Nat) (l : Last) (y : FlowEnd) : Flow :=
  let d := y.d
  let peer := y.ms.getD y.o 0
  let eye := (b.cutTo p peer).headD 0xFF
  let alt := ((l.cut.find? (fun c => c.eye == eye)).map (fun c => c.alt)).getD 0xFF
  { Flow.blank with
    recv := y.recv, first := y.nc, herit := decide (l.gens.getD peer 0 ≠ 0), peer := peer, cseq := d.cseq, vc := d.vc, eye := eye, alt := alt, group := d.group
    grank := y.o, base := (if y.recv then d.dst else d.src) + y.start l, tag := if y.recv then d.dstTag else d.srcTag, epoch := d.epoch, format := d.fmt
    credit := d.credit, chunks := y.nc + y.nr }

/-- The flow contexts of a partition's last (R337), numbered from `base`: those of the collectives, then one for each relay route, whose NEXT_HOP names the first context that sends on the outgoing eyelet (log
entry 216). -/
def Blk.makeFlows (b : Blk) (p : Nat) (l : Last) (base : Nat) : List Flow :=
  let fs := (l.flowEnds.map (b.makeFlow p l)).zipIdx.map (fun (x : Flow × Nat) => { x.1 with ctx := base + x.2 })
  let out (r : Nat) : Nat := (b.cutTo p r).headD 0xFF
  fs ++ l.relays.zipIdx.map (fun (x : (Nat × Nat) × Nat) =>
    let ctx := base + fs.length + x.2
    { Flow.blank with
      ctx := ctx, state := 2, relay := true, peer := x.1.1, eye := out x.1.2
      hop := ((fs.find? (fun w => !w.recv && w.eye == out x.1.1)).map (fun w => w.ctx)).getD ctx % 65536 })

/-- A collective that has not run in the attempt. -/
def Coll.fresh (cseq : Nat) : Coll :=
  { cseq := cseq, reports := 0, started := false, complete := false, status := 0, flags := 0, live := 0, contribs := [], result := [], counts := [], overflow := 0
    badPeer := 0xFFFF, badChunk := 0, kib := 0, samples := 0, written := [] }

/-- STH_SLOT of a partition's clusters as the memory plan places them (R191): the off-load regions at their offset in the half that is not held (log entry 212). -/
def Blk.stashSlots (b : Blk) (p : Nat) : Blk :=
  match b.variantOf p with
  | none => b
  | some va =>
    let h := 4096 * halfBase (b.rf capReg Fld.HBM_CAP_HELD_HIGH != 1) b.hbmP
    va.stash.foldl (fun (c : Blk) x =>
      let r : RegRef := ⟨.STH_SLOT, x.1, x.2.1⟩
      let d := c.wrDefined r x.2.2.toNat
      d.wf r Fld.STH_SLOT_HBM_BASE (d.rf r Fld.STH_SLOT_HBM_BASE + h)) b

/-- The variant in force taken up: queue programs in the insole, queue and counter registers, regions and grants, flow contexts. -/
def Blk.takeVariant (b : Blk) (p v : Nat) : Blk :=
  let b1 := b.onPart p (fun x => { x with variant := v })
  match b1.part p, b1.variantOf p, b1.lastOf p with
  | some x, some va, some l =>
    let base := (b1.parts.filter (fun y => decide (y.1 ≠ p))).foldl (fun n y => max n ((y.2.flows.map (fun f => f.ctx + 1)).foldl max 0)) 0
    let regs := ((l.heldPlan va).1 ++ (l.heldPlan va).2).map (fun y => y.2)
    let hb (y : Nat × Nat × Nat) : Nat × Nat × Nat := (if y.1 = 1 then 0 else 1, 4096 * y.2.1, 4096 * y.2.2)
    let gr := va.places.map hb ++ va.regions.map hb ++ va.insole.map (fun y => (2 + y.1, y.2.1, y.2.2))
    let b2 := b1.setPart p { x with variant := v, regions := regs, grants := gr, flows := b1.makeFlows p l base, colls := (l.colls.map CollDesc.parse).map (fun d => Coll.fresh d.cseq) }
    let b3 := va.sched.foldl (fun c (s : Sched) => s.progs.foldl (fun c (q : QProg) =>
      c.insStore s.cl q.base q.bytes) c) b2
    let b4 := va.segments.foldl (fun c g => c.insStore g.1 g.2.1 g.2.2) b3
    (b4.clustersOf p).foldl (fun c cl => c.loadSched p cl) (b4.stashSlots p)
  | _, _, _ => b1

/-- Every block of the tensor table written as zeros with its entry's aglet. -/
def Blk.zeroTensors (b : Blk) (p : Nat) (l : Last) : Blk :=
  l.tensors.zipIdx.foldl (fun c (t : Tensor × Nat) =>
    match c.tensorAt p t.2 with
    | none => c
    | some at_ =>
      let blk := Block.make (zeros 4096) { pcrc := 0, tag := t.1.tag, version := t.1.version, format := t.1.format, flags := 0, epoch := t.1.epoch, kind := t.1.kind, samples := 0 }
        false true false false
      (List.range at_.2).foldl (fun c i => c.hbmPut (at_.1 + i) blk) c) b

/-- The eyelets of the cut get their weights and timeouts, and each peer is compared with the cut (R315, R331, R368). -/
def Blk.layCut (b : Blk) (l : Last) : Blk :=
  l.cut.foldl (fun c x => ((c.wrDefined ⟨.EYE_VC_WEIGHT, x.eye, 0⟩ x.weights).wn ⟨.EYE_TMO_CFG, x.eye, 0⟩ (cfgWord .EYE_TMO_CFG x.tmo)).checkPeer x.eye) b

/-- The seat aperture of a last, and group 60 bound to the partition that declares it (R25, R493); none declared binds it to the physical function. -/
def Blk.seatSet (b : Blk) (p : Nat) (s : Option (Nat × Nat × Nat)) : Blk :=
  if !b.pkg.sku.seat then b
  else
    let r : RegRef := ⟨.EVG_GRP_CFG, iod0 * 16, 60⟩
    let mine := decide (b.rf r Fld.EVG_GRP_CFG_TARGET = p + 2)
    match s with
    | some (first, n, tag) =>
      if n = 0 then b
      else ({ b with pkg := { b.pkg with seatBase := 4096 * first, seatSize := 4096 * n, seatTag := tag } } : Blk).wf r Fld.EVG_GRP_CFG_TARGET (p + 2)
    | none => if mine then ({ b with pkg := { b.pkg with seatBase := 0, seatSize := 0, seatTag := 0 } } : Blk).wf r Fld.EVG_GRP_CFG_TARGET 1 else b

/-- Measurement register 6 on every die, extended with the digest of a last's header and directory (R518, R519). -/
def Blk.measLast (b : Blk) (l : Last) : Blk := b.measAll 6 (leBytes 32 l.mark.toNat)

/-- What the cobbler writes into every lacing engine at LOAD_LAST, at a re-click and at a restore (R375): LAC_CFG, LAC_RNG_KEY and LAC_RNG_STEP. -/
def Blk.lacLoad (b : Blk) (l : Last) (s : Nat) : Blk :=
  b.iodsUp.foldl (fun c d => ((c.wn ⟨.LAC_CFG, d, 0⟩ (cfgWord .LAC_CFG l.cfgLac)).wn ⟨.LAC_RNG_KEY, d, 0⟩ l.jobKey).wn ⟨.LAC_RNG_STEP, d, 0⟩ s) b

/-- An accepted last installed at the commit of its LOAD_LAST (R253, R410). -/
def Blk.install (b : Blk) (p : Nat) (l : Last) (v : Nat) : Blk :=
  let b1 := b.onPart p (fun x => { x with
    last := some l, loaded := true, s := 0, variant := v, step := .idle, health := [], healthAsk := [], alarms := [], digests := [], found := [], layout := l.layoutCrc, newTabs := []
    versions := (maskList x.clusters 36).foldl (fun m cl => l.tensors.foldl (fun m t => Sp.set 0 m (65536 * cl + t.tag) t.version) m) []
    unrest := false, securing := none, secNext := [], policy := none, loading := none, ranRun := false, runS := 0, runAt := none, restores := 0, stepMs := [], reports := [], repS := 0, nextS := 0
    partnerS := none, twins := [], recast := [], reshard := none, finLeft := [], replayTo := 0
    guar := if bitOf b.sec.scopes 0 then 6 else 7 })
  let b2 := (b1.takeVariant p v).zeroTensors p l
  let b3 := (b2.clustersOf p).foldl (fun c cl =>
    let c1 := (c.loadConfig l cl).wn ⟨.SEQ_RNG_KEY, cl, 0⟩ l.jobKey
    let exp := c1.rf ⟨.FIN_LSCALE_CFG, cl, 0⟩ Fld.FIN_LSCALE_CFG_INIT_EXP
    (c1.wn ⟨.FIN_LSCALE, cl, 0⟩ exp).wn ⟨.FIN_UPDATE_CNT, cl, 0⟩ 0) b2
  let b4 := (b3.iodsUp.foldl (fun c d => c.wn ⟨.LAC_EPOCH, d, 0⟩ (((l.tensors.map (fun t => t.epoch)).head?).getD 0)) b3).lacLoad l 0
  let b4 : Blk := { b4 with lac := { b4.lac with fencedOnce := false } }
  let b5 := ((List.range 10).filter b4.up).foldl (fun c d => c.wn ⟨.AWL_CFG, d, 0⟩ (cfgWord .AWL_CFG l.cfgAwl)) b4
  ((((b5.layCut l).lacShow).seatSet p (some l.seat)) : Blk).measLast l

/-! ### A die that returns (R40, R41) -/

/-- A partition that holds a cluster of a die. -/
def Part.onDie (x : Part) (d : Nat) : Bool := (List.range 9).any (fun k => bitOf x.clusters (9 * d + k))

/-- Every partition but `p` that holds a cluster of the die and has a RUN_STEPS running stands at a step boundary. -/
def Blk.boundaryFor (b : Blk) (d p : Nat) : Bool :=
  b.parts.all (fun x => decide (x.1 = p) || !x.2.onDie d || !b.running x.1 || decide (x.2.step.state = 0))

/-- The fence of a position released on every die; the package shows it present again. -/
def Blk.unfence (b : Blk) (d : Nat) : Blk :=
  let b1 := (List.range 10).foldl (fun c o => c.wn ⟨.WLT_FENCE, o, 0⟩ (setBit (c.rn ⟨.WLT_FENCE, o, 0⟩) d false)) b
  let r : RegRef := ⟨.IDENT_PRESENT, 0, 0⟩
  let b2 := (b1.wf r Fld.IDENT_PRESENT_PRESENT (setBit (b1.rf r Fld.IDENT_PRESENT_PRESENT) d true)).wf r Fld.IDENT_PRESENT_FENCED
    (setBit (b1.rf r Fld.IDENT_PRESENT_FENCED) d false)
  b2.wf r Fld.IDENT_PRESENT_DEGRADED (b2n ((List.range 10).any (fun x => b2.pkg.sku.populated x && !b2.up x)))

/-- The clusters of an admitted die made ready for the partition that holds them: roles, queues, CONFIG, and the counts that another live cluster
of the partition holds alike (log entry 174); the scale is not written (R130). -/
def Blk.clusterBack (b : Blk) (p cl : Nat) : Blk :=
  let sound := (List.range 5).filter (fun i => b.role (clUnit cl i) != roFailed)
  let b1 := sound.zipIdx.foldl (fun (c : Blk) (y : Nat × Nat) => c.setRole (clUnit cl y.1) (if y.2 < 4 then roActive else roSpare)) b
  let b2 := ((List.range 16).filter (fun i => decide (5 ≤ i))).foldl (fun c i =>
    if c.role (clUnit cl i) = roFailed then c else c.setRole (clUnit cl i) roActive) b1
  match b2.lastOf p with
  | none => b2
  | some l =>
    let from_ := ((b2.liveClusters p).find? (fun k => decide (clDie k ≠ clDie cl))).getD cl
    let same (c : Blk) (n : RegName) : Blk := c.wn ⟨n, cl, 0⟩ (c.rn ⟨n, from_, 0⟩)
    let b3 := ((b2.loadConfig l cl).wn ⟨.SEQ_RNG_KEY, cl, 0⟩ l.jobKey).loadSched p cl
    let b4 := [RegName.FIN_UPDATE_CNT, RegName.SEQ_RNG_STEP].foldl same b3
    let va := b4.variantOf p
    let put (c : Blk) (a : Nat) (xs : List Byte) : Blk := c.insStore cl a xs
    let b5 := ((va.map (fun v => (v.sched.filter (fun (s : Sched) => s.cl == cl)).foldl (fun c (s : Sched) =>
      s.progs.foldl (fun c (q : QProg) => put c q.base q.bytes) c) b4))).getD b4
    let b6 := ((va.map (fun v => (v.segments.filter (fun g => g.1 == cl)).foldl (fun c g => put c g.2.1 g.2.2) b5))).getD b5
    (b6.stashSlots p).endQueues cl

/-- DIE_ADMISSION's work (R41): routes and modules restored, the fence released as the last step, DIE_ADMITTED recorded. -/
def Blk.admitDie (b : Blk) (d : Nat) : Blk :=
  let b1 := (List.range 10).foldl (fun c o => (modulesOf c.pkg.sku o).foldl (fun c m =>
    if (decide (m.2 = d) && c.up o) || (decide (o = d) && c.up m.2) then c.modRetrain o m.1 else c) c) b
  let b2 := b1.unfence d
  let b3 := b2.installRoutes b2.up
  let b4 : Blk := { b3 with pkg := { b3.pkg with lost := setBit b3.pkg.lost d false, rejoined := setBit b3.pkg.rejoined d false, late := setBit b3.pkg.late d false, fellBack := setBit b3.pkg.fellBack d false, missed := b3.pkg.missed.filter (fun m => decide (m.1 < 1024) || (decide (m.1 / 16 % 16 ≠ d) && decide (m.1 % 16 ≠ d))) } }
  let b5 := b4.parts.foldl (fun (c : Blk) (x : Nat × Part) =>
    ((List.range 9).filter (fun k => bitOf x.2.clusters (9 * d + k))).foldl (fun c k => c.clusterBack x.1 (9 * d + k))
      (c.onPart x.1 (fun y => { y with lossWait := setBit y.lossWait d false }))) b4
  b5.record { code := 0x0023, die := b5.master, data := [BitVec.ofNat 8 d] }

/-- Dies that rejoined after a fallback are admitted as a LOAD_LAST or RESHARD of a partition that holds one of their clusters begins its clicking (R41). -/
def Blk.admitLate (b : Blk) (p : Nat) : Blk :=
  ((List.range 4).filter (fun d => bitOf b.pkg.lost d && bitOf b.pkg.rejoined d && (b.part p).any (fun x => x.onDie d) && b.boundaryFor d p)).foldl (fun c d => c.admitDie d) b

/-- LOAD_LAST's work (R249, R252): the image is read along its scatter list and clicked. The operation ends with the refusal, or with a last that its commit installs. -/
def Blk.loadGo (b : Blk) (r : Req) (op : LongOp) (sections : Last) : Blk :=
  let p := r.u 0 1
  let b := b.admitLate p
  match b.scatter (r.u 8 8) (r.u 4 4) with
  | none => b.endOp op.handle .badHostAddress 0 []
  | some es =>
    let xs := b.scatterRead es
    let img := xs.take (if xs.length < 40 then xs.length else imgU xs 32 8)
    let l := sections.ofImage img
    match b.click p l img with
    | .error e => b.endOp op.handle e.status 0 (b.refusalResult p e)
    | .ok v => (b.onPart p (fun y => { y with loading := some (l, v) })).endOp op.handle .ok 0 []

/-! ### Re-clicking and unloading (R254, R473) -/

/-- Every member that the cut leads to, itself or by its relay, has an eyelet on an I/O die whose lacing engine is not FAILED (R388). -/
def Blk.flowsOff (b : Blk) (l : Last) : Bool :=
  let ok (r : Nat) : Bool := l.cut.any (fun c => c.peer == r && decide (b.role (unitId (eyeDie c.eye) 0) ≠ roFailed))
  (l.cut.map (fun c => c.peer) ++ l.relays.map (fun x => x.1)).all (fun r => ok r || l.relays.any (fun x => x.1 == r && ok x.2))

/-- The lost compute dies on which a partition has clusters. -/
def Blk.goneDies (b : Blk) (p : Nat) : List Nat := (List.range 4).filter (fun d => bitOf b.pkg.lost d && (b.part p).any (fun x => x.onDie d))

/-- The variant that a re-click of a loaded last takes, by checks 2, 3 and 5 against the capacity that remains; none where it is refused (R254). After the loss of a
compute die it takes a three-die variant of a four-die package only (R40). -/
def Blk.refit (b : Blk) (p : Nat) : Option Nat :=
  match b.lastOf p with
  | none => none
  | some l =>
    let may (v : Variant) : Bool := decide (b.goneDies p = []) || (decide (b.pkg.sku.cds = 4) && decide (((List.range 4).filter (fun d => bitOf v.dies d)).length = 3))
    if !b.clickFeature l || !b.clickPartition p l || !b.flowsOff l then none
    else match b.clickFit p l may with
      | .error _ => none
      | .ok v => some v

/-- RECLICK (R254): the variant that fits taken up where it is another, the weights and timeouts of the cut set again (R315). A refusal makes the package leave the job
at its next attempt, whatever else would have ended it there (R239, R584). -/
def Blk.reclick (b : Blk) (p : Nat) : Blk :=
  match b.lastOf p with
  | none => b
  | some l =>
    let b1 := b.onStep p (fun st => { st with reclick := false })
    match b1.refit p with
    | none => b1.onStep p (fun st => { st with abortNext := 7 })
    | some v =>
        let b1 : Blk := { b1 with pkg := { b1.pkg with fellBack := (b1.goneDies p).foldl (fun m d => setBit m d true) b1.pkg.fellBack } }
        let b2 := if decide (v = ((b1.part p).map (fun x => x.variant)).getD 0) then b1 else ((b1.takeVariant p v).liveClusters p).foldl (fun c cl => c.endQueues cl) (b1.takeVariant p v)
        { ((b2.layCut l).lacLoad l (b2.sOf p)).measLast l with stash := { b2.stash with
            swtch := (b2.clustersOf p).foldl (fun m cl => setBit m cl false) b2.stash.swtch
            fell := (b2.clustersOf p).foldl (fun m cl => setBit m cl false) b2.stash.fell } }

/-- The last of a partition gone: nothing is loaded, its contexts are discarded, and the reset weights apply to its eyelets (R315). Memory is kept. -/
def Blk.unload (b : Blk) (p : Nat) : Blk :=
  let b0 := ((((b.part p).bind (·.last)).map (fun l => l.cut)).getD []).foldl (fun c x => c.wr ⟨.EYE_VC_WEIGHT, x.eye, 0⟩ (RegRef.reset ⟨.EYE_VC_WEIGHT, x.eye, 0⟩)) (b.discardAll p)
  let b1 := b0.onPart p (fun x => { x with
    last := none, loaded := false, loading := none, step := .idle, flows := [], colls := [], regions := [], grants := [], versions := [], found := [], health := []
    healthAsk := [], digests := [], securing := none, secNext := [], runAt := none, policy := none, unrest := false, guar := 0, newTabs := [], s := 0 })
  let b1 := (b1.lacShow).seatSet p none
  { b1 with stash := { b1.stash with
      ents := (b1.clustersOf p).foldl (fun m cl => Sp.clear m (4096 * cl) 4096) b1.stash.ents
      insUse := (b1.clustersOf p).foldl (fun m cl => Sp.clear m (16 * cl) 16) b1.stash.insUse
      hbmUse := (b1.clustersOf p).foldl (fun m cl => Sp.clear m (16 * cl) 16) b1.stash.hbmUse } }

/-- UNLOAD_LAST's work (R551): the last goes, and the partition's clusters are reset. -/
def Blk.unloadGo (b : Blk) (p : Nat) (op : LongOp) : Blk :=
  (((b.clustersOf p).filter (fun cl => b.up (clDie cl))).foldl (fun c cl => c.clusterReset cl) (b.unload p)).endOp op.handle .ok 0 []

end Sys2Proof.Machine
end

