-- ==== Sys2Proof/Machine/Closing.lean ====
section
/-!
DEFINITION. Attempts and closings (R265, R266, R272 to R289, R293, R371, R372, R584).
-/
namespace Sys2Proof.Machine

/-- The codes of SEQ_STATE OUTCOME (R297). -/
def Outcome.code : Outcome → Nat
  | .none => 0 | .apply => 1 | .applyDrop => 2 | .skip => 3 | .replay => 4 | .dropAttempt => 5 | .halt => 6 | .empty => 7

/-! ### The input feed (R265, R397, R484) -/

def feedCond (b : Blk) (p : Nat) (lvl : Bool) : Blk :=
  let others := (List.range 8).any (fun q => decide (q ≠ p) && decide (Sp.get 0 b.evg.level (iod0 * 2048 + fnSource (q + 1) 1) ≠ 0))
  let b1 := b.evCond iod0 (fnSource 0 1) (lvl || others)
  if p < 8 then b1.evCond iod0 (fnSource (p + 1) 1) lvl else b1

/-- The unfinished RUN_STEPS or REPLAY_STEP of a partition. -/
def Blk.feedOp (b : Blk) (p : Nat) : Option LongOp := b.opOn p (fun k => k == .runSteps || k == .replayStep)

/-- The words of a batch record as (micro-batch, samples). -/
def batchOf (xs : List Byte) (n : Nat) : List (Nat × Nat) :=
  (List.range n).map (fun i => (leNat ((xs.drop (4 * i)).take 2), leNat ((xs.drop (4 * i + 2)).take 2)))

/-- The token blocks of a step written to the input region, one half of it for even and one for odd steps (log entry 40). -/
def Blk.putTokens (b : Blk) (l : Last) (s n : Nat) (xs : List Byte) (batch : List (Nat × Nat)) : Blk :=
  let per := l.input.2.2.1
  let base := b.regionBase (l.input.1 == 1) + l.input.2.1 + (s % 2) * per * l.mbs
  (List.range (min n (per * l.mbs))).foldl (fun c i =>
    let pay := (xs.drop (4096 * i)).take 4096
    let smp := ((batch[i / per]?).map (fun x => x.2)).getD 0
    let fl := payloadFlags 0 pay
    c.hbmPut (base + i) (Block.make pay { pcrc := 0, tag := l.input.2.2.2.1, version := 0, format := 0, flags := 0, epoch := l.input.2.2.2.2, kind := 0xD, samples := smp }
      false fl.1 fl.2 false)) b

/-- A feed whose host memory does not answer: the operation ends with BAD_HOST_ADDRESS and the package leaves the job (log entry 61). -/
def Blk.feedBad (b : Blk) (p : Nat) (o : LongOp) : Blk :=
  (b.setOp { o with status := Status.badHostAddress.code }).onStep p (fun st => { st with abortNext := if st.abortNext = 0 then 7 else st.abortNext })

/-- The entry at a place of the ring taken: tokens and batch record. -/
def Blk.feedTake (b : Blk) (p : Nat) (o : LongOp) (l : Last) (k s : Nat) (again : Bool) : Blk :=
  match b.hostRead (o.ring + 32 * (k % o.entries)) 32 with
  | none => b.feedBad p o
  | some e =>
    if leNat (e.take 4) ≠ s % 2 ^ 32 then
      if (b.stepOf p).holdFeed then b
      else ((b.onStep p (fun st => { st with holdFeed := true })).record { code := 0x0050, die := b.master, part := p, data := leBytes 4 s ++ e.take 4 })
    else
      let n := leNat ((e.drop 16).take 4)
      match b.hostRead (leNat ((e.drop 8).take 8)) (4096 * n), b.hostRead (leNat ((e.drop 24).take 8)) (4 * l.mbs) with
      | some toks, some rec_ =>
        let batch := batchOf rec_ l.mbs
        let b1 := b.putTokens l s n toks batch
        if again then b1
        else b1.onStep p (fun st => if st.fed = st.cons then { st with fed := st.fed + 1, batch := batch, holdFeed := false }
          else { st with fed := st.fed + 1, nextBatch := some batch, holdFeed := false })
      | _, _ => b.feedBad p o

/-- FEED_FETCH: the next entry of the ring taken, or waited for over `waited` shank counts; `again` reads the entry of the step in hand once more. -/
def Blk.feedFetch (b : Blk) (p : Nat) (again : Bool) (waited : Nat) : Blk :=
  match b.feedOp p, b.lastOf p with
  | some o, some l =>
    let st := b.stepOf p
    let prod := b.rn ⟨.DBL_FEED_PROD, 0, p⟩ % 65536
    let there := b.pins.linkUp && decide ((prod + 65536 - st.fed % 65536) % 65536 ≠ 0)
    if o.entries = 0 ∨ (o.st ≠ .running ∧ o.st ≠ .suspended) then b
    else if again then
      if st.fed = st.cons then b
      else (((b.feedTake p o l st.cons (b.sOf p) true).record { code := 0x0143, die := b.master, part := p, data := leBytes 4 (b.sOf p) }).ringAll 18)
    else if st.cons + 2 ≤ st.fed then b
    else
      let want := b.sOf p + (st.fed - st.cons)
      let b1 := if there then b.feedTake p o l st.fed want false else b
      let got := decide ((b1.stepOf p).fed ≠ st.fed)
      let wait := !got && decide (st.fed = st.cons)
      let b2 := feedCond b1 p wait
      if wait then (b2.liveClusters p).foldl (fun c cl => c.bump ⟨.SEQ_FEED_WAIT, cl, 0⟩ waited) b2 else b2
  | _, _ => b

/-! ### Starting an attempt (R266, R281, R339, R584) -/

/-- The registers of the first live cluster hold what every cluster of the job holds. -/
def Blk.stepCfg (b : Blk) (p : Nat) (f : Fld) : Nat := b.rf ⟨.SEQ_STEP_CFG, (b.liveClusters p).headD 0, 0⟩ f

/-- Die losses of a partition whose rejoin deadline is open (R41). -/
def Blk.waitsDie (b : Blk) (p : Nat) : Bool := ((b.part p).map (fun x => x.lossWait)).getD 0 != 0

/-- A map-out waits for its re-lay (R239, R486). -/
def Blk.waitsRelay (b : Blk) : Bool := decide (b.rf capReg Fld.HBM_CAP_PENDING = 1) || b.hbm.relaying != []

/-- RESHARD has fenced and not advanced. -/
def Blk.resharding (b : Blk) (p : Nat) : Bool := (b.opOn p (fun k => k == .reshard)).any (fun o => o.st == .running)

/-- The recorded step that a REPLAY_STEP runs over again (R296). -/
def Blk.recorded (b : Blk) (p : Nat) : Option Digest :=
  match b.opOn p (fun k => k == .replayStep), b.part p with
  | some _, some x => x.digests.find? (fun d => decide (d.s = x.s) && decide (d.outcome ≠ .none))
  | _, _ => none

/-- The package stands where its next attempt may start: a new step, or after REPLAY or DROP_ATTEMPT. -/
def Step.between (st : Step) : Bool :=
  decide (st.state = 0) || (decide (st.state = 2) && (st.outcome == .replay || st.outcome == .dropAttempt))

/-- Every POST entry of the step before has issued. -/
def Blk.postIssued (b : Blk) (p : Nat) : Bool :=
  (b.liveClusters p).all (fun cl => (List.range 16).all (fun q => b.headEntry cl q == none))

/-- The attempt that would start next, as (bits [15:0] of the step, attempt). -/
def Blk.nextAttempt (b : Blk) (p : Nat) : Nat × Nat := (b.sOf p % 65536, if (b.stepOf p).state = 0 then 0 else (b.stepOf p).attempt + 1)

/-- The attempt may start. A package that halts at it (R584) waits for nothing, one whose peers have aborted it (R287) only for its batch record; a BOUNDARY suspension
waits for the boundary (R290). -/
def Blk.mayStart (b : Blk) (p : Nat) : Bool :=
  let st := b.stepOf p
  let fresh := decide (st.state = 0)
  (b.part p).any (fun x => x.loaded) && (b.runOf p).any (fun o => o.st == .running && !o.ended) && st.between && (decide (st.susp = 0) || (decide (st.susp = 1) && !fresh)) && !b.coolant &&
  (decide (st.abortNext ≠ 0) || (decide (st.cons < st.fed) && st.aborts.contains (b.nextAttempt p)) ||
    (decide (st.cons < st.fed) && b.unitsReady p && !(fresh && b.waitsDie p) && !b.waitsRelay && !b.resharding p &&
     (!fresh || (b.postIssued p || !(st.update || st.noUpdate)) && !(st.reclick && b.phasesLeft p (fun ph => decide (ph = 5))))))

/-- Steps 1 to 4 of R266 on a cluster. -/
def Blk.clusterStart (b : Blk) (p cl : Nat) : Blk :=
  let b1 := b.wn ⟨.SEQ_RNG_STEP, cl, 0⟩ (b.sOf p)
  let b2 := (List.range 16).foldl (fun c q => c.wf (qReg cl q) Fld.SEQ_Q_POS 0) b1
  let b3 := match (b.variantOf p).bind (fun v => v.sched.find? (fun (s : Sched) => s.cl == cl)) with
    | some s => s.ctrs.foldl (fun (c : Blk) (x : Nat × Nat × Nat) => c.wn (ctrReg cl x.1) (x.2.1 % 65536 + 65536 * (x.2.2 % 65536))) b2
    | none => b2
  let st : Stash := { b3.stash with
    ents := Sp.clear b3.stash.ents (4096 * cl) 4096, insUse := Sp.clear b3.stash.insUse (16 * cl) 16, hbmUse := Sp.clear b3.stash.hbmUse (16 * cl) 16
    swtch := setBit b3.stash.swtch cl false }
  let b4 : Blk := { b3 with cores := { b3.cores with accCnt := Sp.clear b3.cores.accCnt (5 * cl) 5 }, stash := st }
  (b4.wn ⟨.FIN_UF_FLUSHED, cl, 0⟩ 0).wn ⟨.FIN_UF_WRITTEN, cl, 0⟩ 0

/-- Poisoned flow contexts of a partition are rebuilt from the collective descriptors (R401): the blocks of the table that hold them are written anew. -/
def Blk.ctxRebuild (b : Blk) (p : Nat) : Blk :=
  match b.part p with
  | none => b
  | some x =>
    let bad (c : Blk) (w : Flow) : Bool := (c.ctxPlace w.ctx).any (fun k => (Aglet.parse (c.hbmBlock k.1 k.2).agl).poison)
    let ws := x.flows.filter (bad b)
    if ws = [] then b
    else
      let new := x.last.elim [] (fun (l : Last) => b.makeFlows p l ((x.flows.head?.map (fun w => w.ctx)).getD 0))
      let b1 := b.onPart p (fun y => { y with flows := y.flows.map (fun (w : Flow) => if ws.any (fun v => v.ctx == w.ctx) then (new.find? (fun v => v.ctx == w.ctx)).getD w else w) })
      let c1 := ((ws.map (fun w => w.ctx / 32)).eraseDups).foldl (fun c k => match c.ctxPlace (32 * k) with
        | some (pc, loc) => if c.pcFenced pc then c else { c with hbm := c.hbm.put pc loc (Block.make (zeros 4096) (Aglet.parse aglet0) false true false false) }
        | none => c) b1
      (((c1.parts.flatMap (fun y => y.2.flows)).filter (fun w => ws.any (fun v => v.ctx / 32 == w.ctx / 32))).foldl (fun c w => c.ctxBack w.ctx) c1)

/-- The flow contexts and collectives of a partition at an attempt's start (R339); LAC_STEP and LAC_RNG_STEP of every I/O die (R333). -/
def Blk.lacStart (b : Blk) (p attempt : Nat) : Blk :=
  let s := b.sOf p
  let b1 := (b.ctxRebuild p).onPart p (fun x => { x with
    ctxOf := (s % 65536, attempt), puts := x.puts.filter (fun y => decide (y.cseq = 0xFFFF))
    flows := x.flows.map (fun (w : Flow) =>
      if w.relay then w else { w with state := 0, done := 0, acked := 0, samples := 0, sampled := false, held := [], step := s % 65536, attempt := attempt })
    colls := x.colls.map (fun (c : Coll) => Coll.fresh c.cseq) })
  b1.iodsUp.foldl (fun c d => ((c.wf ⟨.LAC_STEP, d, 0⟩ Fld.LAC_STEP_STEP_LO s).wf ⟨.LAC_STEP, d, 0⟩ Fld.LAC_STEP_ATTEMPT attempt).wn ⟨.LAC_RNG_STEP, d, 0⟩ s) b1.lacShow

/-- The step's record as an attempt starts. -/
def Step.begin (st : Step) (attempt : Nat) (drop : List (Nat × Nat)) : Step :=
  { st with
    state := 1, attempt := attempt, outcome := if attempt = 0 then .none else st.outcome, reason := 0, inSet := decide (attempt ≠ 0) && st.inSet, flags := 0, haltWhy := 0
    faults := [], drop := drop, dropNow := [], notices := [], sharedMb := [], lostShare := false, round := 0, sent := false, kidNames := [], ownNames := []
    names := [], rootOut := false, aborted := false, digested := false, scan := [], allIn := false, n := 0 }

/-- The sequencer faults that discarded descriptors of a partition have left (R258). -/
def Blk.owedBy (b : Blk) (p : Nat) : List (Nat × Nat × Bool) := b.units.owed.filter (fun x => b.partOf x.1 == some p)

/-- They are treated as any detected fault of the sequencer, which no attempt starts without. -/
def Blk.settle (b : Blk) (p : Nat) : Blk :=
  (b.owedBy p).foldl (fun c x => c.underflow x.1 x.2.1 x.2.2) { b with units := { b.units with owed := b.units.owed.filter (fun x => b.partOf x.1 != some p) } }

/-- Micro-batches added to a drop set, and how many were new. -/
def dropAdd (drop more : List (Nat × Nat)) : List (Nat × Nat) :=
  more.foldl (fun acc x => if acc.any (fun y => y.1 == x.1) then acc else acc ++ [x]) drop

def Blk.dropUnion (b : Blk) (p : Nat) (more : List (Nat × Nat)) : Blk :=
  let old := (b.stepOf p).drop
  let new := dropAdd old more
  let b1 := b.onStep p (fun st => { st with drop := new })
  (b1.liveClusters p).foldl (fun c cl => c.bump ⟨.SEQ_DROP_MB_CNT, cl, 0⟩ (new.length - old.length)) b1

/-- ATTEMPT_START. -/
def Blk.attemptStart (b : Blk) (p : Nat) : Blk :=
  if b.owedBy p ≠ [] then b.settle p
  else if !b.mayStart p then b
  else
    let b0 := if (b.stepOf p).reclick then b.reclick p else b
    let st := b0.stepOf p
    let attempt := if st.state = 0 then 0 else st.attempt + 1
    let drop := match b0.recorded p with
      | some d => (d.names.filter (fun r => r.kind == 1)).map (fun r => (r.mb, r.samples))
      | none => if st.state = 0 then [] else st.drop
    let b1 := if attempt = 0 then b0.onStep p (fun s => { s with pathBlk := [] }) else b0
    let b2 := ((b1.liveClusters p).foldl (fun c cl => (if st.state = 2 ∧ st.outcome = .replay then c.bump ⟨.SEQ_REPLAY_CNT, cl, 0⟩ else c).clusterStart p cl) b1).lacStart p attempt
    let gone := st.aborts.contains (b0.nextAttempt p)
    let b3 := b2.onStep p (fun s => { s.begin attempt drop with
      aborted := gone, allIn := gone, aborts := s.aborts.filter (fun x => x != b0.nextAttempt p), dropNotes := s.dropNotes.filter (fun x => x.1 != b0.nextAttempt p) })
    let b3 := (st.dropNotes.filter (fun x => x.1 == b0.nextAttempt p)).foldl (fun c x => (c.dropUnion p x.2).flag p fDrop) b3
    if st.abortNext ≠ 0 then
      (((feedCond b3 p false).onStep p (fun s => { s with flags := fHalt, haltWhy := s.abortNext })).abortAttempt p)
    else (b3.crossCheck p).barrierAll

/-! ### Sending the closing word (R272, R273) -/

/-- Every entry of phases FWD to CLOSE has retired, every sample is compared, every drop notice acknowledged. -/
def Blk.wordReady (b : Blk) (p : Nat) : Bool :=
  let st := b.stepOf p
  st.aborted ||
  (!b.phasesLeft p (fun ph => decide (ph ≤ 3)) && decide (st.notices = []) &&
   !((b.clustersOf p).any (fun cl => (slotGet b.cores.samples cl).any (fun w => w.closed))))

/-! ### The end of a run -/

/-- The result of RUN_STEPS (R480). -/
def Blk.runResult (b : Blk) (p : Nat) : List (Nat × Nat × Nat) :=
  let st := b.stepOf p
  [(16, 4, st.ended), (20, 4, b.sOf p), (24, 1, st.lastOut.code)]

/-- The result of REPLAY_STEP at the end or a mismatch. -/
def replayResult (s tag blk : Nat) : List (Nat × Nat × Nat) := [(16, 4, s), (20, 2, tag), (24, 4, blk)]

/-- The run of a partition ends: CANCELLED where a CANCEL was accepted for it, else with a status. A CANCELLED operation reports at once (R482). -/
def Blk.endRun (b : Blk) (p : Nat) (st : Status) (detail : Nat) : Blk :=
  match b.runOf p with
  | none => b
  | some o =>
    let b := b.runClock p false
    let res := if o.kind = .replayStep then replayResult 0xFFFFFFFF 0 0 else b.runResult p
    if o.status = Status.cancelled.code then b.finish { o with st := .cancelled, ended := true, detail := 0, result := res }
    else b.endOp o.handle (if o.status = Status.badHostAddress.code then .badHostAddress else st) detail res

/-- The eyelets of a partition whose pause this end set, unpaused. -/
def Blk.unpausePart (b : Blk) (p : Nat) : Blk :=
  match b.part p with
  | none => b
  | some x => ((maskList x.eyelets 48).filter (fun e => decide (b.pauseMask e ≠ 0))).foldl (fun c e => c.unpauseSend e) b

/-- HALT (R288): the job ends here with no update. A run that stood suspended in the attempt ends with it. A securing under way ends, but goes on to its commit where a run was
cancelled (R419). -/
def Blk.haltJob (b : Blk) (p why : Nat) : Blk :=
  let b1 := ((if why = 8 then b else b.secureStop p).discardAll p).onStep p (fun st => { st with
    state := 5, outcome := .halt, reason := why, lastOut := .halt, lastWhy := why, round := 0, abortNext := 0, susp := 0 })
  let b2 := if (b.stepOf p).susp = 0 then b1 else b1.unpausePart p
  let b3 := match b2.runOf p with
    | some o => if o.st = OpState.suspended then b2.setOp { o with st := OpState.running } else b2
    | none => b2
  (b3.evPart p 7).endRun p .halted why

/-! ### The outcome (R276 to R281) -/

/-- The closure of some members under the linked pairs. -/
def closure (linked : List (Nat × Nat)) : Nat → List Nat → List Nat
  | 0, xs => xs
  | n + 1, xs =>
    let more := (linked.filterMap (fun p => if xs.contains p.1 && !xs.contains p.2 then some p.2
      else if xs.contains p.2 && !xs.contains p.1 then some p.1 else none)).eraseDups
    if more = [] then xs else closure linked n (xs ++ more)

/-- An outcome and, for HALT, its reason; the update's N. -/
structure Verdict where
  out : Outcome
  why : Nat
  n   : Nat
deriving DecidableEq, Repr

/-- The table of R276 with R277 and R278. `w1` is the result of round 1, `w3` that of round 3 if it ran. -/
def decideOutcome (w1 : Nat) (w3 : Option Nat) (names : List NameRec) (budget maxA a replica : Nat) : Verdict :=
  let halt (r : Nat) : Verdict := ⟨.halt, r, 0⟩
  let again (o : Outcome) : Verdict := if maxA ≤ a + 1 then halt 5 else ⟨o, 0, 0⟩
  let fault := cwHas w1 fFault
  let stale := cwHas w1 fStale
  let update (o : Outcome) : Verdict :=
    let n := cwCount (w3.getD w1)
    if n = 0 then ⟨.empty, 0, 0⟩ else if n % replica = 0 then ⟨o, 0, n / replica⟩ else halt 6
  if cwHas w1 fMismatch ∨ w3.any (fun w => cwHas w fMismatch) = true then halt 6
  else if cwHas w1 fHalt then halt (cwReason w1)
  else if (fault ∨ stale) ∧ a < budget then again .replay
  else if fault ∧ ¬ stale ∧ names.any (fun r => r.kind == 2) = true ∧ names.any (fun r => r.kind == 3) = false then again .dropAttempt
  else if fault then halt 3
  else if stale then halt 4
  else if w3.any (fun w => cwHas w fDirty) = true then again .dropAttempt
  else if cwHas w1 fNonfinite then ⟨.skip, 0, 0⟩
  else if cwHas w1 fDrop then update .applyDrop
  else update .apply

/-- The loss scale of one cluster at an ending closing (R114, R115), and whether the floor run has just reached its limit. -/
def Blk.lossScale (b : Blk) (cl : Nat) (o : Outcome) : Blk × Bool :=
  let r : RegRef := ⟨.FIN_LSCALE, cl, 0⟩
  let cfg : RegRef := ⟨.FIN_LSCALE_CFG, cl, 0⟩
  let n := Fld.FIN_LSCALE_EXP.getInt (b.rd r)
  let floor := b.rf r Fld.FIN_LSCALE_FLOOR_RUN
  let clean := b.rf r Fld.FIN_LSCALE_CLEAN
  let put (n : Int) (f c : Nat) : Blk := ((b.wf r Fld.FIN_LSCALE_EXP (n % 256).toNat).wf r Fld.FIN_LSCALE_FLOOR_RUN f).wf r Fld.FIN_LSCALE_CLEAN c
  match o with
  | .skip =>
    let f1 := if n = -24 then min 255 (floor + 1) else floor
    let lim := b.rf cfg Fld.FIN_LSCALE_CFG_FLOOR_SKIPS
    (put (max (-24) (n - 1)) f1 0, decide (floor < lim) && decide (lim ≤ f1))
  | .apply | .applyDrop =>
    if b.rf cfg Fld.FIN_LSCALE_CFG_GROW_STEPS ≤ clean + 1 then (put (min 24 (n + 1)) 0 0, false) else (put n 0 (clean + 1), false)
  | _ => (b, false)

/-- The clusters of a lost die of the partition hold the scale of its other clusters (R130; log entry 174). -/
def Blk.scaleLost (b : Blk) (p : Nat) : Blk :=
  match b.liveClusters p with
  | [] => b
  | c0 :: _ => ((b.clustersOf p).filter (fun cl => !b.up (clDie cl))).foldl (fun c cl => c.wn ⟨.FIN_LSCALE, cl, 0⟩ (b.rn ⟨.FIN_LSCALE, c0, 0⟩)) b

/-- A NUMERIC_ alarm of a partition raised with what it carries. -/
def Blk.alarm (b : Blk) (p : Nat) (x : NumAlarm) : Blk := (b.onPart p (fun y => { y with alarms := y.alarms ++ [x] })).evPart p 2

/-- The underflow watch (R125) over the package's clusters (log entry 41). -/
def Blk.underflowWatch (b : Blk) (p : Nat) : Blk :=
  let cls := b.liveClusters p
  let sum (n : RegName) : Nat := cls.foldl (fun a cl => a + b.rn ⟨n, cl, 0⟩) 0
  let cfg : RegRef := ⟨.FIN_UF_CFG, cls.headD 0, 0⟩
  if b.rf cfg Fld.FIN_UF_CFG_ENABLE = 1 ∧ sum .FIN_UF_WRITTEN < sum .FIN_UF_FLUSHED * 2 ^ b.rf cfg Fld.FIN_UF_CFG_THRESH_LOG2 then b.alarm p (.underflow (b.sOf p) (sum .FIN_UF_FLUSHED) (sum .FIN_UF_WRITTEN)) else b

/-- A run length at which an alarm is raised: THRESH and its doublings. -/
def alarmAt (thresh : Nat) : Nat → Nat → Bool
  | 0, _ => false
  | k + 1, n => decide (thresh * 2 ^ k = n) || alarmAt thresh k n

/-- The physical cores behind a tensor's schedule cores (R128, R583). -/
def Blk.gradUnits (b : Blk) (l : Last) (tag : Nat) : List Nat :=
  (l.grads.filter (fun g => g.1 == tag)).map (fun g => clUnit g.2.1 (b.schedTo g.2.1 g.2.2))

/-- Gradient health of one scanned tensor after an applied update (R127, R128). -/
def Blk.health (b : Blk) (p : Nat) (l : Last) (x : Nat × Bool) : Blk :=
  let cls := b.liveClusters p
  let cfg : RegRef := ⟨.FIN_GH_CFG, cls.headD 0, 0⟩
  let th := b.rf cfg Fld.FIN_GH_CFG_THRESH
  let n := ((b.part p).map (fun y => Sp.get 0 y.health x.1)).getD 0
  if x.2 then
    let m := min 65535 (n + 1)
    let b1 := b.onPart p (fun y => { y with health := Sp.set 0 y.health x.1 m })
    if n < m ∧ alarmAt th 17 m = true then
      let b2 := (cls.foldl (fun c cl => c.wn ⟨.FIN_GH_STAT, cl, 0⟩ (x.1 + 65536 * m)) b1).alarm p (.zeroGradient x.1 m (b.sOf p))
      let failed := (b.part p).any (fun y => y.healthAsk.any (fun z => decide (z.1 = x.1) && decide (z.2.2 = 2)))
      if b.rf cfg Fld.FIN_GH_CFG_AWL_ON_ALARM = 1 ∧ (m = th ∨ failed = true) then
        let us := b2.gradUnits l x.1
        let b3 := if m = th then b2.onPart p (fun y => { y with healthAsk := y.healthAsk.filter (fun z => z.1 != x.1) ++ us.map (fun u => (x.1, u, 0)) }) else b2
        us.foldl (fun c u => c.askTest u .health) b3
      else b2
    else b1
  else
    let b1 := b.onPart p (fun y => { y with health := Sp.set 0 y.health x.1 0, healthAsk := y.healthAsk.filter (fun z => z.1 != x.1) })
    if th ≤ n then b1.alarm p (.gradientResumed x.1 n) else b1

/-- The hyperparameter record of the update (R186). -/
def Blk.hyperRecord (b : Blk) (l : Last) (cl : Nat) : Blk :=
  match l.hyper[b.rn ⟨.FIN_UPDATE_CNT, cl, 0⟩]? with
  | some xs => b.insStore cl l.hyperAt (xs.take 36)
  | none => b

/-- An ending closing (R279). -/
def Blk.endClosing (b : Blk) (p : Nat) (l : Last) (v : Verdict) : Blk :=
  let st := b.stepOf p
  let upd := v.out == .apply || v.out == .applyDrop
  let cls := b.liveClusters p
  let b1 := b.onStep p (fun s => { s with state := 3, outcome := v.out, lastOut := v.out, lastWhy := 0, n := v.n, round := 0 })
  let r := cls.foldl (fun (acc : Blk × Bool) cl => let y := acc.1.lossScale cl v.out; (y.1, acc.2 || y.2)) (b1, false)
  let r1 := r.1.scaleLost p
  let b2 := if r.2 then r1.alarm p (.scaleFloor (b.sOf p)) else r1
  let b3 := b2.underflowWatch p
  let b4 := if upd then st.scan.foldl (fun c x => c.health p l x) b3 else b3
  let b5 := if upd then cls.foldl (fun c cl => (c.hyperRecord l cl).wn ⟨.FIN_STEP_COUNT, cl, 0⟩ v.n) b4
    else cls.foldl (fun c cl => c.bump ⟨.SEQ_SKIP_CNT, cl, 0⟩) b4
  b5.deferredGo p

/-- An outcome that repeats the step (R280, R281, R284). -/
def Blk.againClosing (b : Blk) (p : Nat) (l : Last) (o : Outcome) (dirty : Bool) : Blk :=
  let st := b.stepOf p
  let attr := (st.names.filter (fun r => r.kind == 2)).map (fun r => (r.mb, r.samples))
  let b1 := if o = .dropAttempt ∧ cwHas st.res1 fFault = true then b.dropUnion p attr else b
  let seeds := ((st.names.filter (fun r => (if o = .replay then decide (2 ≤ r.kind) else decide (r.kind = 2)) || (dirty && decide (r.kind = 1)))).map (fun r => r.rank)).eraseDups
  let mine := st.allIn || (closure l.linked l.members seeds).contains l.rank
  b1.onStep p (fun s => { s with outcome := o, lastOut := o, lastWhy := 0, inSet := mine, round := 0 })

/-- The member computes the outcome. -/
def Blk.decide_ (b : Blk) (p : Nat) : Blk :=
  match b.lastOf p with
  | none => b
  | some l =>
    let st := b.stepOf p
    let w3 := if st.round = 3 then some st.result else none
    let v := decideOutcome st.res1 w3 st.names (b.stepCfg p Fld.SEQ_STEP_CFG_REPLAY_BUDGET) (b.stepCfg p Fld.SEQ_STEP_CFG_ATTEMPT_MAX) st.attempt l.replica
    match v.out with
    | .halt => b.haltJob p v.why
    | .replay | .dropAttempt => b.againClosing p l v.out (w3.any (fun w => cwHas w fDirty))
    | _ => b.endClosing p l v

/-! ### The rounds (R275, R371, R372) -/

/-- The result of round 1 or 3 taken and handed down. The words formed for older members stand for them in round 3 too, without flags (R361). -/
def Blk.takeResult (b : Blk) (p w : Nat) : Blk :=
  match b.lastOf p with
  | none => b
  | some l =>
    let st := b.stepOf p
    let note := if st.round = 1 ∧ st.notice ≠ (0, 0) then [st.notice.1 % 2 ^ 32 + 2 ^ 32 * (st.notice.2 % 256), 0] else []
    let b1 := b.toKids p (fun r => { (b.mkMsg p 0x41 r st.round) with words := w :: note })
    let more := decide (st.round = 1) && !cwHas w fMismatch && !cwHas w fHalt && (cwHas w fFault || cwHas w fStale || cwHas w fDrop)
    let old := (st.kids.filter (fun x => decide (l.gens.getD x.1 0 ≠ 0))).map (fun (x : Nat × Nat) => (x.1, x.2 / 256 * 256))
    let b2 := b1.onStep p (fun s => { s with
      result := w, kids := if more then old else [], rootOut := false, res1 := if s.round = 1 then w else s.res1 })
    if more then
      (b2.onStep p (fun s => { s with round := 2, names := [], ownNames := s.ownList l.rank })).nameTry p
    else b2.decide_ p

/-- The list of round 2 is whole: its dropped micro-batches enter the drop set, and round 3 runs if there are any. -/
def Blk.namesDone (b : Blk) (p : Nat) : Blk :=
  let st := b.stepOf p
  let drops := (st.names.filter (fun r => r.kind == 1)).map (fun r => (r.mb, r.samples))
  let b1 := (b.onStep p (fun s => { s with kidNames := [], rootOut := false })).dropUnion p drops
  if drops = [] then b1.decide_ p
  else
    let s1 := b1.stepOf p
    let dirty := s1.lostShare || s1.sharedMb.any (fun m => s1.drop.any (fun d => d.1 == m))
    let w := cword (if dirty then fDirty else 0) s1.attempt 0 (b1.sOf p) s1.count
    (b1.onStep p (fun s => { s with round := 3, local_ := w })).closeTry p

/-- The closing of a step that a REPLAY_STEP runs over again: the recorded outcome in place of the vote (R296). An attempt that is aborted closes by the vote. -/
def Blk.closeRecorded (b : Blk) (p : Nat) (l : Last) (d : Digest) : Blk :=
  let b1 := b.onStep p (fun s => { s with sent := true, names := d.names, res1 := s.local_ })
  b1.endClosing p l ⟨d.outcome, 0, d.n⟩

/-- CLOSING_WORD_SEND. -/
def Blk.closingWordSend (b : Blk) (p : Nat) : Blk :=
  match b.lastOf p with
  | none => b
  | some l =>
    let st := b.stepOf p
    if st.state ≠ 1 ∨ st.sent = true ∨ (st.held && !st.aborted) = true ∨ b.wordReady p = false then b
    else
      let own := st.drop.filter (fun d => st.batch.any (fun x => x.1 == d.1))
      let fl := st.flags ||| (if st.carry then fFault else 0) ||| (if own = [] then 0 else fDrop)
      let w := cword fl st.attempt (if decide (fl &&& fHalt ≠ 0) then st.haltWhy else 0) (b.sOf p) st.count
      let b1 := b.onStep p (fun s => { s with
        state := 2, outcome := .none, sent := true, round := 1, local_ := w, flags := fl, carry := false, dropNow := own
        faults := if s.carry then s.faults ++ [(0xFFFF, 0)] else s.faults })
      match (if st.aborted then none else b.recorded p) with
      | some d => b1.closeRecorded p l d
      | none => b1.closeTry p

/-! ### Messages received -/

/-- The messages of one kind: the message leaves the eyelet's buffer; one for another member is relayed (R345). An eyelet that the cut does not name, or an excluded one, is not used (R368, R373). -/
def Blk.onMsg (b : Blk) (e : Nat) (m : Msg) (kind : Nat) (f : Blk → Nat → Blk) : Blk :=
  if m.kind ≠ kind ∨ b.eyeExists e = false ∨ b.miswired e = true then b
  else match b.partOfEye e with
    | none => b
    | some p =>
      match b.lastOf p with
      | none => b
      | some l =>
        let b1 := b.eyeTake e (b.takeVc e m.vc)
        if !b.msgArrived e m || !l.cut.any (fun c => c.eye == e) then b
        else if m.dst ≠ l.rank then b1.relayMsg p e m else f b1 p

/-- CLOSE_WORD: a child's word. -/
def Blk.closeWord (b : Blk) (e : Nat) (m : Msg) : Blk :=
  b.onMsg e m 0x40 (fun c p =>
    match c.lastOf p with
    | none => c
    | some l =>
      if (childRanks l.rank l.members).contains m.src then
        (c.onStep p (fun st => { st with kids := st.kids.filter (fun x => x.1 != m.src) ++ [(m.src, m.words.headD 0)] })).closeTry p
      else c)

/-- The root takes its own result; another member takes a message from its parent. -/
def Blk.fromParent (b : Blk) (p : Nat) (x : Option (Nat × Msg)) (kind : Nat) (own : Blk → Blk) (got : Blk → Msg → Blk) : Blk :=
  match x with
  | none => if (b.lastOf p).any (fun l => decide (l.rank = 0)) && (b.stepOf p).rootOut then own b else b
  | some (e, m) => b.onMsg e m kind (fun c q => if q = p ∧ (c.lastOf p).any (fun l => decide (m.src = parentRank l.rank) && decide (l.rank ≠ 0)) = true then got c m else c)

/-- CLOSE_RESULT: the result of round 1 or 3, the root's own or from the parent on an eyelet. -/
def Blk.closeResult (b : Blk) (p : Nat) (x : Option (Nat × Msg)) : Blk :=
  let live (c : Blk) : Bool := (c.stepOf p).sent && (decide ((c.stepOf p).round = 1) || decide ((c.stepOf p).round = 3))
  let put (c : Blk) (n : Nat × Nat) : Blk := if (c.stepOf p).round = 1 then c.onStep p (fun st => { st with notice := n }) else c
  b.fromParent p x 0x41 (fun c => if live c then (put c (c.noticeOf p)).takeResult p (c.stepOf p).result else c)
    (fun c m => if live c && decide (m.cseq = (c.stepOf p).round)
      then (put c (let v := m.words.getD 1 0; (v % 2 ^ 32, v / 2 ^ 32 % 256))).takeResult p (m.words.headD 0) else c)

/-- NAME_LIST: a child's records; a message of fewer than 470 ends its list. -/
def Blk.nameList (b : Blk) (e : Nat) (m : Msg) : Blk :=
  b.onMsg e m 0x42 (fun c p =>
    match c.lastOf p with
    | none => c
    | some l =>
      if (childRanks l.rank l.members).contains m.src then
        let part := m.src + 2 ^ 20
        let c1 := c.onStep p (fun st =>
          let have_ := ((slotGet st.kidNames part).getD []) ++ m.names
          if m.names.length < 470 then { st with kidNames := st.kidNames.filter (fun x => x.1 != part && x.1 != m.src) ++ [(m.src, have_)] }
          else { st with kidNames := st.kidNames.filter (fun x => x.1 != part) ++ [(part, have_)] })
        c1.nameTry p
      else c)

/-- NAME_RESULT: the whole list of round 2, the root's own or from the parent. -/
def Blk.nameResult (b : Blk) (p : Nat) (x : Option (Nat × Msg)) : Blk :=
  let kids (c : Blk) : List Nat := match c.lastOf p with | some l => childRanks l.rank l.members | none => []
  let live (c : Blk) : Bool := decide ((c.stepOf p).round = 2)
  b.fromParent p x 0x43
    (fun c => if live c then ((kids c).foldl (fun d r => d.sendNames p 0x43 r (c.stepOf p).names) c).namesDone p else c)
    (fun c m =>
      if live c then
        let c1 := c.toKids p (fun r => { (c.mkMsg p 0x43 r 2) with names := m.names })
        let c2 := c1.onStep p (fun st => { st with names := st.names ++ m.names })
        if m.names.length < 470 then c2.namesDone p else c2
      else c)

/-- CLOSE_TIMEOUT (R289). -/
def Blk.closeTimeout (b : Blk) (p : Nat) : Blk :=
  let st := b.stepOf p
  if st.state = 2 ∧ st.sent = true ∧ st.outcome = .none then b.haltJob p 9 else b

/-- A drop in the middle of an attempt (R285): notices to the replica. -/
def Blk.dropMbs (b : Blk) (p : Nat) (mbs : List (Nat × Nat)) : Blk :=
  match b.lastOf p with
  | none => b
  | some l =>
    let dests := l.replicaOf.filter (fun r => decide (r ≠ l.rank))
    let b1 := ((b.dropUnion p mbs).flag p fDrop).onStep p (fun st => { st with notices := st.notices ++ dests.filter (fun r => !st.notices.contains r) })
    dests.foldl (fun c r => c.msgSend p { (c.mkMsg p 0x44 r 0) with names := mbs.map (fun (d : Nat × Nat) => ({ mb := d.1, samples := d.2, rank := l.rank, kind := 1 } : NameRec)) }) b1

/-- A message of an attempt, given as (bits [15:0] of the step, attempt), that this member has not started yet. -/
def Blk.attemptAhead (b : Blk) (p step attempt : Nat) : Bool :=
  let st := b.stepOf p
  decide (step = (b.sOf p + 1) % 65536) || (decide (step = b.sOf p % 65536) && (decide (st.state = 0) || decide (st.attempt < attempt)))

/-- DROP_NOTICE (R285): the micro-batches join the drop set of the attempt that the notice names, at its start where this member has yet to start it; a member whose word
for it is sent acknowledges only. -/
def Blk.dropNotice (b : Blk) (e : Nat) (m : Msg) : Blk :=
  b.onMsg e m 0x44 (fun c p =>
    let mbs := m.names.map (fun r => (r.mb, r.samples))
    let st := c.stepOf p
    let c1 := if c.attemptAhead p m.step m.attempt then c.onStep p (fun s => { s with dropNotes := s.dropNotes ++ [((m.step, m.attempt), mbs)] })
      else if st.open? && decide (m.step = c.sOf p % 65536) && decide (m.attempt = st.attempt) then (c.dropUnion p mbs).flag p fDrop else c
    c1.msgSend p (c1.mkMsg p 0x45 m.src 0))

/-- DROP_ACK. -/
def Blk.dropAck (b : Blk) (e : Nat) (m : Msg) : Blk :=
  b.onMsg e m 0x45 (fun c p => c.onStep p (fun st => { st with notices := st.notices.filter (fun r => decide (r ≠ m.src)) }))

/-- ATTEMPT_ABORT received (R287): a member whose word is not sent discards its contexts, one that has not started the attempt yet issues nothing of it; it goes on down the
tree. -/
def Blk.attemptAbort (b : Blk) (e : Nat) (m : Msg) : Blk :=
  b.onMsg e m 0x46 (fun c p =>
    match c.lastOf p with
    | none => c
    | some l =>
      let dests := ((if l.rank = 0 then [] else [parentRank l.rank]) ++ childRanks l.rank l.members).filter (fun r => decide (r ≠ m.src))
      let c1 := dests.foldl (fun d r => d.msgSend p { (d.mkMsg p 0x46 r 0) with step := m.step, attempt := m.attempt }) c
      let st := c1.stepOf p
      let s := c1.sOf p
      if c1.attemptAhead p m.step m.attempt then
        c1.onStep p (fun x => { x with aborts := x.aborts ++ [(m.step, m.attempt)] })
      else if m.step = s % 65536 ∧ m.attempt = st.attempt then
        if st.open? then (c1.onStep p (fun s => { s with aborted := true, allIn := true })).discardAll p
        else c1.onStep p (fun s => { s with allIn := true })
      else c1)

/-- What an engine leaves of a descriptor that it has begun when the discard reaches it: `n` blocks done, each of them poisoned (R176). -/
def Blk.discardAt (b : Blk) (f : Flight) (n : Nat) : EOut :=
  let code := b.bindOf f
  let x := b.ectxOf f
  if code = 0x10 then finScan b x f.raw (some n) else if code = 0x11 then stashRun b x f.raw (some n)
  else if code = 0x12 then gatherRun b x f.raw (some n) else if code = 0x13 then layoutRun b x f.raw (some n) else dmaRun b x f.raw (some n)

/-- CONTEXT_DISCARD (R78, R160, R176): the i-th descriptor of a cluster, on a replay, a cancellation, or a one-half fault of its core. `done` is how many blocks an
engine beyond the core has done of a descriptor that is still to run, none where it has not begun it. -/
def Blk.contextDiscard (b : Blk) (cl i : Nat) (done : Option Nat) : Blk :=
  match (b.flightsOf cl)[i]? with
  | none => b
  | some f =>
    let code := b.bindOf f
    let st := b.stepOf ((b.partOf cl).getD 0xFF)
    let fencedHalf := f.stopped || decide (bindKind code < 2) && decide (b.role (clUnit cl (code % 8)) ≠ roActive)
    let must := st.aborted || decide (st.state ≠ 1) && decide (f.phase ≤ 3) || fencedHalf
    if !must || b.kept f then b
    else match (if f.ran || decide (bindKind code < 2) then none else done) with
      | some n =>
        let o := b.discardAt f n
        (o.b.discardErr f (if o.st = .fault then 0x32 + 256 * o.fl else o.st.code)).setFlight { f with ran := true, result := some (if o.st = .fault then 0x32 + 256 * o.fl else o.st.code) }
      | none =>
        let c := (b.discardEffect f).setFlight { f with ran := true, result := some (b.discardWord f) }
        if f.result.isNone then (c.descCount f).discardErr f (b.discardWord f) else c.discardErr f (b.discardWord f)

end Sys2Proof.Machine
end

