-- ==== Sys2Proof/Machine/Collectives.lean ====
section
/-!
DEFINITION. Collectives and the lacing engines (R332 to R370): arming and starting, chunks sent and received, reductions, exchanges, completion,
timeouts and moved flows.
-/
namespace Sys2Proof.Machine

/-! ### Statuses (R343) -/

abbrev lacAddress : Nat := 0x18
abbrev lacFault : Nat := 0x30
abbrev lacNoRoute : Nat := 0x2A
abbrev lacTimeout : Nat := 0x29
abbrev lacOrder : Nat := 0x28
abbrev lacEpoch : Nat := 0x25

/-- The order in which statuses are reported when several causes arise. -/
def lacOrderList : List Nat := [0x18, 0x30, 0x32, 0x2A, 0x29, 0x28, 0x25, 0x21, 0x22, 0x23, 0x24, 0x20, 0]

def lacWorse (a c : Nat) : Nat := if lacOrderList.idxOf c < lacOrderList.idxOf a then c else a

/-- The status of a failed check of R178. -/
def lacOf (regath : Bool) : EStat → Nat
  | .poisonIn => 0x20 | .agletCrc => 0x21 | .agletId => 0x22 | .version => if regath then 0x24 else 0x23 | _ => 0

/-! ### Access -/

/-- A collective of a partition with what it needs: the last, its descriptor, its state, the group's members, the own group rank. -/
structure CollAt where
  p   : Nat
  l   : Last
  d   : CollDesc
  st  : Coll
  ms  : List Nat
  me  : Nat
deriving DecidableEq, Repr

def CollAt.g (x : CollAt) : Nat := x.ms.length
/-- A heritage ring (R360). -/
def CollAt.ring (x : CollAt) : Bool := x.d.reduces && decide (x.l.arith x.d ≠ 0)

def Blk.collAt (b : Blk) (p q : Nat) : Option CollAt :=
  match b.part p with
  | none => none
  | some y =>
    match y.last, y.colls.find? (fun c => c.cseq == q) with
    | some l, some c =>
      match (l.colls.map CollDesc.parse).find? (fun d => d.cseq == q) with
      | none => none
      | some d => match l.groupAt d.group with
        | some g => some { p := p, l := l, d := d, st := c, ms := l.groupMembers g, me := l.grank g l.rank }
        | none => none
    | _, _ => none

def Blk.onColl (b : Blk) (p q : Nat) (f : Coll → Coll) : Blk :=
  b.onPart p (fun x => { x with colls := x.colls.map (fun (c : Coll) => if c.cseq = q then f c else c) })

def Blk.onFlow (b : Blk) (p ctx : Nat) (f : Flow → Flow) : Blk :=
  b.onPart p (fun x => { x with flows := x.flows.map (fun (w : Flow) => if w.ctx = ctx then f w else w) })

def Blk.flowsOf (b : Blk) (p q : Nat) : List Flow :=
  match b.part p with
  | some x => x.flows.filter (fun w => !w.relay && w.cseq == q)
  | none => []

/-- A cause noted on a collective: its status, and of the first its peer, chunk and time. -/
def Blk.collNote (b : Blk) (p q st peer chunk : Nat) : Blk :=
  if st = 0 then b
  else
    let now := b.shankNow (b.leadOf q)
    b.tick.onColl p q (fun c => { c with
      status := lacWorse c.status st, badPeer := if c.status = 0 then peer else c.badPeer, badChunk := if c.status = 0 then chunk else c.badChunk
      badAt := if c.status = 0 then now else c.badAt })

/-- A block of the package's own source as a lacing engine reads it: what its checks find, the block as it goes on, and where it lies (for packed rows, the block that the
status comes from). -/
structure SrcBlk where
  st  : Nat
  y   : Block
  at_ : Nat

/-- A cause found in the package's own source: no peer has failed. A block failing checks 1, 2 or 4 is a path fault of the I/O die `d` that reads it (R374, R382). -/
def Blk.srcNote (b : Blk) (p q d : Nat) (y : SrcBlk) (chunk : Nat) : Blk :=
  let b1 := b.collNote p q y.st 0xFFFF chunk
  if y.st = 0x21 ∨ y.st = 0x22 then (b1.bump ⟨.LAC_AGLET_ERR_CNT, d, 0⟩).pathNote p d y.at_ else b1

def Blk.collFlag (b : Blk) (p q bit : Nat) : Blk := b.onColl p q (fun c => { c with flags := setBit c.flags bit true })

/-- The version expected of source blocks (R342): of the cluster that ARM0 names; for a backward re-gather the one its forward gather found. -/
def Blk.collVersion (b : Blk) (x : CollAt) : Option Nat :=
  if !x.d.chkVer then none
  else
    let cl := tripCl (x.d.arms.headD 0)
    (b.part x.p).map (fun y => if x.d.regath && decide (x.d.op = 3) then y.foundVersion cl x.d.srcTag else y.version cl x.d.srcTag)

/-! ### Source data -/

/-- One source block at an address, as delivered, with the status of its checks. -/
def Blk.collRead (b : Blk) (x : CollAt) (ver : Option Nat) (blk : Nat) : Nat × Block :=
  match b.hbmGet blk with
  | none => (0x20, ⟨zeros 4096, agletPoison aglet0⟩)
  | some y =>
    let r := y.check { tag := x.d.srcTag, format := x.d.fmt, epoch := some x.d.epoch, version := ver }
    (lacOf (x.d.regath && decide (x.d.op = 3)) r.1, if r.1 = .ok then r.2 else r.2.poisoned)

/-- Blocks `j` to `j + n - 1` of SRC. -/
def Blk.srcBlocks (b : Blk) (x : CollAt) (j n : Nat) : List SrcBlk :=
  (List.range n).map (fun i => let at_ := x.d.src / 4096 + j + i; let r := b.collRead x x.st.ver at_; { st := r.1, y := r.2, at_ := at_ })

/-- The chunk of `d.cblk` blocks with an index, as first block and length, of a run of `total` blocks. -/
def CollDesc.span (d : CollDesc) (total c : Nat) : Nat × Nat := (c * d.cblk, min d.cblk (total - c * d.cblk))

/-- A chunk of a flow by its index: whether it is a result, and its place among the contributions or the results. -/
def Flow.resAt (w : Flow) (i : Nat) : Bool := decide (w.first ≤ i)
def Flow.local_ (w : Flow) (i : Nat) : Nat := if w.first ≤ i then i - w.first else i

/-- The tensor chunk that the i-th contribution or result of a reduction's flow from group rank `a` to `c` carries. -/
def CollAt.tchunk (x : CollAt) (a c : Nat) (res : Bool) (i : Nat) : Nat :=
  if x.ring then ((List.range x.d.chunks).filter (fun t => decide (t % x.g ≠ (if res then c else a)))).getD i 0
  else (if res then a else c) + i * x.g

/-- The index of a tensor chunk in its reduction's flow. -/
def CollAt.findex (x : CollAt) (a c : Nat) (res : Bool) (t : Nat) : Nat :=
  (if res then x.l.flowChunks x.d x.g a c false else 0) + if x.ring then ((List.range x.d.chunks).filter (fun u => decide (u % x.g ≠ (if res then c else a)))).idxOf t else t / x.g

/-- A contributed block (R352): the package's live count in SAMPLES. -/
def withSamples (n : Nat) (y : Block) : Block := { y with agl := Aglet.pack { Aglet.parse y.agl with samples := min 65535 n } }

def pairOf (y : Block) : List Byte × BitVec 128 := (y.pay, y.agl)
def blockOf (y : List Byte × BitVec 128) : Block := ⟨y.1, y.2⟩

/-! ### Routed rows (R354, R355) -/

/-- The route vector. -/
def Blk.routes (b : Blk) (x : CollAt) : List Nat :=
  let xs := b.hbmBytes x.d.aux (2 * x.d.count)
  (List.range x.d.count).map (fun i => leNat ((xs.drop (2 * i)).take 2))

/-- Rows routed to a group rank, ascending. -/
def routedTo (rs : List Nat) (k : Nat) : List Nat := (rs.zipIdx.filter (fun r => r.1 == k)).map (fun r => r.2)

/-- Rows that found no slot: beyond CAP toward their destination. -/
def overflowed (rs : List Nat) (g cap : Nat) : List Nat := ((List.range g).map (fun k => (routedTo rs k).drop cap)).flatten

/-- The worse of two statuses, each with the block that it comes from. -/
def lacWorst (a c : Nat × Nat) : Nat × Nat := if lacWorse a.1 c.1 = a.1 then a else c

/-- What checks 1 to 3 of R178 find in the blocks of the route vector: the worst status and its block. -/
def Blk.routesBad (b : Blk) (x : CollAt) : Nat × Nat :=
  (List.range ((2 * x.d.count + 4095) / 4096)).foldl (fun s k =>
    let at_ := x.d.aux / 4096 + k
    match b.hbmGet at_ with
    | none => lacWorst s (0x20, at_)
    | some y =>
      let a := Aglet.parse y.agl
      lacWorst s (lacOf false (y.check { tag := a.tag, format := a.format, epoch := none, version := none }).1, at_)) (0, 0)

/-- Rows of `n` bytes of an area as bytes, absent ones zeros, with the worst of the blocks that each touches; rows routed by a vector that fails its checks are bad. -/
def Blk.rowsAt (b : Blk) (x : CollAt) (rows : List (Option Nat)) : List (List Byte × Nat × Nat) :=
  let n := x.d.rowBytes
  let ver := x.st.ver
  let bad := b.routesBad x
  rows.map (fun r => match r with
    | none => (zeros n, bad)
    | some i =>
      let a := x.d.src + i * n
      let blks := (List.range ((a + n + 4095) / 4096 - a / 4096)).map (fun k => a / 4096 + k)
      (b.hbmBytes a n, blks.foldl (fun s k => lacWorst s ((b.collRead x ver k).1, k)) bad))

/-- Rows packed into whole blocks, poisoned where a row is bad. -/
def Blk.packRows (b : Blk) (x : CollAt) (rows : List (List Byte × Nat × Nat)) : List SrcBlk :=
  let n := x.d.rowBytes
  let xs := (rows.map (fun r => r.1)).flatten
  let a := Aglet.parse ((b.hbmGet (x.d.src / 4096)).map (fun y => y.agl) |>.getD aglet0)
  (List.range ((xs.length + 4095) / 4096)).map (fun k =>
    let pay := ((xs.drop (4096 * k)) ++ zeros 4096).take 4096
    let bad := (rows.zipIdx.filter (fun r => decide (4096 * k < (r.2 + 1) * n) && decide (r.2 * n < 4096 * (k + 1)))).foldl (fun s r => lacWorst s r.1.2) (0, 0)
    let fl := payloadFlags x.d.fmt pay
    { st := bad.1, at_ := bad.2
      y := Block.make pay { pcrc := 0, tag := x.d.srcTag, version := a.version, format := x.d.fmt, flags := 0, epoch := x.d.epoch, kind := a.kind, samples := a.samples }
        (bad.1 != 0) fl.1 fl.2 false })

/-- The rows that go to group rank `k` in a dispatch: CAP slots, filled first. -/
def dispatchRows (rs : List Nat) (cap k : Nat) : List (Option Nat) :=
  let r := (routedTo rs k).take cap
  r.map some ++ List.replicate (cap - r.length) none

/-- The valid rows in the slots from rank `k` of the dispatch that a combine undoes: by the counts that dispatch received, else CAP. -/
def Blk.combineValid (b : Blk) (x : CollAt) (k : Nat) : Nat :=
  let ds := (x.l.colls.map CollDesc.parse).filter (fun d => decide (d.op = 7) && decide (d.group = x.d.group) && decide (d.cap = x.d.cap) && decide (d.aux = x.d.aux))
  let cs := ((b.part x.p).map (fun y => y.colls)).getD []
  match ds.find? (fun d => cs.any (fun c => c.cseq == d.cseq && c.counts.any (fun n => n.1 == k))) with
  | some d => (((cs.find? (fun c => c.cseq == d.cseq)).bind (fun c => c.counts.find? (fun n => n.1 == k))).map (fun n => n.2.1)).getD x.d.cap
  | none => x.d.cap

/-- The rows that a combine sends back to group rank `k`. -/
def Blk.combineRows (b : Blk) (x : CollAt) (k : Nat) : List (Option Nat) :=
  (List.range (min x.d.cap (b.combineValid x k))).map (fun j => some (k * x.d.cap + j))

/-- Chunks of a flow of a collective; a combine leaves the padding out. -/
def Blk.flowLen (b : Blk) (x : CollAt) (w : Flow) : Nat :=
  if x.d.op = 8 then
    let n := if w.recv then min x.d.cap (routedTo (b.routes x) w.grank).length else (b.combineRows x w.grank).length
    x.d.chunksOf (x.d.rowBlocks n)
  else w.chunks

/-! ### What a flow sends -/

/-- The i-th chunk of a send flow, as (message kind, blocks with statuses); none while its data is not there. -/
def Blk.sendChunk (b : Blk) (x : CollAt) (w : Flow) (i : Nat) : Option (Nat × List SrcBlk) :=
  let live (ys : List SrcBlk) : List SrcBlk := ys.map (fun y => { y with y := withSamples x.st.live y.y })
  let dst (t : Nat) : List SrcBlk :=
    let r := x.d.span x.d.count t
    (List.range r.2).map (fun k => { st := 0, at_ := x.d.dst / 4096 + r.1 + k, y := (b.hbmGet (x.d.dst / 4096 + r.1 + k)).getD ⟨zeros 4096, aglet0⟩ })
  let tensor (t : Nat) : List SrcBlk := let r := x.d.span x.d.count t; b.srcBlocks x r.1 r.2
  match x.d.op with
  | 1 | 2 =>
    let t := x.tchunk x.me w.grank (w.resAt i) (w.local_ i)
    if w.resAt i then (if x.st.written.contains t then some (3, dst t) else none)
    else if !x.ring then some (1, live (tensor t))
    else if x.me = (t + 1) % x.g then some (2, live (tensor t))
    else (x.st.contribs.find? (fun c => decide (c.1 = t + 2 ^ 25))).map (fun c => (2, c.2.2.map (fun y => { st := 0, y := blockOf y, at_ := 0 })))
  | 3 => let s := x.d.share x.g x.me
         let r := x.d.span s.2 i
         some (3, b.srcBlocks x r.1 r.2)
  | 4 | 5 => some (3, tensor i)
  | 9 => some (7, (tensor i).map (fun y =>
      { y with y := { y.y with agl := Aglet.pack { Aglet.parse y.y.agl with tag := x.d.dstTag, kind := x.d.kind, epoch := x.d.epoch } } }))
  | 7 => let ys := b.packRows x (b.rowsAt x (dispatchRows (b.routes x) x.d.cap w.grank))
         some (4, (ys.drop (i * x.d.cblk)).take x.d.cblk)
  | 8 => let ys := b.packRows x (b.rowsAt x (b.combineRows x w.grank))
         some (4, (ys.drop (i * x.d.cblk)).take x.d.cblk)
  | _ => none

/-- A data message of a flow. -/
def Blk.flowMsg (b : Blk) (x : CollAt) (w : Flow) (kind i : Nat) (ys : List Block) (words : List Nat) : Msg :=
  { kind := kind, src := x.l.rank, dst := w.peer, vc := if kind = 7 then 4 else x.d.vc, step := b.sOf x.p % 65536, attempt := (b.stepOf x.p).attempt, cseq := x.d.cseq
    chunk := i, aglets := !w.herit, ctx := w.ctx, blocks := ys.map pairOf, words := words, names := [] }

/-- No chunk leaves while the partition is held (R291), or its attempt aborted. -/
def Blk.flowsHeld (b : Blk) (p : Nat) : Bool := (b.stepOf p).held || (b.stepOf p).aborted

/-- A send flow sends while it has credit and data. -/
def Blk.pumpFlow (p q ctx : Nat) : Nat → Blk → Blk
  | 0, b => b
  | n + 1, b =>
    match b.collAt p q, (b.flowsOf p q).find? (fun w => w.ctx == ctx) with
    | some x, some w =>
      if w.recv || !x.st.started || x.st.complete || b.flowsHeld p || decide (b.flowLen x w ≤ w.done) || decide (w.credit ≤ w.done - w.acked) then b
      else match b.sendChunk x w w.done with
        | none => b
        | some (kind, ys) =>
          match b.rideOn b.eyeUsable p w.peer w.done with
          | none => b
          | some e =>
            let b1 := ys.foldl (fun c y => c.srcNote p q (eyeDie e) y w.done) b
            let b2 := (b1.msgSend p (b1.flowMsg x w kind w.done (ys.map (fun y => y.y)) [])).bump ⟨.LAC_CHUNK_TX_CNT, eyeDie e, 0⟩
            let note := if x.d.op = 7 ∧ w.done = 0 then
                let rs := b.routes x
                let r := (routedTo rs w.grank).length
                b2.msgSend p (b2.flowMsg x w 5 0 [] [min r x.d.cap, r - x.d.cap])
              else b2
            let b3 := (note.ctxTouch (eyeDie e) w.ctx).onColl p q (fun c => { c with kib := c.kib + 4 * ys.length })
            let now := b3.shankNow (eyeDie e)
            pumpFlow p q ctx n ((b3.tick).onFlow p ctx (fun f => { f with
              done := f.done + 1, state := 2, prog := now, eye := e, samples := ((ys.head?).map (fun y => (Aglet.parse y.y.agl).samples)).getD f.samples }))
    | _, _ => b

/-- Every send flow of a collective. -/
def Blk.pump (b : Blk) (p q : Nat) : Blk :=
  ((b.flowsOf p q).filter (fun w => !w.recv)).foldl (fun c w => Blk.pumpFlow p q w.ctx 32 c) b

/-! ### Writing results -/

/-- A block written at block `j` of DST with a generated aglet (R353). -/
def Blk.putDst (b : Blk) (x : CollAt) (j : Nat) (pay : List Byte) (version samples : Nat) (poison : Bool) (nf : Bool := false) : Blk :=
  let pf := payloadFlags x.d.fmt pay
  let fl := (pf.1, pf.2 || nf)
  let again := decide ((b.stepOf x.p).attempt ≠ 0)
  let b1 := b.hbmPut (x.d.dst / 4096 + j) (Block.make pay
    { pcrc := 0, tag := x.d.dstTag, version := version, format := x.d.fmt, flags := 0, epoch := x.d.epoch, kind := x.d.kind, samples := samples } poison fl.1 fl.2 again)
  let b2 := if poison then b1.collFlag x.p x.d.cseq 10 else b1
  if fl.2 then b2.collFlag x.p x.d.cseq 8 else b2

/-- A delivered block written at block `j` of DST; a value that only its scale makes non-finite stays marked (R100). -/
def Blk.putBlock (b : Blk) (x : CollAt) (j : Nat) (y : Block) : Blk :=
  let a := Aglet.parse y.agl
  b.putDst x j y.pay a.version a.samples a.poison a.nonfin

def Blk.markWritten (b : Blk) (x : CollAt) (k samples : Nat) : Blk :=
  b.onColl x.p x.d.cseq (fun c => { c with written := c.written ++ [k], samples := samples })

/-! ### Reductions (R349, R350, R360) -/

/-- The elements of a block as values. -/
def blockVals (f : Fmt) (pay : List Byte) : List FVal := (List.range f.perBlock).map (fun i => f.decode (f.getElem (fun j => pay.getD j 0) i))
def blockInts (f : Fmt) (pay : List Byte) : List Int := (List.range f.perBlock).map (fun i => sint f.bits (f.getElem (fun j => pay.getD j 0) i))

/-- One block of a native reduction over the contributions in ascending group rank: the payload and its flags. `base` is the logical index of its
first element. -/
def reduceBlock (f : Fmt) (redop : Nat) (dr : Draw) (base : Nat) (pays : List (List Byte)) : List Byte × CFlags :=
  match pays with
  | [] => (zeros 4096, {})
  | h :: t =>
    if redop = 3 then
      let s := t.foldl (fun acc p => List.zipWith (fun a c => a + c) acc (blockInts f p)) (blockInts f h)
      let r := s.map (fun i => max (-32768) (min 32767 i))
      (f.pack (r.map (intBits 16)), ⟨decide (r ≠ s), false⟩)
    else
      let op (a c : FVal) : FVal := if redop = 1 then fmaxv a c else if redop = 2 then fminv a c else addRnd .acc32 .near a c
      let s := t.foldl (fun acc p => List.zipWith op acc (blockVals f p)) (blockVals f h)
      let r := s.zipIdx.map (fun y => f.conv (if redop = 0 then .stoch (dr.field (base + y.2)) else .near) y.1)
      (f.pack (r.map (fun y => y.1)), r.foldl (fun c y => c.or y.2) {})

/-- One hop of a heritage ring: an own block added to a partial, rounded to BF16 (R120). -/
def ringAdd (code : Nat) (part own : List Byte) : List Byte × CFlags :=
  let f := Fmt.bf16
  let add (a c : FVal) : FVal := let u := heritIn f a; let v := heritIn f c; if code = 2 then addBenium u v else addRnd .acc32 .near u v
  let s := List.zipWith add (blockVals f part) (blockVals f own)
  let k : Rnd := if code = 2 then .zero else .near
  let r := s.map (fun v => (f.conv k v, match v with | .fin _ m => decide (code = 2) && decide (f.maxFin < m) | _ => false))
  (f.pack (r.map (fun y => y.1.1)), r.foldl (fun c y => c.or ⟨y.2, y.1.2.nonfinite || !(f.decode y.1.1).finite⟩) {})

/-- The contributions of a tensor chunk held for a code (1 contribution or partial, 3 result). -/
def CollAt.have_ (x : CollAt) (code t k : Nat) : Option (List (List Byte × BitVec 128)) :=
  (x.st.contribs.find? (fun c => decide (c.1 = t + 2 ^ 24 * code) && decide (c.2.1 = k))).map (fun c => c.2.2)

/-- SAMPLES of one contribution: all its blocks must agree (R352). -/
def contribSamples (ys : List Block) : Nat × Bool :=
  let ns := ys.map (fun y => (Aglet.parse y.agl).samples)
  (ns.headD 0, ns.all (fun n => n == ns.headD 0))

/-- The reducing I/O die of a chunk on its owner (R348). -/
def Blk.reducer (b : Blk) (x : CollAt) (t : Nat) : Nat := let ds := b.iodsUp; ds.getD (t / x.g % max 1 ds.length) iod0

def Blk.noteFlags (b : Blk) (x : CollAt) (fl : CFlags) : Blk :=
  let b1 := if fl.sat then b.collFlag x.p x.d.cseq 9 else b
  if fl.nonfinite then b1.collFlag x.p x.d.cseq 8 else b1

/-- An owned chunk of a native reduction once every contribution stands: combined in group-rank order, rounded, written (R349, R350). -/
def Blk.reduceChunk (b : Blk) (x : CollAt) (t : Nat) : Blk :=
  let r := x.d.span x.d.count t
  let own := (b.srcBlocks x r.1 r.2)
  let parts : List (Option (List Block)) := (List.range x.g).map (fun k =>
    if k = x.me then some ((own.map (fun y => withSamples x.st.live y.y))) else (x.have_ 1 t k).map (fun ys => ys.map blockOf))
  if x.st.written.contains t || parts.any Option.isNone then b
  else
    let ps := parts.filterMap id
    let die := b.reducer x t
    let b1 := own.foldl (fun c y => c.srcNote x.p x.d.cseq die y t) b
    let total := min 65535 ((ps.map contribSamples).foldl (fun a s => a + s.1) 0)
    let dr : Draw := { key := b.rn ⟨.LAC_RNG_KEY, die, 0⟩, s := b.rn ⟨.LAC_RNG_STEP, die, 0⟩, tag := x.d.dstTag, purpose := 0x08, inst := 0 }
    match Fmt.ofCode x.d.fmt with
    | none => b1
    | some f =>
      let b2 := (List.range r.2).foldl (fun c k =>
        let ys := ps.map (fun y => y.getD k ⟨zeros 4096, aglet0⟩)
        let z := reduceBlock f x.d.redop dr (x.d.aux + (r.1 + k) * f.perBlock) (ys.map (fun y => y.pay))
        let bad := ys.any (fun y => (Aglet.parse y.agl).poison)
        let ver := (Aglet.parse (((own[k]?).map (fun y => y.y.agl)).getD aglet0)).version
        (c.putDst x (r.1 + k) z.1 ver total bad).noteFlags x z.2) b1
      b2.markWritten x t total

/-- A partial of the ring once it has arrived: the own chunk is added; the owner writes the result, another member keeps the sum to pass on (R360). -/
def Blk.ringChunk (b : Blk) (x : CollAt) (t : Nat) : Blk :=
  let prev := (x.me + x.g - 1) % x.g
  let owner := decide (x.me = t % x.g)
  match x.have_ 1 t prev with
  | none => b
  | some ys =>
    if x.st.written.contains t || (x.have_ 2 t x.me).isSome then b
    else
      let r := x.d.span x.d.count t
      let own := b.srcBlocks x r.1 r.2
      let b0 := own.foldl (fun c y => c.srcNote x.p x.d.cseq (b.reducer x t) y t) b
      let zs := (List.zip (ys.map blockOf) (own.map (fun y => withSamples x.st.live y.y))).map (fun (y : Block × Block) =>
        let z := ringAdd (x.l.arith x.d) y.1.pay y.2.pay
        let a := Aglet.parse y.1.agl
        let c := Aglet.parse y.2.agl
        (z, c.version, min 65535 (a.samples + c.samples), a.poison || c.poison))
      let b1 := zs.foldl (fun c z => c.noteFlags x z.1.2) b0
      if owner then
        let b2 := zs.zipIdx.foldl (fun c z => c.putDst x (r.1 + z.2) z.1.1.1 z.1.2.1 z.1.2.2.1 z.1.2.2.2) b1
        b2.markWritten x t ((zs.head?.map (fun z => z.2.2.1)).getD 0)
      else
        let out := zs.map (fun z => pairOf (Block.make z.1.1
          { pcrc := 0, tag := x.d.srcTag, version := z.2.1, format := x.d.fmt, flags := 0, epoch := x.d.epoch, kind := 0, samples := z.2.2.1 } z.2.2.2
          (payloadFlags x.d.fmt z.1.1).1 (payloadFlags x.d.fmt z.1.1).2 false))
        b1.onColl x.p x.d.cseq (fun c => { c with contribs := c.contribs ++ [(t + 2 ^ 25, x.me, out)] })

/-- A result chunk held for a reduction is written to DST. -/
def Blk.resultChunk (b : Blk) (x : CollAt) (t : Nat) : Blk :=
  match x.st.contribs.find? (fun c => decide (c.1 = t + 3 * 2 ^ 24)) with
  | none => b
  | some c =>
    if x.st.written.contains t then b
    else
      let r := x.d.span x.d.count t
      let ys := (c.2.2.map blockOf).zipIdx
      (ys.foldl (fun d y => d.putBlock x (r.1 + y.2) y.1) b).markWritten x t (contribSamples (ys.map (fun y => y.1))).1

/-! ### Gathers, broadcasts, exchanges (R353 to R356) -/

/-- Chunks of a gather, broadcast or RECV held from a group rank are written to DST. -/
def Blk.moveChunks (b : Blk) (x : CollAt) : Blk :=
  x.st.contribs.foldl (fun c y =>
    let i := y.1 % 2 ^ 24
    let key := y.2.1 * 2 ^ 24 + i
    match c.collAt x.p x.d.cseq with
    | none => c
    | some z =>
      if y.1 / 2 ^ 24 ≠ 3 ∨ z.st.written.contains key = true then c
      else
        let at_ := (if x.d.op = 3 then (x.d.share x.g y.2.1).1 else 0) + i * x.d.cblk
        ((y.2.2.map blockOf).zipIdx.foldl (fun d k => d.putBlock x (at_ + k.2) k.1) c).markWritten x key (contribSamples (y.2.2.map blockOf)).1) b

/-- The own part of a gather or of the root's broadcast is written to its own DST. -/
def Blk.ownMove (b : Blk) (x : CollAt) : Blk :=
  let put (at_ n : Nat) : Blk :=
    let ys := b.srcBlocks x 0 n
    let b1 := ys.foldl (fun c y => c.srcNote x.p x.d.cseq (b.leadOf x.d.cseq) y 0) b
    (ys.zipIdx.foldl (fun c y => c.putBlock x (at_ + y.2) y.1.y) b1).markWritten x (x.me * 2 ^ 24 + 2 ^ 23) (contribSamples (ys.map (fun y => y.y))).1
  if x.d.op = 3 then put (x.d.share x.g x.me).1 (x.d.share x.g x.me).2
  else if x.d.op = 4 ∧ x.me = x.d.cap then put 0 x.d.count
  else b

/-- The member's own rows of an exchange, packed, with what their checks found. -/
def Blk.ownRows (b : Blk) (x : CollAt) : List SrcBlk :=
  b.packRows x (b.rowsAt x (if x.d.op = 7 then dispatchRows (b.routes x) x.d.cap x.me else b.combineRows x x.me))

/-- The blocks of one member's rows of an exchange; none until the last chunk is there. -/
def Blk.rowsFrom (b : Blk) (x : CollAt) (k : Nat) : Option (List Block) :=
  if k = x.me then
    some ((b.ownRows x).map (fun y => y.y))
  else
    match (b.flowsOf x.p x.d.cseq).find? (fun w => w.recv && w.grank == k) with
    | none => some []
    | some w =>
      let cs := (List.range (b.flowLen x w)).map (fun i => x.have_ 4 i k)
      if cs.any Option.isNone then none else some ((cs.filterMap id).flatten.map blockOf)

/-- Rows written to DST as bytes, with aglets from the blocks they came in. -/
def Blk.putBytes (b : Blk) (x : CollAt) (j : Nat) (xs : List Byte) (poison : Nat → Bool) (a : Aglet) : Blk :=
  (List.range ((xs.length + 4095) / 4096)).foldl (fun c k =>
    c.putDst x (j + k) (((xs.drop (4096 * k)) ++ zeros 4096).take 4096) a.version a.samples (poison k)) b

/-- An exchange whose rows have all arrived writes its DST (R354, R355). -/
def Blk.exchange (b : Blk) (x : CollAt) : Blk :=
  let got := (List.range x.g).map (fun k => b.rowsFrom x k)
  let counts := (List.range x.g).map (fun k => if k = x.me then let r := (routedTo (b.routes x) x.me).length
                                                                some (min r x.d.cap, r - x.d.cap)
    else (x.st.counts.find? (fun n => n.1 == k)).map (fun n => n.2))
  if x.st.written ≠ [] ∨ got.any Option.isNone = true ∨ (x.d.op = 7 ∧ counts.any Option.isNone = true) then b
  else
    let n := x.d.rowBytes
    let from_ := got.filterMap id
    let a := Aglet.parse ((((from_.find? (fun y => y != [])).getD []).head?.map (fun y => y.agl)).getD aglet0)
    let poisoned (k row : Nat) : Bool :=
      ((from_.getD k []).zipIdx.any (fun y => (Aglet.parse y.1.agl).poison && decide (4096 * y.2 < (row + 1) * n) && decide (row * n < 4096 * (y.2 + 1))))
    let rowOf (k row : Nat) : List Byte := ((((from_.getD k []).map (fun y => y.pay)).flatten.drop (row * n)) ++ zeros n).take n
    let rs := b.routes x
    let rows : List (List Byte × Bool) :=
      if x.d.op = 7 then ((List.range x.g).map (fun k => (List.range x.d.cap).map (fun j => (rowOf k j, poisoned k j)))).flatten
      else (List.range x.d.count).map (fun i =>
        let k := rs.getD i 0xFFFF
        let j := (routedTo (rs.take i) k).length
        if k < x.g ∧ j < x.d.cap then (rowOf k j, poisoned k j) else (zeros n, false))
    let bad (k : Nat) : Bool := rows.zipIdx.any (fun r => r.1.2 && decide (4096 * k < (r.2 + 1) * n) && decide (r.2 * n < 4096 * (k + 1)))
    let lead := b.leadOf x.d.cseq
    let rb := b.routesBad x
    let b0 := (b.ownRows x).foldl (fun c y => c.srcNote x.p x.d.cseq lead y 0) (b.srcNote x.p x.d.cseq lead { st := rb.1, y := ⟨[], aglet0⟩, at_ := rb.2 } 0)
    let b1 := b0.putBytes x 0 ((rows.map (fun r => r.1)).flatten) bad a
    let b2 := if x.d.op ≠ 7 then b1
      else
        let at_ := (x.g * x.d.cap * n + 4095) / 4096
        let cs := counts.filterMap id
        let sat (v : Nat) : List Byte := leBytes 2 (min 65535 v)
        let cb := (cs.map (fun c => sat c.1)).flatten ++ (cs.map (fun c => sat c.2)).flatten
        let ov := overflowed rs x.g x.d.cap
        let mask := (List.range x.d.count).map (fun i => if ov.contains i then (1 : Byte) else 0)
        let z := { x with d := { x.d with fmt := 0x0B } }
        let y := { x with d := { x.d with fmt := 0x0A } }
        let b3 := (b1.putBytes z at_ cb (fun _ => false) a).putBytes y (at_ + (cb.length + 4095) / 4096) mask (fun _ => false) a
        let b4 := b3.onColl x.p x.d.cseq (fun c => { c with overflow := ov.length })
        if ov = [] then b4 else (b4.collFlag x.p x.d.cseq 11).bump ⟨.LAC_A2A_OVF_CNT, lead, 0⟩ ov.length
    let b5 := if x.d.op = 7 ∧ rs.any (fun r => decide (x.g ≤ r) && decide (r < 0xFFFF)) = true then b2.collFlag x.p x.d.cseq 12 else b2
    b5.markWritten x 1 a.samples

/-! ### Running a collective on -/

/-- All the work that what has arrived allows. -/
def Blk.collRun (b : Blk) (p q : Nat) : Blk :=
  match b.collAt p q with
  | none => b
  | some x0 =>
    if !x0.st.started || x0.st.complete then b
    else
      let each (f : Blk → CollAt → Nat → Blk) (ts : List Nat) (c : Blk) : Blk :=
        ts.foldl (fun d t => match d.collAt p q with | some x => f d x t | none => d) c
      let ts := List.range x0.d.chunks
      let b1 :=
        if x0.d.reduces then
          let c := if x0.ring then each Blk.ringChunk ts b else each Blk.reduceChunk (ts.filter (fun t => decide (t % x0.g = x0.me))) b
          if x0.d.op = 1 then each Blk.resultChunk (ts.filter (fun t => decide (t % x0.g ≠ x0.me))) c else c
        else if x0.d.op = 7 ∨ x0.d.op = 8 then b.exchange x0
        else b.moveChunks x0
      b1.pump p q

/-- A collective is armed: every valid arm triple has been reported (R342); a triple of a lost die's cluster is not waited for (R39, log entry 74). -/
def Blk.armed (b : Blk) (x : CollAt) : Bool :=
  x.d.arms.zipIdx.all (fun t => !tripOk t.1 || bitOf x.st.reports t.2 || b.fenced (clDie (tripCl t.1)))

/-- FENCING is in force (R363). -/
def Blk.fencing (b : Blk) (d : Nat) : Bool := b.rf ⟨.LAC_EPOCH, d, 0⟩ Fld.LAC_EPOCH_FENCING == 1

/-- COLLECTIVE_ARM_REPORT: the first 0 of an arm counter in the attempt. The contexts of an armed collective are armed. After a fence no collective is armed (log entry 178). -/
def Blk.armReport (b : Blk) (p q t : Nat) : Blk :=
  match b.collAt p q with
  | none => b
  | some x =>
    let tr := x.d.arms.getD t 0
    if t < 4 ∧ tripOk tr = true ∧ (b.stepOf p).aborted = false ∧ b.fencing (b.leadOf q) = false ∧ b.ctr (tripCl tr) (tripCtr tr) = 0 ∧ b.partOf (tripCl tr) = some p then
      let b1 := b.onColl p q (fun c => { c with reports := setBit c.reports t true })
      if (b1.collAt p q).any b1.armed then
        b1.onPart p (fun y => { y with flows := y.flows.map (fun (w : Flow) => if w.relay || w.cseq != q || w.state != 0 then w else { w with state := 1 }) })
      else b1
    else b

/-- A collective may start (R357): armed, its predecessor started, within 4,096 of the lowest that has not completed; its lead's engine takes collectives. -/
def Blk.mayColl (b : Blk) (x : CollAt) : Bool :=
  let cs := ((b.part x.p).map (fun y => y.colls)).getD []
  let low := ((cs.filter (fun c => !c.complete)).map (fun c => c.cseq)).foldl min x.d.cseq
  let lead := b.leadOf x.d.cseq
  b.armed x && !x.st.started && !x.st.complete && (decide (x.d.pred = x.d.cseq) || cs.any (fun c => c.cseq == x.d.pred && c.started)) && decide (x.d.cseq < low + 4096) &&
  b.unitUp (unitId lead 0) && !b.flowsHeld x.p && decide ((b.stepOf x.p).state ≠ 5)

/-- Bytes of HBM inside the partition's regions. -/
def Blk.hbmIn (b : Blk) (p a n : Nat) : Bool := decide (a + n ≤ 4096 * (b.hbmP * hbmD)) && b.granted p (.hbm a) n

/-- SRC, DST and AUX lie inside the partition's regions. -/
def Blk.collAddrOk (b : Blk) (x : CollAt) : Bool :=
  let n := 4096 * x.d.count
  let rows (r : Nat) : Nat := r * x.d.rowBytes
  let up (v : Nat) : Nat := (v + 4095) / 4096 * 4096
  match x.d.op with
  | 1 | 2 => b.hbmIn x.p x.d.src n && b.hbmIn x.p x.d.dst n
  | 3 => b.hbmIn x.p x.d.src (4096 * (x.d.share x.g x.me).2) && b.hbmIn x.p x.d.dst n
  | 4 => (decide (x.me ≠ x.d.cap) || b.hbmIn x.p x.d.src n) && b.hbmIn x.p x.d.dst n
  | 5 | 9 => b.hbmIn x.p x.d.src n
  | 6 => b.hbmIn x.p x.d.dst n
  | 7 => b.hbmIn x.p x.d.src (rows x.d.count) && b.hbmIn x.p x.d.aux (2 * x.d.count) && b.hbmIn x.p x.d.dst (up (rows (x.g * x.d.cap)) + up (4 * x.g) + up x.d.count)
  | 8 => b.hbmIn x.p x.d.src (rows (x.g * x.d.cap)) && b.hbmIn x.p x.d.aux (2 * x.d.count) && b.hbmIn x.p x.d.dst (up (rows x.d.count))
  | _ => false

/-! ### Completion (R342 to R344, R367) -/

/-- The version that a forward ALL_GATHER found (R270): another than the current one where a shard shows it, of those received or of the member's own, which is all that SRC
holds. -/
def Blk.gatherFound (b : Blk) (x : CollAt) (cur : Nat) : Nat :=
  let seen := ((x.st.contribs.map (fun c => c.2.2)).flatten ++ (b.srcBlocks x 0 (x.d.share x.g x.me).2).map (fun y => pairOf y.y)).map (fun y => (Aglet.parse y.2).version)
  (seen.find? (fun v => decide (v ≠ cur))).getD cur

/-- A collective completes: signals, record, and what its status does to the attempt. -/
def Blk.collEnd (b : Blk) (p q : Nat) : Blk :=
  match b.collAt p q with
  | none => b
  | some x =>
    if x.st.complete then b
    else
      let st := x.st.status
      let b1 := (b.onColl p q (fun c => { c with complete := true })).onPart p (fun y => { y with flows := y.flows.map (fun (w : Flow) =>
        if w.relay || w.cseq != q then w else { w with state := if st = 0 then 5 else 6 }) })
      let b2 := x.d.sigs.foldl (fun c t => if tripOk t then c.signal (tripCl t) (tripCtr t) 0xFFFF true else c) b1
      let b5 := (b2.collStore p x.d.op x.d.record x.st).lacShow
      let found := if x.d.op = 3 ∧ x.d.regath = false ∧ x.d.chkVer = true ∧ (st = 0 ∨ st = 0x23) then
          let cl := tripCl (x.d.arms.headD 0)
          (b5.clustersOf p).foldl (fun c k => c.onPart p (fun y => { y with found := slotPut y.found (65536 * k + x.d.srcTag) (b.gatherFound x (y.version cl x.d.srcTag)) })) b5
        else b5
      if st = 0 ∨ st = 0x32 then found
      else if st = lacAddress then found.haltFlag p 1
      else if st = 0x24 then found.flag p fStale
      else
        let b6 := found.fault p 0xFFFF true
        if st = lacNoRoute ∨ st = lacTimeout ∨ st = lacOrder then (if (b6.stepOf p).open? then b6.abortAttempt p else b6) else b6

/-- Whether every flow has finished and every result is written. -/
def Blk.collDone (b : Blk) (x : CollAt) : Bool :=
  let want := match x.d.op with
    | 1 => x.d.chunks
    | 2 => ownedChunks x.d.chunks x.g x.me
    | 3 => ((List.range x.g).filter (fun k => decide (k ≠ x.me))).foldl (fun n k => n + x.d.chunksOf (x.d.share x.g k).2) 1
    | 4 => if x.me = x.d.cap then 1 else x.d.chunks
    | 6 => x.d.chunks
    | 7 | 8 => 1
    | _ => 0
  decide (want ≤ x.st.written.length) &&
  (b.flowsOf x.p x.d.cseq).all (fun w => if w.recv then decide (b.flowLen x w ≤ w.done) else decide (b.flowLen x w ≤ w.acked))

/-- The blocks that a collective reads on this package (R353 to R355). -/
def CollAt.reads (x : CollAt) : List Nat :=
  let n := match x.d.op with
    | 3 => (x.d.share x.g x.me).2
    | 4 => if x.me = x.d.cap then x.d.count else 0
    | 6 => 0
    | 7 => x.d.rowBlocks x.d.count
    | 8 => x.d.rowBlocks (x.g * x.d.cap)
    | _ => x.d.count
  (List.range n).map (fun i => x.d.src / 4096 + i)

/-- COLLECTIVE_COMPLETE. -/
def Blk.collComplete (b : Blk) (p q : Nat) : Blk :=
  match b.collAt p q with
  | some x => if x.st.started && !x.st.complete && b.collDone x then b.collEnd p q else b
  | none => b

/-- One flow that an eyelet out of service carried: it moves and resends from ACKED, or its collective has no route. -/
def Blk.moveFlow (b : Blk) (p e : Nat) (w : Flow) : Blk :=
  let ok (x : Nat) : Bool := b.eyeUsable x && decide (x ≠ e)
  match b.rideOn ok p w.peer w.acked with
  | none => match b.collAt p w.cseq with
    | some x => if x.st.started && !x.st.complete then (b.collNote p w.cseq lacNoRoute w.peer w.acked).collEnd p w.cseq else b
    | none => b
  | some next =>
    let again := if w.recv then [] else (List.range (w.done - w.acked)).filterMap (fun i => b.rideOn ok p w.peer (w.acked + i))
    let b1 := b.onFlow p w.ctx (fun f => { f with eye := next, done := if f.recv then f.done else f.acked })
    (again.foldl (fun c y => c.bump ⟨.LAC_RESEND_CNT, eyeDie y, 0⟩) b1).pump p w.cseq

/-- LINK_DOWN: the flows of an eyelet that is down, excluded or of a fenced engine (R365, R367). A flow is striped over all eyelets of its peer, so each flow to a member that
the eyelet leads to is affected. -/
def Blk.linkDown (b : Blk) (e : Nat) : Blk :=
  match b.partOfEye e with
  | none => b
  | some p =>
    if b.eyeUsable e then b
    else
      let leads (l : Last) (r : Nat) : Bool := l.cut.any (fun c => c.eye == e && (c.peer == r || l.relays.contains (r, c.peer)))
      let ws := match b.part p with
        | some x => x.flows.filter (fun (w : Flow) => (decide (w.eye = e) || x.last.any (fun l => leads l w.peer)) && !w.relay && decide (w.state < 5))
        | none => []
      ws.foldl (fun c w => c.moveFlow p e w) b

/-- The blocks of DST that a collective has written. -/
def CollAt.wrote (x : CollAt) : List Nat :=
  let run (r : Nat × Nat) : List Nat := (List.range r.2).map (fun k => r.1 + k)
  match x.d.op with
  | 1 | 2 => (x.st.written.map (fun t => run (x.d.span x.d.count t))).flatten
  | 3 => (x.st.written.map (fun k =>
      let r := x.d.share x.g (k / 2 ^ 24)
      if 2 ^ 23 ≤ k % 2 ^ 24 then run r else let z := x.d.span r.2 (k % 2 ^ 24); run (r.1 + z.1, z.2))).flatten
  | 4 | 6 => (x.st.written.map (fun k => if 2 ^ 23 ≤ k % 2 ^ 24 then List.range x.d.count else run (x.d.span x.d.count (k % 2 ^ 24)))).flatten
  | 7 => if x.st.written = [] then [] else List.range (x.d.rowBlocks (x.g * x.d.cap) + (4 * x.g + 4095) / 4096 + (x.d.count + 4095) / 4096)
  | 8 => if x.st.written = [] then [] else List.range (x.d.rowBlocks x.d.count)
  | _ => []

/-- The lacing engine of an I/O die carries flows: it is neither fenced nor under test, suspect or FAILED. -/
def Blk.lacCarries (b : Blk) (d : Nat) : Bool :=
  decide (b.rf ⟨.LAC_STATE, d, 0⟩ Fld.LAC_STATE_FENCED = 0) && !(decide (2 ≤ b.role (unitId d 0)) && decide (b.role (unitId d 0) ≤ 5))

/-- The flows of every lacing engine that carried flows in `b0` and does not now move to other engines' eyelets (R365, R387). -/
def Blk.flowsFollow (b b0 : Blk) : Blk :=
  (b0.iodsUp.filter (fun d => b0.lacCarries d && !b.lacCarries d)).foldl (fun c d => (dieEyes d).foldl (fun c e => c.linkDown e) c) b

/-- LAC_FAULT (R367): the blocks written are poisoned, the collective completes, the engine is fenced and tested, and the flows of its eyelets move. -/
def Blk.lacFaultOn (b : Blk) (p q d : Nat) : Blk :=
  match b.collAt p q with
  | none => b
  | some x =>
    let b1 := x.wrote.foldl (fun c j => match c.hbmGet (x.d.dst / 4096 + j) with
      | some y => c.hbmPut (x.d.dst / 4096 + j) y.poisoned
      | none => c) b
    let b2 := ((b1.collNote p q lacFault 0xFFFF 0).collFlag p q 10).collEnd p q
    let b3 := (b2.unitFault (unitId d 0) .fault false 0xFFFF true false).evPart p 5
    b3.flowsFollow b

/-- The acknowledgement of a receive flow, naming its DONE. -/
def Blk.cackSend (b : Blk) (x : CollAt) (w : Flow) : Blk := b.msgSend x.p { (b.flowMsg x w 6 0 [] [w.done]) with aglets := false }

/-- Chunks that came before the start are acknowledged at it, where CACK_EVERY of them stand or the flow has ended (R346). -/
def Blk.earlyAcks (b : Blk) (p q : Nat) : Blk :=
  match b.collAt p q with
  | none => b
  | some x => ((b.flowsOf p q).filter (fun w => w.recv && decide (w.done ≠ 0))).foldl (fun c w =>
      if max 1 (c.rf ⟨.LAC_CFG, eyeDie w.eye, 0⟩ Fld.LAC_CFG_CACK_EVERY) ≤ w.done ∨ c.flowLen x w ≤ w.done then c.cackSend x w else c) b

/-- Blocks that came before the start, compared with the version read at launch, and their stale flags (R178, R342, R347). -/
def Blk.earlyCheck (b : Blk) (x : CollAt) : Blk :=
  match x.st.ver with
  | none => b
  | some v =>
    let old (y : List Byte × BitVec 128) : Bool := let a := Aglet.parse y.2; (decide (a.version ≠ v) || a.stale) && !a.poison
    let b1 := (x.st.contribs.filter (fun c => c.2.2.any old)).foldl (fun d c =>
      let i := c.1 % 2 ^ 24
      d.collNote x.p x.d.cseq (lacOf (x.d.regath && decide (x.d.op = 3)) .version) (x.ms.getD c.2.1 0xFFFF)
        (if x.d.reduces then x.findex c.2.1 x.me (decide (c.1 / 2 ^ 24 = 3)) i else i)) b
    b1.onColl x.p x.d.cseq (fun c => { c with contribs := c.contribs.map (fun y => (y.1, y.2.1, y.2.2.map (fun z => if old z then pairOf (blockOf z).poisoned else z))) })

/-- A collective of one operation starts on the package. `lf` says that the lead's engine fails a check of its own. -/
def Blk.collStart (b : Blk) (p q op : Nat) (lf : Bool) : Blk :=
  match b.collAt p q with
  | none => b
  | some x =>
    if x.d.op ≠ op ∨ b.mayColl x = false then b
    else if !b.collAddrOk x then ((b.onColl p q (fun c => { c with started := true })).collNote p q lacAddress 0xFFFF 0).collEnd p q
    else
      let live := (b.stepOf p).count
      let lead := b.leadOf q
      let ver0 := b.collVersion x
      let b1 := b.onColl p q (fun c => { c with started := true, live := live, ver := ver0 })
      let ver := ver0.getD 0
      let b2 := (b1.onPart p (fun y => { y with flows := y.flows.map (fun (w : Flow) =>
        if w.relay || w.cseq != q then w else { w with state := 2, version := ver }) })).lacShow
      if lf then b2.lacFaultOn p q lead
      else match (b2.flowsOf p q).find? (fun w => b2.cutTo p w.peer == []) with
      | some w => (b2.collNote p q lacNoRoute w.peer 0).collEnd p q
      | none => match b2.collAt p q with
        | none => b2
        | some y => (((b2.earlyCheck y).ownMove y).earlyAcks p q).collRun p q

/-! ### Chunks received (R346, R347, R359, R362, R364) -/

/-- A chunk's place against the context (R347): 0 the same, 1 earlier, 2 later. -/
def chunkAge (s attempt mStep mAttempt : Nat) : Nat :=
  let d := (mStep + 65536 - s % 65536) % 65536
  if d = 0 then (if mAttempt = attempt then 0 else if mAttempt < attempt then 1 else 2)
  else if d < 32768 then 2 else 1

/-- The aglet generated for a block from an older peer, as for a seat write (R26, R359). -/
def ingress (w : Flow) (pay : List Byte) : Block :=
  Block.make pay { pcrc := 0, tag := w.tag, version := w.version, format := 0, flags := 0, epoch := w.epoch, kind := 0xA, samples := 0 } false (pay.all (fun y => y == 0)) false false

/-- One received block checked against its flow context: status and block as it goes on (R347, R362). The version expected is read at launch: blocks that come before it are compared then. -/
def Blk.chunkCheck (b : Blk) (x : CollAt) (w : Flow) (res : Bool) (y : Block) : Nat × Block :=
  let a := Aglet.parse y.agl
  let tag := if res && x.d.reduces then x.d.dstTag else x.d.srcTag
  let cur := b.rf ⟨.LAC_EPOCH, b.leadOf x.d.cseq, 0⟩ Fld.LAC_EPOCH_EPOCH
  let fmtOk := if a.format = 0 then w.herit else decide (a.format = x.d.fmt)
  let r := y.check { tag := if w.herit then a.tag else tag, format := a.format, epoch := none, version := if x.st.started then x.st.ver else none }
  if r.1 = .agletCrc ∨ r.1 = .poisonIn then (lacOf false r.1, r.2)
  else if r.1 = .agletId ∨ fmtOk = false then (0x22, y.poisoned)
  else if a.epoch ≠ x.d.epoch then
    if a.epoch = (cur + 4095) % 4096 then (if decide (x.d.epoch = cur) && b.lac.fencedOnce then (lacEpoch, y.poisoned) else (0, y))
    else (0x22, y.poisoned)
  else if r.1 = .version then (lacOf (x.d.regath && decide (x.d.op = 3)) .version, y.poisoned)
  else (0, y)

/-- The contiguous count after a chunk, over chunks held out of order. -/
def advanceDone : Nat → Nat → List Nat → Nat
  | 0, n, _ => n
  | k + 1, n, held => if held.contains n then advanceDone k (n + 1) held else n

/-- The key under which a received chunk is kept: by tensor chunk for reductions, else by its index. -/
def CollAt.keep (x : CollAt) (w : Flow) (kind i : Nat) : Nat :=
  if x.d.reduces then x.tchunk w.grank x.me (w.resAt i) (w.local_ i) + 2 ^ 24 * (if kind = 3 then 3 else 1) else i + 2 ^ 24 * kind

/-- A chunk of an old epoch after the fence is discarded, counted and recorded, and its collective completes with LAC_EPOCH (R343, R362). -/
def Blk.epochLate (b : Blk) (x : CollAt) (e src chunk : Nat) : Blk :=
  (((b.bump ⟨.LAC_EPOCH_ERR_CNT, eyeDie e, 0⟩).record { code := 0x0043, die := eyeDie e, part := x.p, data := leBytes 2 src ++ leBytes 2 x.d.cseq }).collNote
    x.p x.d.cseq lacEpoch src chunk).collEnd x.p x.d.cseq

/-- A block of an epoch one ahead of the package's waits in the link buffer. -/
def Blk.epochAhead (b : Blk) (x : CollAt) (m : Msg) : Bool :=
  let cur := b.rf ⟨.LAC_EPOCH, b.leadOf x.d.cseq, 0⟩ Fld.LAC_EPOCH_EPOCH
  m.aglets && m.blocks.any (fun y => decide ((Aglet.parse y.2).epoch = (cur + 1) % 4096) && decide (x.d.epoch ≠ (cur + 1) % 4096))

/-- A number that names a received block: its sender, collective, chunk and place in it (R382). -/
def rxKey (src cseq chunk i : Nat) : Nat := 2 ^ 63 + 2 ^ 47 * (src % 2 ^ 16) + 2 ^ 31 * (cseq % 2 ^ 16) + 2 ^ 7 * (chunk % 2 ^ 24) + i % 2 ^ 7

/-- A chunk accepted into its flow. -/
def Blk.chunkTake (b : Blk) (x : CollAt) (w : Flow) (e : Nat) (m : Msg) : Blk :=
  let q := x.d.cseq
  let d := eyeDie e
  if m.chunk < w.done ∨ w.held.contains m.chunk = true then b.cackSend x w
  else
    let b0 := if m.aglets then b else b.bump ⟨.LAC_INGRESS_CNT, d, 0⟩ m.blocks.length
    let raw := m.blocks.map (fun y => if m.aglets then blockOf y else ingress w y.1)
    let ys := raw.map (fun y => b.chunkCheck x w (decide (m.kind = 3)) y)
    let bad := (ys.filter (fun y => decide (y.1 = 0x21) || decide (y.1 = 0x22))).length
    let b1 := ys.zipIdx.foldl (fun c y => if y.1.1 = 0x21 ∨ y.1.1 = 0x22 then c.pathNote x.p d (rxKey m.src q m.chunk y.2) else c)
      (if bad = 0 then b0 else b0.bump ⟨.LAC_AGLET_ERR_CNT, d, 0⟩ bad)
    if ys.any (fun y => decide (y.1 = lacEpoch)) then b1.epochLate x e m.src m.chunk
    else
      let b2 := ys.foldl (fun c y => c.collNote x.p q y.1 m.src m.chunk) b1
      let ns := (ys.filter (fun y => decide (y.1 = 0))).map (fun y => (Aglet.parse y.2.agl).samples)
      let want := if w.sampled then w.samples else ns.headD 0
      let b3 := if m.kind = 1 ∧ ns.any (fun n => n != want) = true then b2.collNote x.p q 0x22 m.src m.chunk else b2
      let held := w.held ++ [m.chunk]
      let done := advanceDone (held.length + 1) w.done held
      let now := b3.shankNow d
      let w' : Flow := { w with
        held := held.filter (fun i => decide (done ≤ i)), done := done, prog := now, samples := want, sampled := w.sampled || ns != [], state := if x.st.started then 2 else w.state }
      let b4 := ((b3.tick.bump ⟨.LAC_CHUNK_RX_CNT, d, 0⟩).ctxTouch d w.ctx).onFlow x.p w.ctx (fun _ => w')
      let b5 := b4.onColl x.p q (fun c => { c with contribs := c.contribs ++ [(x.keep w m.kind m.chunk, w.grank, ys.map (fun y => pairOf y.2))] })
      let every := max 1 (b5.rf ⟨.LAC_CFG, d, 0⟩ Fld.LAC_CFG_CACK_EVERY)
      let b6 := if x.st.started && (decide (done / every ≠ w.done / every) || decide (b5.flowLen x w ≤ done)) then b5.cackSend x w' else b5
      b6.collRun x.p q

/-- The receive context of a message, by its sender and what it carries. -/
def Blk.rxFlow (b : Blk) (x : CollAt) (m : Msg) : Option Flow :=
  (b.flowsOf x.p m.cseq).find? (fun w => w.recv && w.peer == m.src && (!x.d.reduces || decide (m.kind = 5 ∨ m.kind = 6) || w.resAt m.chunk == decide (m.kind = 3)))

/-- A data message of a collective, against its flow context. A later step's, attempt's or epoch's chunk stays in the link buffer; one that has been accepted is acknowledged again. `lf` says that the engine
fails a check. -/
def Blk.chunkMsg (b : Blk) (e : Nat) (m : Msg) (kind : Nat) (lf : Bool) : Blk :=
  match b.partOfEye e with
  | none => b
  | some p =>
    match b.collAt p m.cseq, b.lastOf p with
    | some x, some l =>
      match b.rxFlow x m with
      | none => b.onMsg e m kind (fun c _ => c)
      | some w =>
        let age := chunkAge w.step w.attempt m.step m.attempt
        if m.dst = l.rank ∧ (age = 2 ∨ b.epochAhead x m = true) then b
        else b.onMsg e m kind (fun c _ =>
          if age = 1 then c.bump ⟨.LAC_STALE_CHUNK_CNT, eyeDie e, 0⟩
          else if x.st.complete then (if m.chunk < w.done then c.cackSend x w else c)
          else if lf then c.lacFaultOn p m.cseq (eyeDie e)
          else c.chunkTake x w e m)
    | _, _ => b.onMsg e m kind (fun c _ => c)

/-- A2A_COUNT: valid and overflowed rows of a sender. -/
def Blk.a2aCount (b : Blk) (e : Nat) (m : Msg) : Blk :=
  match b.partOfEye e with
  | none => b
  | some p =>
    match b.collAt p m.cseq, b.lastOf p with
    | some x, some l =>
      match b.rxFlow x m with
      | none => b.onMsg e m 5 (fun c _ => c)
      | some w =>
        let age := chunkAge w.step w.attempt m.step m.attempt
        if m.dst = l.rank ∧ age = 2 then b
        else b.onMsg e m 5 (fun c _ =>
          if age = 1 then c.bump ⟨.LAC_STALE_CHUNK_CNT, eyeDie e, 0⟩
          else
            let k := x.ms.idxOf m.src
            (c.onColl p m.cseq (fun y => { y with counts := y.counts.filter (fun n => n.1 != k) ++ [(k, m.words.getD 0 0, m.words.getD 1 0)] })).collRun p m.cseq)
    | _, _ => b.onMsg e m 5 (fun c _ => c)

/-- CACK: chunks up to DONE are acknowledged, and the flow goes on. -/
def Blk.cack (b : Blk) (e : Nat) (m : Msg) : Blk :=
  b.onMsg e m 6 (fun c p =>
    match (c.flowsOf p m.cseq).find? (fun w => !w.recv && w.peer == m.src && decide (chunkAge w.step w.attempt m.step m.attempt = 0) && decide (w.acked < m.words.headD 0) &&
      decide (m.words.headD 0 ≤ w.done)) with
    | none => c
    | some w =>
      let now := c.shankNow (eyeDie e)
      ((c.tick.ctxTouch (eyeDie e) w.ctx).onFlow p w.ctx (fun f => { f with acked := m.words.headD 0, prog := now })).pump p m.cseq)

/-- The job's PUT that a PARTNER chunk belongs to: the descriptor of its CSEQ, else of the first PUT, whose chunk length and fields every member's PUT shares (log entry 67). -/
def Last.putOf (l : Last) (cseq : Nat) : Option CollDesc :=
  let ds := (l.colls.map CollDesc.parse).filter (fun d => d.op == 9)
  match ds.find? (fun d => d.cseq == cseq) with
  | some d => some d
  | none => ds.head?

/-- A block of a PARTNER chunk checked (R347): what it shows against the PUT, but for a securing's (R417), and the block as it is written, with an aglet generated as on OUT (R353). -/
def Blk.putCheck (b : Blk) (l : Last) (cseq : Nat) (again : Bool) (y : Block) : Nat × Block :=
  let a := Aglet.parse y.agl
  let cur := b.rf ⟨.LAC_EPOCH, iod0, 0⟩ Fld.LAC_EPOCH_EPOCH
  let own := if cseq = 0xFFFF then none else l.putOf cseq
  let late := own.any (fun d => decide (a.epoch ≠ d.epoch)) && decide (a.epoch = (cur + 4095) % 4096) && !b.lac.fencedOnce
  let r := y.check { tag := (own.map (fun d => d.dstTag)).getD a.tag, format := (own.map (fun d => d.fmt)).getD a.format, epoch := if late then none else own.map (fun d => d.epoch), version := none }
  let fl := payloadFlags a.format y.pay
  (lacOf false r.1, if cseq = 0xFFFF then (if r.1 = .ok then y else y.poisoned) else Block.make y.pay a (r.1 != .ok) fl.1 (fl.2 || a.nonfin) again)

/-- What has come of a PUT so far. -/
def Blk.putRx (b : Blk) (p : Nat) (m : Msg) : PutRx :=
  (((b.part p).map (fun x => x.puts)).getD []).find? (fun y => decide (y.cseq = m.cseq ∧ y.step = m.step)) |>.getD { cseq := m.cseq, step := m.step, attempt := m.attempt, done := 0, held := [] }

/-- The acknowledgement of PARTNER chunks, naming DONE. -/
def Blk.putAck (b : Blk) (p : Nat) (m : Msg) (done : Nat) : Blk :=
  b.msgSend p { (b.mkMsg p 6 m.src m.cseq) with vc := 4, step := m.step, attempt := m.attempt, words := [done] }

/-- PARTNER chunks accepted: written, checked, counted, acknowledged as any flow's (R346, R353). A block that fails a check is written poisoned and sets FAULT (R364). Chunk 0 of a securing carries its directory
block, and is written as often as it comes. -/
def Blk.putTake (b : Blk) (p e : Nat) (l : Last) (m : Msg) : Blk :=
  let d := eyeDie e
  let own := l.putOf m.cseq
  let len := (own.map (fun x => x.cblk)).getD 4
  let at_ := m.chunk * len
  let x := b.putRx p m
  let dir := decide (m.cseq = 0xFFFF) && decide (m.chunk = 0)
  let now := b.shankNow d
  if m.src ≠ l.partner.1 ∨ l.partner.2.2.2 < at_ + m.blocks.length then
    b.tick.wn ⟨.LAC_ERR, d, 0⟩ (0x18 + 2 ^ 8 * 9 + 2 ^ 16 * m.cseq + 2 ^ 32 * m.src + 2 ^ 48 * (m.chunk % 2 ^ 24) + 2 ^ 72 * (now.toNat % 2 ^ 40))
  else if !dir && (decide (m.chunk < x.done) || x.held.contains m.chunk) then b.putAck p m x.done
  else
    let base := b.regionBase (l.partner.2.1 == 1) + l.partner.2.2.1 + at_
    let ys := m.blocks.map (fun y => b.putCheck l m.cseq (decide (m.attempt ≠ 0)) (blockOf y))
    let bad := (ys.filter (fun y => decide (y.1 = 0x21) || decide (y.1 = 0x22))).length
    let b0 := ys.zipIdx.foldl (fun c y => c.hbmPut (base + y.2) y.1.2) b
    let b1 := ys.zipIdx.foldl (fun c y => if y.1.1 = 0x21 ∨ y.1.1 = 0x22 then c.pathNote p d (rxKey m.src m.cseq m.chunk y.2) else c)
      (if bad = 0 then b0 else b0.bump ⟨.LAC_AGLET_ERR_CNT, d, 0⟩ bad)
    let b2 := if ys.any (fun y => decide (y.1 ≠ 0)) then b1.fault p 0xFFFF true else b1
    let fresh := dir && decide (leNat ((((m.blocks.headD ([], 0)).1).drop 4).take 4) = 0)
    let held := if fresh then [0] else if dir then x.held else x.held ++ [m.chunk]
    let done := advanceDone (held.length + 1) (if fresh then 0 else x.done) held
    let b3 := b2.onPart p (fun y => { y with
      puts := y.puts.filter (fun z => !(decide (z.cseq = m.cseq) && (decide (z.cseq = 0xFFFF) || decide (z.step = m.step)))) ++
        [{ x with done := done, held := held.filter (fun i => decide (done ≤ i)) }] })
    let every := max 1 (b3.rf ⟨.LAC_CFG, d, 0⟩ Fld.LAC_CFG_CACK_EVERY)
    let last := if m.cseq = 0xFFFF then true else own.any (fun z => decide (z.chunks ≤ done))
    let b4 := b3.bump ⟨.LAC_CHUNK_RX_CNT, d, 0⟩
    if decide (done / every ≠ x.done / every) || last then b4.putAck p m done else b4

/-- PARTNER: blocks of the buddy's copy, only from the declared member and inside the declared region; chunks follow one another at the length of the job's PUT (log entry 67). An earlier attempt's are discarded, a
later one's stay in the link buffer (R347), but for a securing's (R417). -/
def Blk.partnerMsg (b : Blk) (e : Nat) (m : Msg) : Blk :=
  match b.partOfEye e with
  | none => b
  | some p =>
    match b.part p, b.lastOf p with
    | some x, some l =>
      let age := if m.cseq = 0xFFFF then 0 else chunkAge x.ctxOf.1 x.ctxOf.2 m.step m.attempt
      if m.dst = l.rank ∧ age = 2 then b
      else b.onMsg e m 7 (fun c _ => if age = 1 then c.bump ⟨.LAC_STALE_CHUNK_CNT, eyeDie e, 0⟩ else c.putTake p e l m)
    | _, _ => b

/-- HERITAGE_STEP_STATUS (R361): the closing word formed for an older member from the fields of its step status. It is taken as that member's where it is a child of this one, and else goes on to its parent in the tree. -/
def Blk.heritageStatus (b : Blk) (e : Nat) (overflow error abort : Bool) (samples step repeat_ : Nat) : Blk :=
  match b.partOfEye e with
  | none => b
  | some p =>
    match b.lastOf p with
    | none => b
    | some l =>
      match l.cut.find? (fun c => c.eye == e) with
      | none => b
      | some c =>
        if l.gens.getD c.peer 0 = 0 then b
        else
          let fl := (if overflow then fNonfinite else 0) + (if error then fFault else 0) + (if abort then fHalt else 0)
          let w := cword fl (repeat_ % 16) (if abort then 3 else 0) step samples
          let b1 := b.eyeTake e 0
          if (childRanks l.rank l.members).contains c.peer then (b1.onStep p (fun st => { st with kids := st.kids.filter (fun x => x.1 != c.peer) ++ [(c.peer, w)] })).closeTry p
          else if c.peer = 0 then b1
          else b1.msgSend p { (b1.mkMsg p 0x40 (parentRank c.peer) 1) with src := c.peer, step := step % 65536, attempt := repeat_ % 16, words := [w] }

/-! ### Timeouts and moved flows (R358, R365, R366) -/

/-- COLLECTIVE_ORDER_TIMEOUT. -/
def Blk.orderTimeout (b : Blk) (p q : Nat) : Blk :=
  match b.collAt p q with
  | none => b
  | some x =>
    let cs := ((b.part p).map (fun y => y.colls)).getD []
    if b.armed x && !x.st.started && !x.st.complete && decide (x.d.pred ≠ q) && !(cs.any (fun c => c.cseq == x.d.pred && c.started)) then
      ((b.bump ⟨.LAC_ORDER_TMO_CNT, b.leadOf q, 0⟩).collNote p q lacOrder 0xFFFF 0).collEnd p q
    else b

/-- A flow has chunks outstanding. -/
def Blk.outstanding (b : Blk) (x : CollAt) (w : Flow) : Bool :=
  if w.recv then decide (w.done < b.flowLen x w) else decide (w.acked < b.flowLen x w)

/-- LAC_TIMEOUT: PROGRESS_TMO has passed on a flow of the collective. -/
def Blk.lacTimeoutOn (b : Blk) (p q : Nat) : Blk :=
  match b.collAt p q with
  | none => b
  | some x =>
    match (b.flowsOf p q).find? (fun w => b.outstanding x w) with
    | some w => if x.st.started && !x.st.complete then
        ((b.bump ⟨.LAC_TIMEOUT_CNT, b.leadOf q, 0⟩).collNote p q lacTimeout w.peer w.done).collEnd p q else b
    | none => b

end Sys2Proof.Machine
end

