-- ==== Sys2Proof/Machine/Twins.lean ====
section
/-!
DEFINITION. Twins of persistent blocks, and what a poisoned block brings about (R190, R396 to R401).
-/
namespace Sys2Proof.Machine

/-- Message kinds of the management traffic that the manual leaves without a number (log entry 68). -/
abbrev kindReport : Nat := 0x50
abbrev kindTwinAsk : Nat := 0x51
abbrev kindTwin : Nat := 0x52
abbrev kindUnusable : Nat := 0x53

/-- The members whose coordinates differ from this one's only on the data axis, in ascending data coordinate. -/
def Last.twinRanks (l : Last) : List Nat :=
  let me := coords l.six l.rank
  (List.range l.members).filter (fun r => decide (r ≠ l.rank) &&
    (coords l.six r).zipIdx.all (fun (x : Nat × Nat) => decide (x.2 = l.dataAxis) || decide (x.1 = me.getD x.2 0)))

/-- Elements of a block of a tensor. -/
def Tensor.perBlock (t : Tensor) : Nat := match Fmt.ofCode t.format with | some f => f.perBlock | none => 4096

/-- The block of the partition's tensor with a tag and kind that begins with logical element L. -/
def Blk.holderBlk (b : Blk) (p tag kind l0 : Nat) : Option Nat :=
  (b.lastOf p).bind (fun (l : Last) => (l.tensors.zipIdx.find? (fun (t : Tensor × Nat) => decide (t.1.tag = tag) && decide (t.1.kind = kind))).bind (fun t =>
    (b.tensorAt p t.2).bind (fun at_ =>
      let off := l0 - t.1.lBase
      if t.1.lBase ≤ l0 ∧ off % t.1.perBlock = 0 ∧ off / t.1.perBlock < at_.2 then some (at_.1 + off / t.1.perBlock) else none)))

/-- The tensor that holds a logical block, with the logical index of the block's first element. -/
def Blk.blkItem (b : Blk) (p blk : Nat) : Option (Tensor × Nat) :=
  (b.lastOf p).bind (fun (l : Last) => (l.tensors.zipIdx.findSome? (fun (t : Tensor × Nat) =>
    (b.tensorAt p t.2).bind (fun at_ =>
      if at_.1 ≤ blk ∧ blk < at_.1 + at_.2 then some (t.1, t.1.lBase + (blk - at_.1) * t.1.perBlock) else none))))

/-- The later of two versions, on the ring of 2^16. -/
def verLater (v w : Nat) : Nat := if (w + 65536 - v) % 65536 < 32768 then w else v

/-- The version of a tag in the partition: the latest that any of its live clusters expects. -/
def Blk.versionOf (b : Blk) (p t : Nat) : Nat :=
  match b.part p with
  | some x => match (b.liveClusters p).map (fun cl => x.version cl t) with
    | [] => x.version ((b.clustersOf p).headD 0) t
    | v :: vs => vs.foldl verLater v
  | none => 0

/-- What a copy of a tensor's block must show (R178, checks 1 to 5). -/
def Blk.expectOf (b : Blk) (p tag kind ver : Nat) : Expect :=
  let t := (b.lastOf p).bind (fun (l : Last) => l.tensors.find? (fun (t : Tensor) => decide (t.tag = tag) && decide (t.kind = kind)))
  { tag := tag, format := (t.map (fun (t : Tensor) => t.format)).getD 0, epoch := some (b.rn ⟨.LAC_EPOCH, iod0, 0⟩ % 4096), version := some ver }

/-- A stored block that is poisoned or fails its CRCs. -/
def Blk.blockBad (b : Blk) (blk : Nat) : Bool :=
  match b.hbmGet blk with
  | some x => !agletCrcOk x.agl || decide ((crc32c x.pay).toNat ≠ (Aglet.parse x.agl).pcrc) || (Aglet.parse x.agl).poison
  | none => false

def TwinAsk.words (a : TwinAsk) : List Nat := a.ver :: (a.items.map (fun (i : Nat × Nat × Nat × Nat) => [i.2.1, i.2.2.1, i.2.2.2])).flatten

/-- The request goes to the member being asked (R396). -/
def Blk.sendAsk (b : Blk) (p : Nat) (a : TwinAsk) : Blk :=
  match a.ranks with
  | r :: _ => b.msgSend p { (b.mkMsg p kindTwinAsk r 0) with vc := 4, words := a.words }
  | [] => b

/-- No member has a twin: the job halts, and the loss is recorded (R400). A securing that has not read every block ends with it (R416, R419). -/
def Blk.stateLost (b : Blk) (p : Nat) (a : TwinAsk) : Blk :=
  match a.items with
  | i :: _ => if a.hard then
      let b1 := if a.fin then (b.haltFlag p 3).finGiveUp p else b.haltFlag p 3
      (if (b1.part p).any Part.reading then b1.secureStop p else b1).record { code := 0x0141, die := b.master, part := p, data := leBytes 2 i.2.1 ++ leBytes 6 i.2.2.2 } else b
  | [] => b

/-- A twin asked for, or, with no member to ask, the state lost. An ask that stands is not repeated. -/
def Blk.ask (b : Blk) (p : Nat) (a : TwinAsk) : Blk :=
  match b.part p with
  | none => b
  | some x =>
    if a.items = [] ∨ x.twins.any (fun (y : TwinAsk) => y.items == a.items) = true then b
    else if a.ranks = [] then b.stateLost p a
    else (b.setPart p { x with twins := x.twins ++ [a] }).sendAsk p a

/-- A poisoned master half or moment: a twin at the current version; a split master is repaired as a pair (R398). -/
def Blk.askTwin (b : Blk) (p blk : Nat) (hard : Bool) : Blk :=
  match b.blkItem p blk, b.lastOf p with
  | some (t, l0), some l =>
    let one (k : Nat) : List (Nat × Nat × Nat × Nat) := match b.holderBlk p t.tag k l0 with | some x => [(x, t.tag, k, l0)] | none => []
    let items := if t.kind = 3 then [(blk, t.tag, 3, l0)] else one 1 ++ one 2
    b.ask p { items := items, ver := b.versionOf p t.tag, ranks := l.twinRanks, fin := false, hard := hard }
  | _, _ => b

/-- The partition, and place in its region, whose partner copy a logical block belongs to. -/
def Blk.partnerOwner (b : Blk) (blk : Nat) : Option (Nat × Last) :=
  b.parts.findSome? (fun (x : Nat × Part) => x.2.last.bind (fun (l : Last) =>
    let base := b.regionBase (l.partner.2.1 == 1) + l.partner.2.2.1
    if base ≤ blk ∧ blk < base + l.partner.2.2.2 then some (x.1, l) else none))

/-- A poisoned block of a partner copy, of kind 0xB or of the state record's 0xC (R397): the copy is marked unusable, its directory block no longer COMPLETE (R416), and its
owner is told. A state record in the held half outside a partner region is this package's own, which its next securing writes anew. -/
def Blk.copyLost (b : Blk) (blk : Nat) : Blk :=
  match b.partnerOwner blk with
  | none => b
  | some (p, l) =>
    let dir := b.regionBase (l.partner.2.1 == 1) + l.partner.2.2.1
    let b1 := match (if blk = dir then none else b.hbmGet dir) with
      | some y => b.hbmPut dir (y.patched (y.pay.take 4 ++ zeros 4 ++ y.pay.drop 8) (Aglet.parse y.agl).poison)
      | none => b
    b1.msgSend p { (b.mkMsg p kindUnusable l.partner.1 0) with vc := 4 }

/-- A block found poisoned in HBM is contained by its kind (R397): persistent state is repaired from a twin, a weight copy or its scale image is cast again
before the replay; a copy held for another member is marked unusable; what lives within a step is made again by the replay. -/
def Blk.contain (b : Blk) (p blk : Nat) (hard : Bool) : Blk :=
  if (b.partnerOwner blk).isSome then b.copyLost blk
  else match b.blkItem p blk with
  | some (t, _) =>
    if 1 ≤ t.kind ∧ t.kind ≤ 3 then b.askTwin p blk hard
    else if t.kind = 7 ∨ t.kind = 8 then
      b.onPart p (fun x => { x with recast := if x.recast.contains t.tag then x.recast else x.recast ++ [t.tag] })
    else b
  | none => b

/-- The blocks of persistent state that a stopped FIN_APPLY wants from a twin at its next version: hi, lo, m and v, where one of them fails a check of R178 or the pair's of
R94 (R399). -/
def Blk.finAsk (b : Blk) (p : Nat) (f : Flight) : Blk :=
  let x := b.stoppedAt f
  let algo := dsc f.raw 3 24 2
  let item (i tag kind : Nat) : List (Nat × Nat × Nat × Nat) :=
    match (x.2[i]?).getD none with
    | some (.hbm a) => [(a / 4096, tag, kind, ((b.blkItem p (a / 4096)).map (fun y => y.2)).getD 0)]
    | _ => []
  let items := item 0 x.1.tagW 1 ++ item 1 x.1.tagW 2 ++ (if algo ≤ 1 then item 3 x.1.tagM 3 else []) ++ (if algo = 0 then item 4 x.1.tagV 3 else [])
  let ok (i tag fmt : Nat) : Bool := b.unitBlockOk ((x.2[i]?).getD none) tag fmt x.1.ver
  let sound := ok 0 x.1.tagW 0x01 && ok 1 x.1.tagW 0x0E && (decide (1 < algo) || ok 3 x.1.tagM 0x01) && (decide (0 < algo) || ok 4 x.1.tagV 0x01)
  match b.lastOf p with
  | some l => if !sound || (match (x.2[0]?).getD none, (x.2[1]?).getD none with | some h, some k => !b.isPair h k | _, _ => false) then
      b.ask p { items := items, ver := (x.1.ver + 1) % 65536, ranks := l.twinRanks, fin := true, hard := true } else b
  | none => b

/-- ENGINE_COMPLETION with the containment of the block that it names (R397, R399): a block bad in HBM, or one on which the replay of the step found a path
fault again (R382). -/
def Blk.completion (b : Blk) (cl i : Nat) (cf : Bool) : Blk :=
  match (b.flightsOf cl)[i]? with
  | none => b
  | some f =>
    let p := (b.partOf cl).getD 0xFF
    let code := b.bindOf f
    let loc := b.errLoc f code
    let pair := b.pairBad f code
    let fin := code == 0x10 && decide (opOf code f.raw = 2)
    let b1 := b.engineCompletion cl i cf
    match f.result with
    | none => b1
    | some res =>
      let st := res % 256
      if fin && decide (0x20 ≤ st) && decide (st ≤ 0x23) then b1.finAsk p f
      else match loc with
        | some (.hbm a) =>
          let twice := b1.units.badBlk.contains (a / 4096)
          if (decide (st = 0x20) || decide (st = 0x21) || decide (st = 0x22)) && (b1.blockBad (a / 4096) || twice || pair) then
            ({ b1 with units := { b1.units with badBlk := b1.units.badBlk.filter (fun x => decide (x ≠ a / 4096)) } }).contain p (a / 4096) true
          else b1
        | _ => b1

/-- COLLECTIVE_COMPLETE with the containment of the blocks of the package's own source that are bad in HBM or were bad in the step before its replay (R382, R397). -/
def Blk.collCompletion (b : Blk) (p q : Nat) : Blk :=
  match b.collAt p q with
  | none => b
  | some x =>
    let b1 := b.collComplete p q
    if x.st.complete || !((b1.collAt p q).any (fun y => y.st.complete && decide (y.st.status ≠ 0))) then b1
    else x.reads.foldl (fun c blk =>
      if b.blockBad blk || c.units.badBlk.contains blk then
        ({ c with units := { c.units with badBlk := c.units.badBlk.filter (fun y => decide (y ≠ blk)) } } : Blk).contain p blk true
      else c) b1

/-! ### Requests and replies (R396, R398, R399) -/

/-- The blocks asked for as (tag, kind, L). -/
def triples : Nat → List Nat → List (Nat × Nat × Nat)
  | 0, _ => []
  | n + 1, a :: c :: d :: xs => (a, c, d) :: triples n xs
  | _, _ => []

/-- The blocks that answer a request at a version, none where one is missing or fails a check. -/
def Blk.twinBlocks (b : Blk) (p ver : Nat) (ks : List (Nat × Nat × Nat)) : Option (List Block) :=
  let xs := ks.map (fun (k : Nat × Nat × Nat) => ((b.holderBlk p k.1 k.2.1 k.2.2).bind b.hbmGet).bind (fun (y : Block) =>
    if (y.check (b.expectOf p k.1 k.2.1 ver)).1 = .ok then some y else none))
  if xs.all Option.isSome ∧ xs ≠ [] then some (xs.filterMap id) else none

/-- TWIN_REQUEST: answered with the blocks (1), with none (0), or with word that the version asked for is one ahead (2). -/
def Blk.twinRequest (b : Blk) (e : Nat) (m : Msg) : Blk :=
  b.onMsg e m kindTwinAsk (fun c p =>
    let ver := m.words.headD 0
    let ks := triples m.words.length (m.words.drop 1)
    let ans (st : Nat) (xs : List Block) : Blk :=
      c.msgSend p { (c.mkMsg p kindTwin m.src 0) with vc := 4, aglets := true, words := st :: m.words, blocks := xs.map (fun (y : Block) => (y.pay, y.agl)) }
    match c.twinBlocks p ver ks with
    | some xs => ans 1 xs
    | none => ans (if (c.twinBlocks p ((ver + 65535) % 65536) ks).isSome then 2 else 0) [])

/-- A twin's blocks written over the poisoned ones. -/
def Blk.repair (b : Blk) (p : Nat) (a : TwinAsk) (ys : List Block) : Blk :=
  let b1 := (a.items.zip ys).foldl (fun c (x : (Nat × Nat × Nat × Nat) × Block) => c.hbmPut x.1.1 x.2) b
  let b2 := b1.bump ⟨.AWL_REPAIR_CNT, b.master, 0⟩ ys.length
  match a.items with
  | i :: _ => b2.record { code := 0x0140, die := b.master, part := p, data := leBytes 2 i.2.1 ++ leBytes 6 i.2.2.2 }
  | [] => b2

/-- TWIN_REPLY: a reply whose blocks pass checks 1 to 5 ends the request; a member that will have the version is asked again, else the next one is. -/
def Blk.twinReply (b : Blk) (e : Nat) (m : Msg) : Blk :=
  b.onMsg e m kindTwin (fun c p =>
    match c.part p with
    | none => c
    | some x =>
      match x.twins.find? (fun (a : TwinAsk) => a.words == m.words.drop 1 && a.ranks.head? == some m.src) with
      | none => c
      | some a =>
        let ys := m.blocks.map blockOf
        let ok := decide (m.words.headD 0 = 1) && decide (ys.length = a.items.length) &&
          (a.items.zip ys).all (fun (z : (Nat × Nat × Nat × Nat) × Block) => decide ((z.2.check (c.expectOf p z.1.2.1 z.1.2.2.1 a.ver)).1 = .ok))
        let rest := x.twins.filter (fun (y : TwinAsk) => y.items != a.items)
        if ok then (c.setPart p { x with twins := rest }).repair p a ys
        else if decide (m.words.headD 0 = 2) && a.fin then c.sendAsk p a
        else
          let a' : TwinAsk := { a with ranks := a.ranks.drop 1 }
          if a'.ranks = [] then (c.setPart p { x with twins := rest }).stateLost p a
          else (c.setPart p { x with twins := rest ++ [a'] }).sendAsk p a')

/-! ### Weight copies cast again (R112, R397) -/

/-- The WCOPY descriptors of the schedule in force whose destination carries a tag in `tags` (every one where `all`), as (cluster, descriptor). -/
def Blk.wcopies (b : Blk) (p : Nat) (all : Bool) (tags : List Nat) : List (Nat × BitVec 512) :=
  match b.variantOf p with
  | none => []
  | some v =>
    (v.sched.map (fun (s : Sched) => (s.progs.map (fun (q : QProg) =>
      (entriesOf (q.bytes.length / 16 + 1) q.bytes).filterMap (fun e =>
        let raw := b.patched p s.cl e
        let d := LayDesc.parse raw
        if q.bind = 0x13 ∧ e.kind = 0 ∧ d.op = 4 ∧ (all = true ∨ tags.contains (b.view s.cl d.dst).tag = true) then some (s.cl, raw) else none))).flatten)).flatten

/-- The casts run by the layout engine for the cobbler. -/
def Blk.recastAll (b : Blk) (p : Nat) (all : Bool) (tags : List Nat) : Blk :=
  (b.wcopies p all tags).foldl (fun c (w : Nat × BitVec 512) =>
    (layoutRun c { cl := w.1, part := p, queue := 0, replay := false, recomp := false, cobbler := true, skip := false } w.2 none).b) b

/-- The weight copies found poisoned are cast again before the replay, each recorded. -/
def Blk.recastDue (b : Blk) (p : Nat) : Blk :=
  match b.part p with
  | none => b
  | some x =>
    if x.recast = [] then b
    else x.recast.foldl (fun c t => c.record { code := 0x0142, die := b.master, part := p, data := leBytes 2 t })
      ((b.onPart p (fun y => { y with recast := [] })).recastAll p false x.recast)

/-- A unit that holds registers which every cluster or I/O die of the job holds alike (R403). -/
def Blk.holdsShared (b : Blk) (p u : Nat) : Bool :=
  if unitDie u < 4 then b.partOf (unitCluster u) == some p && [5, 13, 15].contains (unitSlot u % 16) else b.unitExists u

/-- ATTEMPT_START: after the repairs from twins have ended and the weight copies stand (R397, R398). The registers compared at it show the parity errors of `parity`, each a
fault of its holder; the witness unit's affects no result (R381, R403). -/
def Blk.startAttempt (b : Blk) (p : Nat) (parity : List Nat) : Blk :=
  let st := b.stepOf p
  if !b.mayStart p then b
  else if decide (st.abortNext = 0) && (b.part p).any (fun x => x.twins.any (fun (a : TwinAsk) => !a.fin)) then b
  else
    let b1 := (if st.abortNext = 0 then b.recastDue p else b).attemptStart p
    ((parity.filter (b1.holdsShared p)).foldl (fun c u => c.unitFault u .fault (decide (unitSlot u % 16 ≠ 13)) 0xFFFF true false) b1).flowsFollow b

/-! ### Blocks found by scrub, and copies held for another member (R397, R401) -/

/-- The logical block of a physical one in the held half. -/
def Blk.heldBlk (b : Blk) (pc loc : Nat) : Option Nat :=
  match unmapBlock b.chanList 0 pc loc with
  | some x =>
    let h := b.regionBase true
    if loc < hbmD ∧ h ≤ x ∧ x < h + b.hbmP * hbmD / 2 then some x else none
  | none => none

/-- A block that scrub has poisoned: in a partner copy its owner is told that the copy is unusable, elsewhere in the held half it is kept for the boundary. -/
def Blk.scrubPoisoned (b : Blk) (blk : Nat) : Blk :=
  if (b.partnerOwner blk).isSome then b.copyLost blk
  else if b.units.badBlk.contains blk then b else { b with units := { b.units with badBlk := b.units.badBlk ++ [blk] } }

/-- PARTNER_UNUSABLE_NOTICE: the buddy's copy of this package's state is unusable. -/
def Blk.partnerUnusable (b : Blk) (e : Nat) (m : Msg) : Blk :=
  b.onMsg e m kindUnusable (fun c p =>
    if (c.lastOf p).any (fun l => l.buddy == m.src) then c.onPart p (fun x => { x with partnerS := none, guar := setBit x.guar 3 false }) else c)

end Sys2Proof.Machine
end

