-- ==== Sys2Proof/Machine/Securing.lean ====
section
/-!
DEFINITION. Generations and securing: digests, the state record, checkpoint files, the partner layer, the coordinator (R294, R295, R412 to R426).
-/
namespace Sys2Proof.Machine

/-! ### Digests (R295) -/

/-- The PCRC fields of a run of blocks. -/
def Blk.pcrcs (b : Blk) (base n : Nat) : List Nat :=
  (List.range n).map (fun i => ((b.hbmGet (base + i)).map (fun (x : Block) => (Aglet.parse x.agl).pcrc)).getD 0)

/-- The digest of a run of logical blocks: CRC-32C over their PCRC fields in ascending order. -/
def Blk.digestOf (b : Blk) (base n : Nat) : Nat := (crc32c ((b.pcrcs base n).map (leBytes 4)).flatten).toNat

/-- The digest of a tensor by its place in the table. -/
def Blk.tensorDigest (b : Blk) (p i : Nat) : Nat := match b.tensorAt p i with | some x => b.digestOf x.1 x.2 | none => 0

/-- The digests of a step: (tag, format, digest) of every tensor with DIGEST set. -/
def Blk.stepDigests (b : Blk) (p : Nat) : List (Nat × Nat × Nat) :=
  match b.lastOf p with
  | none => []
  | some l => (l.tensors.zipIdx.filter (fun (t : Tensor × Nat) => decide (t.1.digest = 1))).map (fun t => (t.1.tag, t.1.format, b.tensorDigest p t.2))

/-- The PCRC fields behind those digests, in the same order. -/
def Blk.stepPcrcs (b : Blk) (p : Nat) : List (List Nat) :=
  match b.lastOf p with
  | none => []
  | some l => (l.tensors.zipIdx.filter (fun (t : Tensor × Nat) => decide (t.1.digest = 1))).map (fun t =>
    match b.tensorAt p t.2 with | some x => b.pcrcs x.1 x.2 | none => [])

/-! ### What a generation holds (R414) -/

/-- The tensors secured: LIFE 1, but weight copies, partner regions and secured-state images. -/
def Last.secured (l : Last) : List (Tensor × Nat) :=
  l.tensors.zipIdx.filter (fun (t : Tensor × Nat) => decide (t.1.life = 1) && decide (t.1.kind ≠ 7) && decide (t.1.kind ≠ 0xB) && decide (t.1.kind ≠ 0xC))

/-- The state record at the boundary. -/
def Blk.stateRecord (b : Blk) (p : Nat) (x : Part) (l : Last) : StateRec :=
  let cls := b.liveClusters p
  let c0 := cls.headD 0
  let units := (b.regs.filter (fun r => r.1.name == RegName.AWL_UNIT)).map (fun r => (unitId r.1.at_ r.1.idx, Fld.AWL_UNIT_FAULTS.get r.2))
  { s := x.s, crc := l.crc, rank := l.rank, members := l.members, epoch := b.rn ⟨.LAC_EPOCH, iod0, 0⟩ % 4096, layout := x.layout
    versions := (cls.map (fun cl => ((l.tensors.map (fun (t : Tensor) => t.tag)).eraseDups).map (fun t => (65536 * cl + t, x.version cl t)))).flatten
    u := b.rn ⟨.FIN_UPDATE_CNT, c0, 0⟩, scale := b.rn ⟨.FIN_LSCALE, c0, 0⟩, health := x.health
    heads := (cls.map (fun cl => (List.range 16).map (fun q => (cl, q, b.rf (qReg cl q) Fld.SEQ_Q_POS)))).flatten
    ctrs := (cls.map (fun cl => (List.range 256).map (fun n => (cl, n, b.rn (ctrReg cl n))))).flatten
    rngStep := b.rn ⟨.SEQ_RNG_STEP, c0, 0⟩, guar := x.guar, faults := units.filter (fun u => decide (u.2 ≠ 0)), serial := idSerial (b.identWord iod0)
    runS := b.runMs p / 1000, restores := x.restores, variant := x.variant, lacStep := b.rn ⟨.LAC_RNG_STEP, iod0, 0⟩, times := b.units.faultAt }

/-- The record as 64-bit words (the manual gives it no byte layout, log entry 70): fifteen numbers, then each list with its length before it. -/
def StateRec.nums (r : StateRec) : List Nat :=
  let two (xs : List (Nat × Nat)) : List Nat := xs.length :: (xs.map (fun (y : Nat × Nat) => [y.1, y.2])).flatten
  let three (xs : List (Nat × Nat × Nat)) : List Nat := xs.length :: (xs.map (fun (y : Nat × Nat × Nat) => [y.1, y.2.1, y.2.2])).flatten
  [r.s, r.crc, r.rank, r.members, r.epoch, r.layout, r.u, r.scale, r.rngStep, r.guar, r.serial, r.runS, r.restores, r.variant, r.lacStep] ++
    two r.versions ++ two r.health ++ three r.heads ++ three r.ctrs ++ two r.faults ++ two r.times

def StateRec.bytes (r : StateRec) : List Byte := (r.nums.map (leBytes 8)).flatten

/-- `n` groups of `k` numbers taken from the front. -/
def takeGroups (k : Nat) : Nat → List Nat → List (List Nat)
  | 0, _ => []
  | n + 1, xs => xs.take k :: takeGroups k n (xs.drop k)

/-- The numbers read back as a record. -/
def StateRec.ofNums (ns : List Nat) : StateRec :=
  let g (i : Nat) : Nat := ns.getD i 0
  let part (k : Nat) (xs : List Nat) : List (List Nat) × List Nat :=
    let n := min (xs.headD 0) xs.length
    (takeGroups k n (xs.drop 1), xs.drop (1 + k * n))
  let pair (ys : List (List Nat)) : List (Nat × Nat) := ys.map (fun y => (y.getD 0 0, y.getD 1 0))
  let trip (ys : List (List Nat)) : List (Nat × Nat × Nat) := ys.map (fun y => (y.getD 0 0, y.getD 1 0, y.getD 2 0))
  let a := part 2 (ns.drop 15)
  let c := part 2 a.2
  let d := part 3 c.2
  let e := part 3 d.2
  let f := part 2 e.2
  let h := part 2 f.2
  { s := g 0, crc := g 1, rank := g 2, members := g 3, epoch := g 4, layout := g 5, u := g 6, scale := g 7, rngStep := g 8, guar := g 9, serial := g 10
    runS := g 11, restores := g 12, variant := g 13, versions := pair a.1, health := pair c.1, heads := trip d.1, ctrs := trip e.1, faults := pair f.1
    lacStep := g 14, times := pair h.1 }

/-- 64-bit words of bytes. -/
def words8 : Nat → List Byte → List Nat
  | 0, _ => []
  | n + 1, xs => if xs = [] then [] else leNat (xs.take 8) :: words8 n (xs.drop 8)

/-! ### The checkpoint file (R425, R426) -/

def GenTensor.fmt (t : GenTensor) : Fmt := (Fmt.ofCode t.format).getD .ext16

/-- Elements that a tensor table entry's BYTES hold, as packed in blocks (R85, R246). -/
def Tensor.elements (t : Tensor) : Nat :=
  let f := (Fmt.ofCode t.format).getD .ext16
  t.bytes / 4096 * f.perBlock + min f.perBlock (t.bytes % 4096 * 8 / f.bits)

/-- Bytes of a tensor's elements as packed in memory, without the padding of its last block (R426). -/
def GenTensor.packed (t : GenTensor) : Nat :=
  let k := (t.n - 1) / t.fmt.perBlock
  if t.n = 0 then 0 else 4096 * k + ((t.n - k * t.fmt.perBlock) * t.fmt.bits + 7) / 8

/-- Bytes rounded up to 4 KiB. -/
def up4k (n : Nat) : Nat := (n + 4095) / 4096 * 4096

/-- A part padded with zeros to 4 KiB. -/
def pad4k (xs : List Byte) : List Byte := xs ++ zeros (up4k xs.length - xs.length)

/-- The sections of a generation in tensor order: a master's two halves make one (FORM 1), any other tensor its own (FORM 2). -/
def Gen.parts (g : Gen) : List (GenTensor × Option GenTensor) :=
  g.tensors.filterMap (fun (t : GenTensor) =>
    if t.kind = 2 ∧ g.tensors.any (fun (u : GenTensor) => decide (u.tag = t.tag) && decide (u.kind = 1)) = true then none
    else if t.kind = 1 then some (t, g.tensors.find? (fun (u : GenTensor) => decide (u.tag = t.tag) && decide (u.kind = 2)))
    else some (t, none))

/-- Bytes of a section. -/
def sectionLen (x : GenTensor × Option GenTensor) : Nat := if x.2.isSome then 4 * x.1.n else x.1.packed

/-- A section: a split master as binary32 words, hi over lo; other tensors as they are held, without the last block's padding. -/
def sectionBytes (x : GenTensor × Option GenTensor) : List Byte :=
  match x.2 with
  | none => x.1.blocks.flatten.take x.1.packed
  | some lo =>
    let hs := x.1.blocks.flatten
    let ls := lo.blocks.flatten
    ((List.range x.1.n).map (fun i => [ls.getD (2 * i) 0, ls.getD (2 * i + 1) 0, hs.getD (2 * i) 0, hs.getD (2 * i + 1) 0])).flatten

/-- A directory entry. -/
def dirEntry (x : GenTensor × Option GenTensor) (off len : Nat) : List Byte :=
  leBytes 2 x.1.tag ++ leBytes 2 0 ++ leBytes 1 (if x.2.isSome then 1 else 2) ++ leBytes 1 x.1.format ++ leBytes 1 x.1.kind ++ leBytes 1 0 ++
    leBytes 8 x.1.n ++ leBytes 6 x.1.lBase ++ leBytes 2 x.1.version ++ leBytes 8 off ++ leBytes 8 len ++ leBytes 4 x.1.digest ++
    leBytes 4 ((x.2.map (fun (y : GenTensor) => y.digest)).getD 0) ++ zeros 16

/-- The CRC-32C of each 4 KiB. -/
def checkTable : Nat → List Byte → List Byte
  | 0, _ => []
  | n + 1, xs => leBytes 4 (crc32c (xs.take 4096)).toNat ++ checkTable n (xs.drop 4096)

/-- A generation as a checkpoint file. -/
def Gen.file (g : Gen) : List Byte :=
  let rec_ := pad4k g.rec_.bytes
  let ps := g.parts
  let secs := ps.map (fun x => pad4k (sectionBytes x))
  let dirAt := 4096 + rec_.length
  let secAt := dirAt + up4k (64 * ps.length)
  let offs := secs.foldl (fun (acc : List Nat × Nat) s => (acc.1 ++ [acc.2], acc.2 + s.length)) ([], secAt)
  let dir := pad4k ((ps.zip (offs.1.zip secs)).map (fun x => dirEntry x.1 x.2.1 (sectionBytes x.1).length)).flatten
  let body := secs.flatten
  let tab := checkTable (body.length / 4096) body
  let h := leBytes 4 0x54504B43 ++ leBytes 2 3 ++ leBytes 2 3 ++ leBytes 4 g.rec_.s ++ leBytes 4 g.rec_.crc ++ leBytes 2 g.rec_.rank ++ leBytes 2 g.rec_.members ++
    leBytes 4 ps.length ++ leBytes 4 g.rec_.guar ++ leBytes 4 (b2n g.complete) ++ leBytes 8 4096 ++ leBytes 8 dirAt ++ leBytes 8 offs.2 ++
    leBytes 8 (offs.2 + tab.length)
  pad4k (h ++ leBytes 4 (crc32c h).toNat) ++ rec_ ++ dir ++ body ++ tab

/-- Payload bytes cut into blocks, the last padded with zeros. -/
def toBlocks (xs : List Byte) : List (List Byte) := (chunks 4096 (xs.length / 4096 + 1) xs).map (fun c => (c ++ zeros 4096).take 4096)

/-- The two halves of binary32 words. -/
def splitWords (hi : Bool) (xs : List Byte) : List Byte :=
  ((List.range (xs.length / 4)).map (fun i => if hi then [xs.getD (4 * i + 2) 0, xs.getD (4 * i + 3) 0] else [xs.getD (4 * i) 0, xs.getD (4 * i + 1) 0])).flatten

/-- A file read back: the generation, and the blocks that fail the check table as (tensor, block). None for bytes that are no committed file. -/
def Gen.parse (xs : List Byte) : Option (Gen × List (Nat × Nat)) :=
  let u (o n : Nat) : Nat := leNat ((xs.drop o).take n)
  if u 0 4 ≠ 0x54504B43 ∨ u 4 2 ≠ 3 ∨ u 28 4 ≠ 1 ∨ u 64 4 ≠ (crc32c (xs.take 64)).toNat ∨ u 56 8 ≠ xs.length then none
  else
    let rec_ := StateRec.ofNums (words8 ((u 40 8 - u 32 8) / 8) ((xs.drop (u 32 8)).take (u 40 8 - u 32 8)))
    let ents := (List.range (u 20 4)).map (fun i => u 40 8 + 64 * i)
    let one (acc : (List GenTensor × List (Nat × Nat)) × Nat) (e : Nat) : (List GenTensor × List (Nat × Nat)) × Nat :=
      let sec := (xs.drop (u (e + 24) 8)).take (u (e + 32) 8)
      let n := up4k sec.length / 4096
      let bad := (List.range n).filter (fun i => decide (u (u 48 8 + 4 * (acc.2 + i)) 4 ≠ (crc32c (((pad4k sec).drop (4096 * i)).take 4096)).toNat))
      let t (kind fmt dg : Nat) (ys : List Byte) : GenTensor :=
        { tag := u e 2, kind := kind, format := fmt, lBase := u (e + 16) 6, version := u (e + 22) 2, digest := dg, n := u (e + 8) 8, blocks := toBlocks ys }
      let k := acc.1.1.length
      if u (e + 4) 1 = 1 then
        ((acc.1.1 ++ [t 1 (u (e + 5) 1) (u (e + 40) 4) (splitWords true sec), t 2 0x0E (u (e + 44) 4) (splitWords false sec)],
          acc.1.2 ++ (bad.map (fun i => [(k, i / 2), (k + 1, i / 2)])).flatten), acc.2 + n)
      else ((acc.1.1 ++ [t (u (e + 6) 1) (u (e + 5) 1) (u (e + 40) 4) sec], acc.1.2 ++ bad.map (fun i => (k, i))), acc.2 + n)
    let r := ents.foldl one (([], []), 0)
    some (({ rec_ := rec_, tensors := r.1.1, complete := true, export_ := false } : Gen), r.1.2)

/-! ### The flash store (R420) -/

/-- Bytes of the module flash store (R412). -/
abbrev flashBytes : Nat := 7680000000000

/-- Bytes that a generation's file takes. -/
def Gen.size (g : Gen) : Nat :=
  let secs := g.parts.map (fun x => up4k (sectionLen x))
  4096 + up4k g.rec_.bytes.length + up4k (64 * g.parts.length) + secs.sum + secs.sum / 1024

/-- A file that may not be overwritten: the newest complete one of its job, or one being exported. -/
def Blk.flashKept (b : Blk) (k : Nat) (g : Gen) : Bool :=
  !(b.flash.any (fun x => decide (k < x.1) && x.2.complete && decide (x.2.rec_.crc = g.rec_.crc))) ||
  b.mbx.ops.any (fun o => o.kind == .export_ && !o.st.final && decide (o.slot = k))

/-- Room made for a file: the oldest that may go first; false where there is none. -/
def Blk.flashFree (b : Blk) (n : Nat) : Nat → Blk × Bool
  | 0 => (b, false)
  | fuel + 1 =>
    let res := (b.parts.map (fun x => match x.2.securing with | some q => if q.flash || q.fFail || decide (q.layers / 2 % 2 = 0) then 0 else q.gen.size | none => 0)).sum
    if (b.flash.map (fun x => x.2.size)).sum + res + n ≤ flashBytes then (b, true)
    else match b.flash.find? (fun x => !b.flashKept x.1 x.2) with
      | none => (b, false)
      | some x => ({ b with flash := b.flash.filter (fun y => y.1 != x.1) } : Blk).flashFree n fuel

/-! ### The partner layer (R416, R417) -/

/-- Blocks of a partner chunk: those of the job's PUT, else 4 (log entry 67). -/
def Last.putBlocks (l : Last) : Nat := ((((l.colls.map CollDesc.parse).find? (fun d => d.op == 9)).map (fun d => d.cblk)).getD 4)

/-- A block of a partner region: a directory or state-record block of kind 0xC, a copied block of kind 0xB. -/
def partnerBlock (kind : Nat) (a : Aglet) (pay : List Byte) : List Byte × BitVec 128 :=
  let y := Block.make ((pay ++ zeros 4096).take 4096) { a with kind := kind } false a.zeroBlk a.nonfin false
  (y.pay, y.agl)

def plainAglet (s : Nat) : Aglet := { pcrc := 0, tag := 0, version := s % 65536, format := 0, flags := 0, epoch := 0, kind := 0xC, samples := 0 }

/-- The partner directory block: S, COMPLETE, IMAGE_CRC, bytes of the state record (log entry 70). -/
def dirBlock (g : Gen) (complete : Bool) : List Byte × BitVec 128 :=
  partnerBlock 0xC (plainAglet g.rec_.s) (leBytes 4 g.rec_.s ++ leBytes 4 (b2n complete) ++ leBytes 4 g.rec_.crc ++ leBytes 4 g.rec_.bytes.length)

/-- A chunk of the securing sent to the buddy. -/
def Blk.partnerSend (b : Blk) (p s i : Nat) (ys : List (List Byte × BitVec 128)) : Blk :=
  match b.lastOf p with
  | some l => b.msgSend p { (b.mkMsg p 7 l.buddy 0xFFFF) with vc := 4, step := s % 65536, attempt := 0, chunk := i, aglets := true, blocks := ys }
  | none => b

/-- The copy's blocks after the directory block: the state record, then the secured tensors. -/
def Gen.partnerBlocks (g : Gen) : List (List Byte × BitVec 128) :=
  (toBlocks g.rec_.bytes).map (partnerBlock 0xC (plainAglet g.rec_.s)) ++
  (g.tensors.map (fun (t : GenTensor) => t.blocks.map (fun pay =>
    let f := payloadFlags t.format pay
    partnerBlock 0xB { pcrc := 0, tag := t.tag, version := t.version, format := t.format, flags := 8 * b2n f.1 + 16 * b2n f.2, epoch := g.rec_.epoch, kind := 0xB, samples := 0 } pay))).flatten

/-! ### A securing (R415, R416, R418, R419) -/

/-- The state record written into the held half, over the last's region of kind 0xC where it declares one (R416). -/
def Blk.holdRecord (b : Blk) (p : Nat) (l : Last) (g : Gen) : Blk :=
  match l.tensors.zipIdx.find? (fun (t : Tensor × Nat) => decide (t.1.kind = 0xC)) with
  | none => b
  | some t => match b.tensorAt p t.2 with
    | none => b
    | some at_ => (((toBlocks g.rec_.bytes).take at_.2).zipIdx).foldl (fun (c : Blk) (y : List Byte × Nat) =>
        c.hbmPut (at_.1 + y.2) (Block.make y.1 { plainAglet g.rec_.s with tag := t.1.tag, format := t.1.format, epoch := g.rec_.epoch } false false false false)) b

/-- Step 1 with the state record of the boundary: the record written, the snapshot, the partner directory sent incomplete, a file slot opened. -/
def Blk.secureBegin (b : Blk) (p op layers : Nat) (rec_ : StateRec) : Blk :=
  match b.part p, b.lastOf p with
  | some x, some l =>
    if x.securing.isSome then b
    else
      let ts := l.secured.map (fun (t : Tensor × Nat) =>
        ({ tag := t.1.tag, kind := t.1.kind, format := t.1.format, lBase := t.1.lBase, version := b.versionOf p t.1.tag, digest := b.tensorDigest p t.2, n := t.1.elements
           blocks := List.replicate (((b.tensorAt p t.2).map (fun y => y.2)).getD 0) [] } : GenTensor))
      let g : Gen := { rec_ := rec_, tensors := ts, complete := false, export_ := false }
      let lay := if layers % 4 = 0 then 3 else layers % 4
      let route := decide (lay % 2 = 1) && b.cutTo p l.buddy != []
      let room := if 2 ≤ lay then b.flashFree g.size (b.flash.length + 1) else (b, true)
      let q : Securing := { s := rec_.s, op := op, layers := lay, read := false, partner := false, flash := false, pFail := decide (lay % 2 = 1) && !route
                            fFail := decide (2 ≤ lay) && !room.2, holdMs := 0, chunks := 0, acked := 0, gen := g }
      let b1 := room.1.onPart p (fun y => { y with
        securing := some q, partnerS := if lay % 2 = 1 then none else y.partnerS, guar := if lay % 2 = 1 then setBit y.guar 3 false else y.guar })
      let b2 := b1.holdRecord p l g
      if route then b2.partnerSend p rec_.s 0 [dirBlock g false] else b2
  | _, _ => b

/-- A securing at its boundary: it begins, or, where another of the partition has not ended yet, waits behind it with the record of this boundary; no finisher changes what
it secures before it has read it (R415, R418). -/
def Blk.secureStart (b : Blk) (p op layers : Nat) : Blk :=
  match b.part p, b.lastOf p with
  | some x, some l =>
    let rec_ := b.stateRecord p x l
    if x.securing.isSome then b.onPart p (fun y => { y with secNext := y.secNext ++ [(op, layers, rec_)] }) else b.secureBegin p op layers rec_
  | _, _ => b

/-- A securing has ended: the next one that waits behind it begins. -/
def Blk.secureNext (b : Blk) (p : Nat) : Blk :=
  match b.part p with
  | some x => match x.securing, x.secNext with
    | none, y :: ys => (b.onPart p (fun z => { z with secNext := ys })).secureBegin p y.1 y.2.1 y.2.2
    | _, _ => b
  | none => b

/-- The operation of a securing ends once each layer asked for has committed or failed; a securing of the policy is over then. -/
def Blk.secureTry (b : Blk) (p : Nat) : Blk :=
  match (b.part p).bind (fun (x : Part) => x.securing) with
  | none => b
  | some q =>
    let pDone := decide (q.layers % 2 = 0) || q.partner || q.pFail
    let fDone := decide (q.layers < 2) || q.flash || q.fFail
    if pDone && fDone && q.read then
      if q.op = 0 then (b.onPart p (fun x => { x with securing := none })).secureNext p
      else b.endOp q.op (if q.pFail || q.fFail then .securePartial else .ok) 0 [(16, 4, q.s), (20, 1, b2n q.partner + 2 * b2n q.flash)]
    else b

def Blk.onSecuring (b : Blk) (p : Nat) (f : Securing → Securing) : Blk := b.onPart p (fun x => { x with securing := x.securing.map f })

/-- SECURING_READ_COMPLETE: every secured block passes checks 1 to 5, and both layers have been sent it; a block that does not is repaired from a twin first. -/
def Blk.secureRead (b : Blk) (p hold : Nat) : Blk :=
  match (b.part p).bind (fun (x : Part) => x.securing), b.lastOf p with
  | some q, some l =>
    if q.read then b
    else
      let ts := l.secured.filterMap (fun (t : Tensor × Nat) => (b.tensorAt p t.2).map (fun at_ => (t.1, at_.1, at_.2)))
      let bad := (ts.map (fun (t : Tensor × Nat × Nat) => (List.range t.2.2).filterMap (fun i =>
        match b.hbmGet (t.2.1 + i) with
        | some y => if (y.check (b.expectOf p t.1.tag t.1.kind (b.versionOf p t.1.tag))).1 = .ok then none else some (t.2.1 + i)
        | none => none))).flatten
      if bad ≠ [] then bad.foldl (fun c blk => c.askTwin p blk true) b
      else
        let fill (x : GenTensor × (Tensor × Nat × Nat)) : GenTensor :=
          { x.1 with blocks := (List.range x.2.2.2).map (fun i => ((b.hbmGet (x.2.2.1 + i)).map (fun (y : Block) => y.pay)).getD (zeros 4096)) }
        let g : Gen := { q.gen with tensors := (q.gen.tensors.zip ts).map fill }
        let len := max 1 l.putBlocks
        let blocks := dirBlock g false :: g.partnerBlocks
        let n := if decide (q.layers % 2 = 1) && !q.pFail then (blocks.length + len - 1) / len else 0
        let b1 := (List.range n).foldl (fun c i => c.partnerSend p q.s i ((blocks.drop (len * i)).take len)) b
        (b1.onSecuring p (fun y => { y with read := true, holdMs := hold, chunks := n, acked := 0, gen := g })).secureTry p
  | _, _ => b

/-! ### The coordinator (R422 to R424) -/

/-- The integer square root, below 2^64. -/
def rootNat (n : Nat) : Nat := ((List.range 64).reverse).foldl (fun r i => if (r + 2 ^ i) * (r + 2 ^ i) ≤ n then r + 2 ^ i else r) 0

/-- The interval in steps: √(2 c m) over the mean step, rounded, between the policy's bounds. -/
def intervalOf (q : Policy) (runMs restores holdMs : Nat) (stepMs : List Nat) : Nat :=
  let tot := stepMs.sum
  if tot = 0 then q.maxSteps
  else
    let m : Rat := ((runMs + 1000 * q.priorS : Nat) : Rat) / ((1000 * (restores + 1) : Nat) : Rat)
    let c : Rat := ((max q.costMs holdMs : Nat) : Rat) / 1000
    let st : Rat := (tot : Rat) / ((1000 * stepMs.length : Nat) : Rat)
    let x : Rat := 2 * c * m / (st * st)
    max q.minSteps (min q.maxSteps ((rootNat (4 * x).floor.toNat + 1) / 2))

/-- NEXT_S set by the coordinator. -/
def Blk.setNextS (b : Blk) (p sGen : Nat) : Blk :=
  match b.part p with
  | none => b
  | some x =>
    match x.policy with
    | none => b
    | some q =>
      let hold := (x.reports.map (fun r => r.2.1)).foldl max 0
      let gap := x.reports.any (fun r => !r.2.2.2)
      b.setPart p { x with nextS := if gap then x.s + 1 else sGen + intervalOf q (b.runMs p) x.restores hold x.stepMs }

/-- A report that reaches rank 0: (rank, hold, layers, holds its buddy's copy); with those of every member, NEXT_S is set. -/
def Blk.reportIn (b : Blk) (p s rank hold layers : Nat) (holds : Bool) : Blk :=
  match b.part p, b.lastOf p with
  | some x, some l =>
    if l.rank ≠ 0 ∨ (s < x.repS ∧ x.reports ≠ []) then b
    else
      let old := if s = x.repS then x.reports.filter (fun r => r.1 != rank) else []
      let rs := old ++ [(rank, hold, layers, holds)]
      let b1 := b.setPart p { x with reports := rs, repS := s }
      if (List.range l.members).all (fun r => rs.any (fun y => y.1 == r)) then b1.setNextS p s else b1
  | _, _ => b

/-- The copy of generation S that this package holds for its partner member is complete: its directory block says so and is sound. -/
def Blk.holdsCopy (b : Blk) (l : Last) (s : Nat) : Bool :=
  let blk := b.regionBase (l.partner.2.1 == 1) + l.partner.2.2.1
  !b.blockBad blk && decide (l.partner.2.2.2 ≠ 0) && (match b.hbmGet blk with | some y => decide (leNat (y.pay.take 4) = s) && decide (leNat ((y.pay.drop 4).take 4) = 1) | none => false)

/-- SECURE_REPORT sent to rank 0, or taken at rank 0 itself. -/
def Blk.reportOut (b : Blk) (p s hold layers : Nat) : Blk :=
  match b.lastOf p with
  | none => b
  | some l =>
    let holds := b.holdsCopy l s
    if l.rank = 0 then b.reportIn p s 0 hold layers holds
    else b.msgSend p { (b.mkMsg p kindReport 0 0) with words := [s, hold, layers, b2n holds] }

/-- SECURE_REPORT received. -/
def Blk.secureReport (b : Blk) (e : Nat) (m : Msg) : Blk :=
  b.onMsg e m kindReport (fun c p => c.reportIn p (m.words.getD 0 0) m.src (m.words.getD 1 0) (m.words.getD 2 0) (decide (m.words.getD 3 0 = 1)))

/-! ### Commits (R416) -/

/-- PARTNER_LAYER_COMMIT: the last chunk is acknowledged; the directory block goes again with COMPLETE = 1. -/
def Blk.partnerCommit (b : Blk) (p : Nat) : Blk :=
  match (b.part p).bind (fun (x : Part) => x.securing) with
  | none => b
  | some q =>
    if q.read && decide (q.layers % 2 = 1) && !q.partner && !q.pFail && decide (q.chunks ≤ q.acked) then
      let b1 := (b.partnerSend p q.s 0 [dirBlock q.gen true]).onPart p (fun x => { x with
        securing := some { q with partner := true }, partnerS := some q.s, guar := setBit x.guar 3 true })
      (b1.reportOut p q.s q.holdMs (1 + 2 * b2n q.flash)).secureTry p
    else b

/-- FLASH_LAYER_COMMIT: the check table, the directory and then the header are written. -/
def Blk.flashCommit (b : Blk) (p : Nat) : Blk :=
  match (b.part p).bind (fun (x : Part) => x.securing) with
  | none => b
  | some q =>
    if q.read && decide (2 ≤ q.layers) && !q.flash && !q.fFail then
      let k := (b.flash.map (fun x => x.1 + 1)).foldl max 0
      let b1 : Blk := { b with flash := b.flash ++ [(k, { q.gen with complete := true })] }
      let b2 := b1.onPart p (fun x => { x with
        securing := some { q with flash := true }, guar := if x.partnerS = some q.s ∨ q.layers % 2 = 1 then x.guar else setBit x.guar 3 false })
      (b2.reportOut p q.s q.holdMs (b2n q.partner + 2)).secureTry p
    else b

/-- The partner layer gives up: the buddy is unreachable or refuses chunks (R419). -/
def Blk.partnerFail (b : Blk) (p : Nat) : Blk :=
  match (b.part p).bind (fun (x : Part) => x.securing) with
  | none => b
  | some q => if q.partner || decide (q.layers % 2 = 0) then b
    else ((b.onSecuring p (fun y => { y with pFail := true })).onPart p (fun x => { x with guar := setBit x.guar 3 false })).secureTry p

/-- A cancel of the securing of operation `h` that wins leaves no layer committed (R482). -/
def Blk.secureCancel (b : Blk) (p h : Nat) : Blk :=
  match (b.part p).bind (fun (x : Part) => x.securing) with
  | none => b
  | some q =>
    if q.op ≠ h then b.onPart p (fun x => { x with secNext := x.secNext.filter (fun y => y.1 != h) })
    else
      let b1 := if q.partner then b.partnerSend p q.s 0 [dirBlock q.gen false] else b
      let mine := ((b1.flash.filter (fun x => decide (x.2.rec_ = q.gen.rec_))).map (fun x => x.1)).getLast?
      let b2 : Blk := if q.flash then { b1 with flash := b1.flash.filter (fun x => some x.1 != mine) } else b1
      (b2.onPart p (fun x => { x with
        securing := none, partnerS := if q.layers % 2 = 1 then none else x.partnerS, guar := if q.layers % 2 = 1 then setBit x.guar 3 false else x.guar })).secureNext p

/-- CACK: of a securing's flow (CSEQ 0xFFFF), the chunks acknowledged; else of a collective. -/
def Blk.cackAny (b : Blk) (e : Nat) (m : Msg) : Blk :=
  if m.cseq = 0xFFFF then b.onMsg e m 6 (fun c p => c.onSecuring p (fun q => if q.s % 65536 = m.step then { q with acked := max q.acked (m.words.headD 0) } else q))
  else b.cack e m

/-- LAC_TIMEOUT: of a securing's flow, or of a collective's. -/
def Blk.lacTimeout (b : Blk) (p q : Nat) : Blk := if q = 0xFFFF then b.partnerFail p else b.lacTimeoutOn p q

end Sys2Proof.Machine
end

