-- ==== Sys2Proof/Machine/Recovery.lean ====
section
/-!
DEFINITION. The recovery commands: SECURE_STATE, RESTORE_STATE, RESHARD and REPLAY_STEP (R296, R363, R415, R421, R423, R427 to R431).
-/
namespace Sys2Proof.Machine

/-- A host command acts on the request of its code that waits in its mailbox. -/
def Blk.cmd (b : Blk) (f m code : Nat) (act : Req → Blk) : Blk :=
  if b.canTake f m && decide ((b.reqOf f m).code = code) then act (b.reqOf f m) else b

/-- A long operation accepted, and what is done with it at once. -/
def Blk.startOp (b : Blk) (r : Req) (o : LongOp) (k : Blk → LongOp → Blk) : Blk :=
  let b1 := b.accept r o
  match b1.mbx.ops.getLast? with
  | some op => k b1 op
  | none => b1

/-- A long operation that needs a compute die (R556): in DOZE it is QUEUED and the module wakes, else its work begins; `z` keeps what the work needs. -/
def Blk.startLong (b : Blk) (r : Req) (o : LongOp) (z : Asleep) (k : Blk → LongOp → Blk) : Blk :=
  if b.pwr.doze then
    b.startOp r { o with st := .queued } (fun c op => { c with
      asleep := c.asleep ++ [{ z with handle := op.handle, pay := r.pay }], pwr := { c.pwr with waking := true } })
  else b.startOp r o k

/-- Nothing beside the request. -/
def Asleep.none : Asleep := { handle := 0, pay := [], last := Option.none, gen := Option.none, bad := [], moves := [] }

/-- A request judged (R474): refused with its status, or carried out. -/
def Blk.judged (b : Blk) (r : Req) (stateBad payBad handleBad busy : Bool) (go : Blk) : Blk :=
  match b.judge r stateBad false payBad handleBad busy with
  | some st => b.reply r st 0 []
  | none => go

/-- Some operation of a kind on the partition is RUNNING or SUSPENDED. -/
def Blk.opLive (b : Blk) (p : Nat) (q : OpKind → Bool) : Bool :=
  b.mbx.ops.any (fun o => decide (o.part = p) && q o.kind && (o.st == .running || o.st == .suspended))

def Blk.isLoaded (b : Blk) (p : Nat) : Bool := (b.part p).any (fun x => x.loaded)
def Blk.unrestored (b : Blk) (p : Nat) : Bool := (b.part p).any (fun x => x.unrest)
def Blk.isSecuring (b : Blk) (p : Nat) : Bool := (b.part p).any (fun x => x.securing.isSome)

/-! ### SECURE_STATE (R415, R421, R423) -/

/-- Mode NOW's work. -/
def Blk.secureNowGo (b : Blk) (r : Req) (o : LongOp) : Blk := b.secureStart (r.u 0 1) o.handle (r.u 2 1)

/-- Mode NOW. -/
def Blk.secureNow (b : Blk) (f m : Nat) : Blk :=
  b.cmd f m 0x20 (fun r =>
    if r.u 1 1 ≠ 0 then b
    else
      let p := r.u 0 1
      b.judged r (!b.isLoaded p || b.unrestored p || b.opLive p OpKind.exclusive || b.isSecuring p)
        (!r.reservedOk [(0, 3)] || decide (7 < p) || decide (3 < r.u 2 1)) false b.opsBusy
        (b.startLong r { handle := 0, fn := f, mbx := m, kind := .secure, part := p, st := .running, s := b.sOf p, layers := r.u 2 1 } .none
          (fun c o => c.secureNowGo r o)))

/-- Mode AT_STEP's work at its acceptance: a step that has passed. -/
def Blk.secureAtGo (b : Blk) (r : Req) (o : LongOp) : Blk := if r.u 4 4 ≤ b.sOf (r.u 0 1) then b.endOp o.handle .secureStepPassed 0 [] else b

/-- Mode AT_STEP. -/
def Blk.secureAt (b : Blk) (f m : Nat) : Blk :=
  b.cmd f m 0x20 (fun r =>
    if r.u 1 1 ≠ 1 then b
    else
      let p := r.u 0 1
      b.judged r (!b.isLoaded p || b.unrestored p) (!r.reservedOk [(0, 3), (4, 4)] || decide (7 < p) || decide (3 < r.u 2 1)) false b.opsBusy
        (b.startLong r { handle := 0, fn := f, mbx := m, kind := .secure, part := p, st := .queued, s := r.u 4 4, layers := r.u 2 1 } .none
          (fun c o => c.secureAtGo r o)))

/-- The newest complete flash file of a generation, of the loaded last where the partition has one. -/
def Blk.flashFile (b : Blk) (p s : Nat) : Option (Nat × Gen) :=
  let all := b.flash.filter (fun x => x.2.complete && decide (x.2.rec_.s = s))
  match b.lastOf p with
  | some l => match (all.filter (fun x => decide (x.2.rec_.crc = l.crc))).getLast? with
    | some x => some x
    | none => all.getLast?
  | none => all.getLast?

/-- Mode EXPORT's work: the file is copied when the operation ends. -/
def Blk.exportGo (b : Blk) (r : Req) (o : LongOp) : Blk :=
  match b.flashFile (r.u 0 1) (r.u 4 4), b.scatter (r.u 8 8) (r.u 16 4) with
  | some x, some es =>
    if (es.map (fun e => e.2)).sum < x.2.file.length then b.endOp o.handle .opFailed 0 []
    else (b.setOp { o with buf := x.2.file }).endOp o.handle .ok 0 [(16, 4, r.u 4 4), (20, 1, 2)]
  | _, _ => b.endOp o.handle .badHostAddress 0 []

/-- Mode EXPORT; `slot` is the file. -/
def Blk.secureExport (b : Blk) (f m : Nat) : Blk :=
  b.cmd f m 0x20 (fun r =>
    if r.u 1 1 ≠ 2 then b
    else
      let p := r.u 0 1
      b.judged r ((b.part p).isNone || b.unrestored p || (b.flashFile p (r.u 4 4)).isNone) (!r.reservedOk [(0, 3), (4, 16)] || decide (7 < p) || decide (3 < r.u 2 1)) false b.opsBusy
        (match b.flashFile p (r.u 4 4) with
          | none => b
          | some x => b.startLong r { handle := 0, fn := f, mbx := m, kind := .export_, part := p, st := .running, s := r.u 4 4, slot := x.1
                                      scatter := r.u 8 8, nScatter := r.u 16 4, layers := 2 } .none
              (fun c o => c.exportGo r o)))

/-- Mode POLICY; a field of 0 takes its default. -/
def Blk.securePolicy (b : Blk) (f m : Nat) : Blk :=
  b.cmd f m 0x20 (fun r =>
    if r.u 1 1 ≠ 3 then b
    else
      let p := r.u 0 1
      let dflt (v d : Nat) : Nat := if v = 0 then d else v
      let q : Policy := { layers := dflt (r.u 2 1) 3, minSteps := dflt (r.u 20 4) 8, maxSteps := dflt (r.u 24 4) 1000, priorS := dflt (r.u 28 4) 86400
                          costMs := dflt (r.u 32 4) 500 }
      b.judged r (!b.isLoaded p || b.unrestored p) (!r.reservedOk [(0, 3), (20, 16)] || decide (7 < p) || decide (3 < r.u 2 1) || decide (q.maxSteps < q.minSteps)) false false
        ((b.onPart p (fun x => { x with policy := some q, nextS := x.s + q.minSteps })).reply r .ok 0 []))

/-- Mode POLICY_OFF. -/
def Blk.securePolicyOff (b : Blk) (f m : Nat) : Blk :=
  b.cmd f m 0x20 (fun r =>
    if r.u 1 1 ≠ 4 then b
    else
      let p := r.u 0 1
      b.judged r (!b.isLoaded p || b.unrestored p) (!r.reservedOk [(0, 3)] || decide (7 < p) || decide (3 < r.u 2 1)) false false
        ((b.onPart p (fun x => { x with policy := none, nextS := 0 })).reply r .ok 0 []))

/-! ### RESTORE_STATE (R427 to R431) -/

/-- A source of a restore: its code, the generation, and the blocks of it that fail their check as (tensor, block). -/
structure Source where
  code : Nat
  gen  : Gen
  bad  : List (Nat × Nat)
deriving DecidableEq, Repr

/-- The sources of generation S in the AUTO order, from the one asked for on: the buddy's copy if it is complete, the own flash file, the shared file.
`bad` are blocks that fail as they are read, as (source, tensor, block). -/
def Blk.sources (b : Blk) (p src s : Nat) (partner : Option Gen) (bad : List (Nat × Nat × Nat)) (shared : Option (Gen × List (Nat × Nat))) : List Source :=
  let badOf (k : Nat) : List (Nat × Nat) := (bad.filter (fun x => x.1 == k)).map (fun x => x.2)
  let a : List Source := match partner with | some g => if g.complete && decide (g.rec_.s = s) then [⟨1, g, badOf 1⟩] else [] | none => []
  let c : List Source := match b.flashFile p s with | some x => [⟨2, x.2, badOf 2⟩] | none => []
  let d : List Source := match shared with | some x => if x.1.rec_.s = s then [⟨3, x.1, badOf 3 ++ x.2⟩] else [] | none => []
  if src = 0 then a ++ c else if src = 1 then (if a = [] then [] else a ++ c) else if src = 2 then c else d

/-- A block of a source. -/
def Source.block (x : Source) (tag kind j : Nat) : Option (List Byte) :=
  match x.gen.tensors.zipIdx.find? (fun (t : GenTensor × Nat) => decide (t.1.tag = tag) && decide (t.1.kind = kind)) with
  | some t => if x.bad.contains (t.2, j) then none else t.1.blocks[j]?
  | none => none

/-- One tensor written back; false where a block is in no source or the digest differs. -/
def Blk.restoreTensor (b : Blk) (p : Nat) (xs : List Source) (g : Gen) (t : Tensor × Nat) : Blk × Bool :=
  match b.tensorAt p t.2, g.tensors.find? (fun (y : GenTensor) => decide (y.tag = t.1.tag) && decide (y.kind = t.1.kind)) with
  | some at_, some gt =>
    let per := ((Fmt.ofCode t.1.format).getD .ext16).perBlock
    let r := (List.range (min at_.2 ((t.1.elements + per - 1) / per))).foldl (fun (acc : Blk × Bool) j =>
      match xs.findSome? (fun x => x.block t.1.tag t.1.kind j) with
      | none => (acc.1, false)
      | some pay =>
        let fl := payloadFlags gt.format pay
        (acc.1.hbmPut (at_.1 + j) (Block.make ((pay ++ zeros 4096).take 4096)
          { pcrc := 0, tag := gt.tag, version := gt.version, format := gt.format, flags := 0, epoch := g.rec_.epoch, kind := gt.kind, samples := 0 } false fl.1 fl.2 false), acc.2)) (b, true)
    (r.1, r.2 && decide (r.1.digestOf at_.1 at_.2 = gt.digest))
  | _, _ => (b, false)

/-- The version that a record gives a tag on a cluster; for a cluster that it does not name, the version of one it does (log entry 70). -/
def StateRec.version (r : StateRec) (cl tag : Nat) : Nat :=
  match r.versions.find? (fun (y : Nat × Nat) => decide (y.1 = 65536 * cl + tag)) with
  | some y => y.2
  | none => ((r.versions.find? (fun (y : Nat × Nat) => decide (y.1 % 65536 = tag))).map (fun (y : Nat × Nat) => y.2)).getD 0

/-- The FAULTS counts of the units, with their times, as a record gives them. -/
def Blk.applyFaults (b : Blk) (r : StateRec) : Blk :=
  let us := ((b.regs.filter (fun x => x.1.name == RegName.AWL_UNIT)).map (fun x => unitId x.1.at_ x.1.idx)) ++ r.faults.map (fun (y : Nat × Nat) => y.1)
  let b1 := us.foldl (fun (c : Blk) u => c.wf (unitReg u) Fld.AWL_UNIT_FAULTS (((r.faults.find? (fun (y : Nat × Nat) => y.1 == u)).map (fun (y : Nat × Nat) => y.2)).getD 0)) b
  { b1 with units := { b1.units with faultAt := r.times } }

/-- The state record applied (R429 step 4). RESTORES counts a RESTORE_STATE, no REPLAY_STEP, by `again` (R424). -/
def Blk.applyRecord (b : Blk) (p : Nat) (r : StateRec) (again : Bool) : Blk :=
  let own := decide (r.serial = idSerial (b.identWord iod0))
  let cls := b.liveClusters p
  let b1 := b.onPart p (fun x => { x with
    s := r.s, health := r.health, step := .idle, found := []
    versions := (maskList x.clusters 36).foldl (fun mm cl => ((r.versions.map (fun (y : Nat × Nat) => y.1 % 65536)).eraseDups).foldl
      (fun mm t => Sp.set 0 mm (65536 * cl + t) (r.version cl t)) mm) x.versions
    guar := if bitOf b.sec.scopes 0 then setBit r.guar 0 false else r.guar
    runS := if own then x.runS else 1000 * r.runS
    restores := (if own then x.restores else r.restores) + b2n (!again) })
  let b2 := cls.foldl (fun c cl => ((c.wn ⟨.FIN_UPDATE_CNT, cl, 0⟩ r.u).wn ⟨.FIN_LSCALE, cl, 0⟩ r.scale).wn ⟨.SEQ_RNG_STEP, cl, 0⟩ r.rngStep) b1
  let b3 := r.heads.foldl (fun c h => if cls.contains h.1 then c.wf (qReg h.1 h.2.1) Fld.SEQ_Q_POS h.2.2 else c) b2
  let b4 := r.ctrs.foldl (fun c h => if cls.contains h.1 then c.wn (ctrReg h.1 h.2.1) h.2.2 else c) b3
  let b5 := b4.iodsUp.foldl (fun c d => c.wf ⟨.LAC_EPOCH, d, 0⟩ Fld.LAC_EPOCH_EPOCH r.epoch) ((b4.lastOf p).elim b4 (fun l => b4.lacLoad l r.lacStep))
  let b5 : Blk := { b5 with lac := { b5.lac with fencedOnce := false } }
  if own then b5.applyFaults r else b5

/-- The partition is unrestored (R430). -/
def Blk.unrestore (b : Blk) (p : Nat) : Blk := b.onPart p (fun x => { x with unrest := true, guar := 0 })

/-- The restore itself; `keep` leaves the digest store (REPLAY_STEP). Also its status and the source used. -/
def Blk.restoreGen (b : Blk) (p : Nat) (xs : List Source) (keep : Bool) : Blk × Status × Nat :=
  match xs.head?, b.part p, b.lastOf p with
  | some x, some y, some l =>
    let r := x.gen.rec_
    if r.crc ≠ l.crc ∨ r.rank ≠ l.rank ∨ r.members ≠ l.members ∨ r.layout ≠ y.layout then (b, .restoreMismatch, x.code)
    else
      let w := l.secured.foldl (fun (acc : Blk × Bool) t => let z := acc.1.restoreTensor p xs x.gen t; (z.1, acc.2 && z.2)) (b, true)
      if !w.2 then (w.1, .restoreCheck, x.code)
      else
        let b1 := (w.1.applyRecord p r keep).recastAll p true []
        (b1.onPart p (fun z => { z with unrest := false, digests := if keep then z.digests else z.digests.filter (fun d => decide (d.s < r.s)) }), .ok, x.code)
  | _, _, _ => (b, .restoreNoGeneration, 0)

/-- The generation file in host buffers (SHARED). -/
def Blk.sharedFile (b : Blk) (a n : Nat) : Option (List Byte) := (b.scatter a n).map (fun es => b.scatterRead es)

/-- After a restore PARTNER_CURRENT says whether the buddy holds the generation complete, and the coordinator hears of it (R424, R431, log entry 69). -/
def Blk.restored (b : Blk) (p s : Nat) (partner : Bool) : Blk :=
  let b1 := b.onPart p (fun x => { x with partnerS := if partner then some s else none, guar := setBit x.guar 3 partner, reports := [], repS := s })
  (b1.setNextS p s).reportOut p s 0 (if partner then 3 else 2)

/-- RESTORE_STATE's work. -/
def Blk.restoreGo (b : Blk) (r : Req) (o : LongOp) (partner : Option Gen) (bad : List (Nat × Nat × Nat)) : Blk :=
  let p := r.u 0 1
  let src := r.u 1 1
  match (if src = 3 then b.sharedFile (r.u 8 8) (r.u 16 4) else some []) with
  | none => (b.unrestore p).endOp o.handle .badHostAddress 0 [(16, 1, src)]
  | some xs =>
    let shared := if src = 3 then Gen.parse xs else none
    if src = 3 ∧ shared = none then (b.unrestore p).endOp o.handle .restoreCheck 0 [(16, 1, src)]
    else
      let y := b.restoreGen p (b.sources p src (r.u 4 4) partner bad shared) false
      if y.2.1 = .ok then (y.1.restored p (r.u 4 4) (partner.any (fun g => g.complete && decide (g.rec_.s = r.u 4 4)))).endOp o.handle .ok 0 [(16, 1, y.2.2)]
      else (y.1.unrestore p).endOp o.handle y.2.1 0 [(16, 1, y.2.2)]

/-- RESTORE_STATE: `partner` is the complete copy that the buddy holds of this package, if it holds one. -/
def Blk.restoreState (b : Blk) (f m : Nat) (partner : Option Gen) (bad : List (Nat × Nat × Nat)) : Blk :=
  b.cmd f m 0x21 (fun r =>
    let p := r.u 0 1
    b.judged r (!b.isLoaded p || b.exclusiveBusy p || b.opLive p (fun k => k == .secure || k == .export_) || b.isSecuring p)
      (!r.reservedOk (if r.u 1 1 = 3 then [(0, 2), (4, 16)] else [(0, 2), (4, 4)]) || decide (7 < p) || decide (3 < r.u 1 1)) false b.opsBusy
      (b.startLong r { handle := 0, fn := f, mbx := m, kind := .restore, part := p, st := .running, s := r.u 4 4, source := r.u 1 1 }
        { Asleep.none with gen := partner, bad := bad } (fun c o => c.restoreGo r o partner bad)))

/-! ### REPLAY_STEP (R296) -/

/-- The feed of a run starts afresh, as its operation is accepted (R484). -/
def Blk.feedReset (b : Blk) (p : Nat) : Blk :=
  (b.wn ⟨.DBL_FEED_PROD, 0, p⟩ 0).onStep p (fun st => { st with fed := 0, cons := 0, ended := 0, batch := [], nextBatch := none, holdFeed := false })

/-- The ring of a feed: 4 KiB-aligned, a power of two of entries from 16 to 4,096 (R476). -/
def feedOk (ring entries : Nat) : Bool :=
  decide (ring % 4096 = 0) && (List.range 13).any (fun i => decide (4 ≤ i) && decide (entries = 2 ^ i))

/-- REPLAY_STEP's work: the secured state of step j, which is the generation with step j + 1 next (log entry 71), restored over the live state; steps j + 1 to k
then run with their recorded outcomes. CLOSED clears. -/
def Blk.replayGo (b : Blk) (r : Req) (o : LongOp) (partner : Option Gen) (bad : List (Nat × Nat × Nat)) : Blk :=
  let p := r.u 0 1
  let src := r.u 1 1
  match (if src = 3 then b.sharedFile (r.u 40 8) (r.u 48 4) else some []) with
  | none => (b.unrestore p).endOp o.handle .badHostAddress 0 (replayResult 0xFFFFFFFF 0 0)
  | some xs =>
    let shared := if src = 3 then Gen.parse xs else none
    if src = 3 ∧ shared = none then (b.unrestore p).endOp o.handle .restoreCheck 0 (replayResult 0xFFFFFFFF 0 0)
    else
      let y := b.restoreGen p (b.sources p src (r.u 4 4 + 1) partner bad shared) true
      if y.2.1 = .ok then
        y.1.onPart p (fun x => { x with guar := setBit x.guar 1 false, replayTo := r.u 8 4 })
      else (y.1.unrestore p).endOp o.handle y.2.1 0 (replayResult 0xFFFFFFFF 0 0)

/-- REPLAY_STEP; refused like RUN_STEPS on an unrestored partition (R430, log entry 220). -/
def Blk.replayStep (b : Blk) (f m : Nat) (partner : Option Gen) (bad : List (Nat × Nat × Nat)) : Blk :=
  b.cmd f m 0x16 (fun r =>
    let p := r.u 0 1
    let j := r.u 4 4
    let k := r.u 8 4
    b.judged r (!b.isLoaded p || b.unrestored p || b.exclusiveBusy p)
      (!r.reservedOk [(0, 2), (4, 8), (16, 12), (32, if r.u 1 1 = 3 then 20 else 8)] || decide (7 < p) || decide (3 < r.u 1 1) || !decide (j < k) || !feedOk (r.u 16 8) (r.u 24 4) ||
        !((b.part p).any (fun x => x.digests.any (fun d => decide (d.s = k))))) false b.opsBusy
      ((b.feedReset p).startLong r
        { handle := 0, fn := f, mbx := m, kind := .replayStep, part := p, st := .running, s := j, k := k, source := r.u 1 1, ring := r.u 16 8
          entries := r.u 24 4, consAddr := r.u 32 8, steps := k - j }
        { Asleep.none with gen := partner, bad := bad } (fun c o => c.replayGo r o partner bad)))

/-! ### RESHARD (R204, R362, R363) -/

/-- The fence: no collective of the old epoch starts after it. -/
def Blk.reshardFence (b : Blk) (p : Nat) : Blk :=
  match b.opOn p (fun k => k == .reshard) with
  | none => b
  | some o =>
    if o.st ≠ .queued ∨ o.ended = true then b
    else
      let b1 := b.setOp { o with st := OpState.running }
      b1.iodsUp.foldl (fun c d =>
        let r : RegRef := ⟨.LAC_EPOCH, d, 0⟩
        (c.wf r Fld.LAC_EPOCH_FENCE_EPOCH (c.rf r Fld.LAC_EPOCH_EPOCH)).wf r Fld.LAC_EPOCH_FENCING 1) b1

/-- RESHARD's work at its acceptance: the layout image is read and clicked against the capacity present; the operation waits for the step boundary, or fences at once
where none is ahead. -/
def Blk.reshardGo (b : Blk) (r : Req) (o : LongOp) (sections : Last) (moves : List (Nat × BitVec 512)) : Blk :=
  let p := r.u 0 1
  let b := b.admitLate p
  match b.scatter (r.u 8 8) (r.u 4 4) with
  | none => b.endOp o.handle .badHostAddress 0 []
  | some es =>
    match b.clickFit p sections with
    | .error e => b.endOp o.handle e.status 0 []
    | .ok v =>
      let c1 := b.onPart p (fun x => { x with reshard := some { last := sections, var := v, moves := moves, ident := (crc32c (b.scatterRead es)).toNat, epoch := r.u 16 2 } })
      let st := c1.stepOf p
      if st.state = 0 ∨ st.state = 5 ∨ !c1.opLive p (fun k => k == .runSteps || k == .replayStep) then c1.reshardFence p else c1

/-- RESHARD. -/
def Blk.reshardCmd (b : Blk) (f m : Nat) (sections : Last) (moves : List (Nat × BitVec 512)) : Blk :=
  b.cmd f m 0x17 (fun r =>
    let p := r.u 0 1
    let cur := b.rf ⟨.LAC_EPOCH, iod0, 0⟩ Fld.LAC_EPOCH_EPOCH
    b.judged r (!b.isLoaded p || (b.opOn p (fun k => k == .reshard)).isSome || b.opLive p (fun k => k == .loadLast || k == .unloadLast || k == .restore))
      (!r.reservedOk [(0, 1), (4, 14)] || decide (7 < p) || decide (r.u 16 2 ≠ (cur + 1) % 4096)) false b.opsBusy
      (b.startLong r { handle := 0, fn := f, mbx := m, kind := .reshard, part := p, st := .queued, epoch := r.u 16 2 }
        { Asleep.none with last := some sections, moves := moves } (fun c o => c.reshardGo r o sections moves)))

/-- An epoch fence is in force (R362). -/
def Blk.epochFence (b : Blk) : Bool := b.iodsUp.any b.fencing

/-- Every collective of the old epoch that runs or is armed has completed, in every partition: the fence and the epoch are the package's (R363). -/
def Blk.drained (b : Blk) : Bool :=
  b.parts.all (fun x => x.2.colls.all (fun (c : Coll) => c.complete || (!c.started && !(b.collAt x.1 c.cseq).any b.armed)))

/-- RESHARD_COPY from a queue runs only behind the epoch fence of RESHARD, when the collectives of the old epoch have completed (R204, R363). -/
def Blk.runReshardCopy (b : Blk) (cl q : Nat) (ph : EngPhys) : Blk :=
  if b.epochFence && b.drained then b.runEng cl q 0x13 0x13 3 layoutRun ph else b

/-- RESHARD_DRAINED: the layout engine moves the tensors, the epoch advances, the flow contexts are reloaded from the new layout, and the fence opens. -/
def Blk.reshardDrained (b : Blk) (p : Nat) : Blk :=
  match b.opOn p (fun k => k == .reshard), (b.part p).bind (fun (x : Part) => x.reshard) with
  | some o, some z =>
    if o.st ≠ .running ∨ o.ended = true ∨ b.drained = false then b
    else
      let b1 := z.moves.foldl (fun c (w : Nat × BitVec 512) =>
        (layoutRun c { cl := w.1, part := p, queue := 0, replay := false, recomp := false, cobbler := true, skip := false } w.2 none).b) b
      let b2 := (b1.onPart p (fun x => { x with last := some z.last, layout := z.ident, reshard := none, newTabs := z.last.tensors })).takeVariant p z.var
      let b2 := (b2.liveClusters p).foldl (fun c cl => c.endQueues cl) b2
      let b3 := b2.iodsUp.foldl (fun c d =>
        let r : RegRef := ⟨.LAC_EPOCH, d, 0⟩
        (c.wf r Fld.LAC_EPOCH_EPOCH z.epoch).wf r Fld.LAC_EPOCH_FENCING 0) b2
      let b4 : Blk := { b3 with lac := { b3.lac with fencedOnce := true } }
      ((b4.layCut z.last).lacShow).endOp o.handle .ok 0 [(16, 2, z.epoch), (20, 4, z.ident)]
  | _, _ => b

end Sys2Proof.Machine
end

