-- ==== Sys2Proof/Machine/Boundary.lean ====
section
/-!
DEFINITION. Step boundaries, suspension, cancellation, the commit of operations, and the commands that load, unload and run a last (R268, R290 to R294, R369,
R473 to R486).
-/
namespace Sys2Proof.Machine

/-! ### LOAD_LAST, UNLOAD_LAST, RUN_STEPS -/

/-- LOAD_LAST: `sections` gives by content the sections that have no byte layout (log entry 38). -/
def Blk.loadLast (b : Blk) (f m : Nat) (sections : Last) : Blk :=
  b.cmd f m 0x10 (fun r =>
    let p := r.u 0 1
    b.judged r ((b.part p).isNone || b.isLoaded p || b.exclusiveBusy p) (!r.reservedOk [(0, 1), (4, 4), (8, 8)] || decide (7 < p)) false b.opsBusy
      (b.startLong r { handle := 0, fn := f, mbx := m, kind := .loadLast, part := p, st := .running } { Asleep.none with last := some sections }
        (fun c o => c.loadGo r o sections)))

/-- UNLOAD_LAST. -/
def Blk.unloadLast (b : Blk) (f m : Nat) : Blk :=
  b.cmd f m 0x11 (fun r =>
    let p := r.u 0 1
    b.judged r (!b.isLoaded p || b.exclusiveBusy p) (!r.reservedOk [(0, 1)] || decide (7 < p)) false b.opsBusy
      (b.startOp r { handle := 0, fn := f, mbx := m, kind := .unloadLast, part := p, st := .running } (fun c o => c.unloadGo p o)))

/-- RUN_STEPS's work: a halted step is idle again. -/
def Blk.runGo (b : Blk) (p : Nat) : Blk :=
  ((b.onStep p (fun st => if st.state = 5 then { st with state := 0 } else st)).runClock p true).pwrShow

/-- RUN_STEPS (R476, R484). -/
def Blk.runSteps (b : Blk) (f m : Nat) : Blk :=
  b.cmd f m 0x12 (fun r =>
    let p := r.u 0 1
    let until_ := decide (r.u 1 1 = 1)
    b.judged r (!b.isLoaded p || b.unrestored p || b.exclusiveBusy p)
      (!r.reservedOk [(0, 2), (4, 8), (16, 12), (32, 8)] || decide (7 < p) || decide (1 < r.u 1 1) || (!until_ && decide (r.u 4 4 = 0)) ||
        decide (r.u 8 4 ≠ b.sOf p % 2 ^ 32) || !feedOk (r.u 16 8) (r.u 24 4)) false b.opsBusy
      (((b.onPart p (fun x => { x with ranRun := true })).feedReset p).startLong r
        { handle := 0, fn := f, mbx := m, kind := .runSteps, part := p, st := .running, steps := r.u 4 4, until_ := until_, s := r.u 8 4
          ring := r.u 16 8, entries := r.u 24 4, consAddr := r.u 32 8 } .none (fun c _ => c.runGo p)))

/-- DBL_FEED_PROD_WRITE (R484): by the physical function, or by the partition's own. -/
def Blk.feedProd (b : Blk) (fn p v : Nat) : Blk :=
  if 7 < p ∨ (fn ≠ 0 ∧ fn ≠ p + 1) then b else b.wn ⟨.DBL_FEED_PROD, 0, p⟩ (v % 65536)

/-! ### Suspension (R290 to R292, R369, R481) -/

/-- The kinds that may be suspended, by mode. -/
def suspendable (k : OpKind) (now : Bool) : Bool :=
  match k with
  | .runSteps | .scrub | .export_ => true
  | .replayStep => !now
  | _ => false

/-- LAC_STATE shows a suspension. -/
def Blk.lacSusp (b : Blk) : Blk :=
  let any := b.parts.any (fun x => decide (x.2.step.susp = 3))
  b.iodsUp.foldl (fun c d => c.wf ⟨.LAC_STATE, d, 0⟩ Fld.LAC_STATE_SUSPENDED (b2n any)) b

/-- The running flow contexts of a partition pass from one state to another (R338, R369). -/
def Blk.flowsTo (b : Blk) (p old new : Nat) : Blk :=
  b.onPart p (fun x => { x with flows := x.flows.map (fun (w : Flow) => if !w.relay && decide (w.state = old) then { w with state := new } else w) })

/-- A suspension recorded for an operation. A NOW suspension within an attempt pauses VC1 to VC7 of the partition's eyelets; a BOUNDARY given while a NOW is pending
changes nothing. -/
def Blk.suspendMark (b : Blk) (o : LongOp) (now : Bool) : Blk :=
  if o.susp = .now ∧ now = false then b
  else
    let b1 := b.setOp { o with susp := if now then .now else .boundary }
    if o.kind ≠ .runSteps ∧ o.kind ≠ .replayStep then b1
    else
      let b2 := b1.onStep o.part (fun st => { st with susp := if now then 2 else 1 })
      if now && (b.stepOf o.part).open? then
        match b2.part o.part with
        | some x => ((maskList x.eyelets 48).filter b2.eyeExists).foldl (fun c e => c.pauseSend e 0xFE) (b2.flowsTo o.part 2 3)
        | none => b2
      else b2

/-- SUSPEND of one mode. -/
def Blk.suspend (b : Blk) (f m : Nat) (now : Bool) : Blk :=
  b.cmd f m 0x13 (fun r =>
    if r.u 0 1 ≠ b2n now then b
    else
      let o := b.handleOp r
      b.judged r (o.any (fun x => suspendable x.kind now && !x.st.final && x.st != .running)) (!r.reservedOk [(0, 1)]) o.isNone false
        (match o with
          | none => b
          | some x =>
            if x.st.final then b.reply r .alreadyComplete x.handle []
            else if !suspendable x.kind now then b.reply r .notSuspendable x.handle []
            else (b.suspendMark x now).reply r .ok x.handle []))

/-- The step stands where a pending suspension takes effect (R290, R291): at a boundary, between attempts, or within an attempt once nothing is in flight and the
eyelets are quiesced, with every send flow at a chunk boundary (R369). -/
def Blk.atSuspension (b : Blk) (p : Nat) : Bool :=
  let st := b.stepOf p
  if st.susp = 1 then decide (st.state = 0)
  else if st.susp = 2 then
    st.between ||
    (st.open? && (b.clustersOf p).all (fun cl => (b.flightsOf cl).all (fun f => f.skipped)) &&
      (b.part p).any (fun x => (maskList x.eyelets 48).all (fun e => decide ((b.eye e).open_ &&& 0xFE = 0)) && ((maskList x.eyelets 48).filter (fun e => b.pausing e)).all (fun e =>
        decide (b.rf (eyeReg e) Fld.EYE_STATE_QUIESCED = 1) || decide (b.rf (eyeReg e) Fld.EYE_STATE_PAUSE_TMO = 1))))
  else false

/-- SUSPENSION_POINT: the operation reports SUSPENDED. SCRUB and EXPORT stop at their next block. -/
def Blk.suspensionPoint (b : Blk) (h : Nat) : Blk :=
  match b.op h with
  | none => b
  | some o =>
    let step := o.kind == .runSteps || o.kind == .replayStep
    if o.st ≠ .running ∨ o.susp = .none ∨ o.ended = true ∨ (step && !b.atSuspension o.part) = true then b
    else
      let o1 := { o with st := .suspended, susp := .none }
      let b1 := (if step then b.runClock o.part false else b).setOp o1 |>.notice o1
      ((if step then ((b1.onStep o.part (fun st => { st with susp := 3 })).flowsTo o.part 3 4).lacSusp else b1)).pwrShow

/-- A suspension withdrawn or ended: the coast contents are delivered first, and every flow goes on. -/
def Blk.goOn (b : Blk) (o : LongOp) : Blk :=
  let b1 := (if o.kind = .runSteps then b.runClock o.part true else b).setOp { o with st := .running, susp := .none }
  if o.kind ≠ .runSteps ∧ o.kind ≠ .replayStep then b1
  else
    let b2 := ((((b1.onStep o.part (fun st => { st with susp := 0 })).unpausePart o.part).flowsTo o.part 3 2).flowsTo o.part 4 2).lacSusp
    match b2.part o.part with
    | some x => (x.colls.filter (fun (c : Coll) => c.started && !c.complete)).foldl (fun c q => c.collRun o.part q.cseq) b2
    | none => b2

/-- RESUME (R292, R453, R481). -/
def Blk.resume (b : Blk) (f m : Nat) : Blk :=
  b.cmd f m 0x14 (fun r =>
    let o := b.handleOp r
    let cool := b.pwr.coolStop && !b.pwr.wait
    b.judged r (cool || o.any (fun x => !x.st.final && x.st != .suspended && !(x.st == .running && x.susp != .none))) (!r.reservedOk []) o.isNone false
      (match o with
        | none => b
        | some x =>
          if x.st.final then b.reply r .alreadyComplete x.handle []
          else
            let b1 := if b.pwr.wait then b.coolResume else b
            let b2 := b1.goOn x
            let b3 := if x.st = .suspended ∧ x.kind = .runSteps ∧ b.pwr.wait = false then b2.barrierAll else b2
            (b3.pwrShow).reply r .ok x.handle []))

/-! ### CANCEL (R293, R482, R483) -/

/-- The run of a partition cut short (R293): before its word is sent its attempt is aborted with reason CANCELLED; at any other time the cancel waits for the boundary or
the next attempt (R584). -/
def Blk.cancelRun (b : Blk) (o : LongOp) : Blk :=
  let p := o.part
  let st := b.stepOf p
  let b1 := (((b.runClock p true).setOp { o with status := Status.cancelled.code, st := .running, susp := .none }).onStep p (fun x => { x with susp := 0 })).unpausePart p
  if st.open? then
    (b1.onStep p (fun x => { x with flags := x.flags ||| fHalt, haltWhy := 8 })).abortAttempt p
  else b1.onStep p (fun x => { x with abortNext := if x.abortNext = 0 then 8 else x.abortNext })

/-- The tests that an AWL_TEST asked for, of these units, wait no longer: no unit is deferred for one, and AWL_STATE follows. -/
def Blk.dropTests (b : Blk) (us : List Nat) : Blk :=
  let gone (t : TestReq) : Bool := t.trigger == .command && us.contains t.unit
  let b1 := (b.units.queue.filter gone).foldl (fun c t => c.wf (unitReg t.unit) Fld.AWL_UNIT_DEFERRED 0) { b with units := { b.units with queue := b.units.queue.filter (fun t => !gone t) } }
  (List.range 10).foldl (fun c d => if b.units.queue.any (fun t => gone t && decide (unitDie t.unit = d)) then c.awlShow d else c) b1

/-- What a cancel that wins does (R482), before the operation reports CANCELLED; none where the CANCEL waits for the completion record. -/
def Blk.cancelEffect (b : Blk) (o : LongOp) : Option Blk :=
  let p := o.part
  let done (c : Blk) : Blk := c.finish { o with st := .cancelled, ended := true, status := Status.cancelled.code, detail := 0, result := [], buf := [] }
  if o.st = .queued then
    let b1 : Blk := { b with asleep := b.asleep.filter (fun z => z.handle != o.handle) }
    let b2 := if o.kind = .reshard then b1.onPart p (fun x => { x with reshard := none }) else b1
    some (done (if o.kind = .awlTest then b2.dropTests o.units else b2))
  else match o.kind with
    | .loadLast => some (done (b.onPart p (fun x => { x with loading := none })))
    | .unloadLast => none
    | .reshard => none
    | .runSteps =>
      if o.ended then some (b.finish { o with st := .cancelled, status := Status.cancelled.code, detail := 0, result := b.runResult p })
      else some (b.cancelRun o)
    | .replayStep =>
      let b1 := ((b.discardAll p).onStep p (fun st => { st with state := 0, susp := 0, outcome := .none, aborted := false, sent := false, round := 0, abortNext := 0 })).unpausePart p
      some (done (b1.unrestore p))
    | .restore => some (done (b.unrestore p))
    | .secure => some (done (b.secureCancel p o.handle))
    | .awlTest =>
      let us := o.units
      let b1 := b.dropTests us
      some (done (((b.units.running.filter (fun t => t.trigger == .command && us.contains t.unit)).map (fun t => t.unit)).foldl (fun c u => c.testAbort u) b1))
    | .fwUpdate =>
      let s := b.sec.sel
      let b1 : Blk := if s.pending = o.slot ∧ o.slot < 3 then { b with sec := b.sec.setSel { s with pending := 3 } } else b
      some ((done b1).fwNext)
    | .export_ | .scrub | .attest => some (done b)

/-- CANCEL: answered at once, but where an UNLOAD_LAST or a fenced RESHARD must end first. -/
def Blk.cancel (b : Blk) (f m : Nat) : Blk :=
  b.cmd f m 0x15 (fun r =>
    let o := b.handleOp r
    b.judged r false (!r.reservedOk []) o.isNone false
      (match o with
        | none => b
        | some x =>
          if x.st.final then b.reply r .alreadyComplete x.handle []
          else match b.cancelEffect x with
            | some c => (c.pwrShow).reply r .ok x.handle []
            | none => if x.ended then (b.opCommit x.handle).reply r .alreadyComplete x.handle [] else b))

/-! ### Completion records (R483) -/

/-- What an operation leaves as its record is committed: an accepted last is installed, a copy or report reaches the host, a securing is over. -/
def Blk.commitEffect (b : Blk) (o : LongOp) : Blk :=
  match o.kind with
  | .loadLast => match (b.part o.part).bind (fun (x : Part) => x.loading) with
    | some l => if o.status = 0 then b.install o.part l.1 l.2 else b.onPart o.part (fun x => { x with loading := none })
    | none => b
  | .export_ | .attest =>
    if o.status ≠ 0 then b
    else if o.kind = .attest then
      (match b.hostWrite o.scatter o.buf with
        | some c => c.setOp { o with buf := [] }
        | none => b.setOp { o with buf := [], status := Status.badHostAddress.code, result := [] })
    else match b.scatter o.scatter o.nScatter with
      | some es => (b.scatterWrite es o.buf).setOp { o with buf := [] }
      | none => b.setOp { o with buf := [], status := Status.badHostAddress.code, result := [] }
  | .secure => (b.onPart o.part (fun x => { x with securing := if x.securing.any (fun q => decide (q.op = o.handle)) then none else x.securing })).secureNext o.part
  | _ => b

/-- OP_COMPLETION_COMMIT; a FW_UPDATE in recovery mode resets the package (R517). -/
def Blk.commitOp (b : Blk) (h : Nat) : Blk :=
  match b.op h with
  | none => b
  | some o =>
    if !o.ended || o.st.final || o.st == .suspended then b
    else
      let b1 := (b.commitEffect o).opCommit h
      let b1 : Blk := if o.kind = .fwUpdate ∧ b1.sec.recovery = true ∧ o.status = 0 then
        { b1 with sec := { b1.sec with pendCold := false }, pkg := { b1.pkg with resetDue := 5 } } else b1
      let b2 := if o.kind = .fwUpdate then b1.fwNext else b1
      b2.pwrShow

/-! ### The step boundary (R268, R294 to R296) -/

/-- The securings that the boundary of step S calls for, as (operation, layers): those of the AT_STEP operations, without any that of the notice. -/
def Blk.dueSecurings (b : Blk) (p s : Nat) : List (Nat × Nat) :=
  let n := (b.stepOf p).notice
  match b.mbx.ops.filter (fun o => o.kind == .secure && decide (o.part = p) && o.st == .queued && !o.ended && decide (o.s = s)) with
  | [] => if n.1 = s ∧ n.2 ≠ 0 then [(0, n.2)] else []
  | os => os.map (fun o => (o.handle, o.layers))

/-- Some outliving change waits for the boundary: a re-click, a securing, a re-lay. -/
def Blk.boundaryWork (b : Blk) (p s : Nat) : Bool :=
  (b.stepOf p).reclick || b.dueSecurings p s != [] || b.waitsRelay || (b.clustersOf p).any (fun cl => bitOf b.stash.fell cl)

/-- The boundary is reached: every UPD entry has retired, and before a re-click, a securing or a re-lay the POST entries too. -/
def Blk.atBoundary (b : Blk) (p : Nat) : Bool :=
  let st := b.stepOf p
  decide (st.state = 3) && decide (st.susp ≠ 3) && !((b.part p).any Part.reading) && !b.phasesLeft p (fun ph => decide (ph = 4)) &&
  (!b.boundaryWork p (b.sOf p + 1) || !b.phasesLeft p (fun ph => decide (ph = 5)))

/-- The digest store after a step. -/
def digestAdd (depth : Nat) (xs : List Digest) (d : Digest) : List Digest :=
  let ys := xs.filter (fun x => decide (x.s ≠ d.s)) ++ [d]
  ys.drop (ys.length - depth)

/-- The first tag whose digest differs from the recorded step's, and the first of its blocks that does. -/
def digestDiff (old new : Digest) : Option (Nat × Nat) :=
  ((old.digests.zip (new.digests.zip (old.pcrcs.zip new.pcrcs))).find? (fun x => x.1 != x.2.1)).map (fun x =>
    (x.1.1, ((x.2.2.1.zip x.2.2.2).findIdx? (fun y => y.1 != y.2)).getD 0))

/-- FEED_CONS reaches its host word. -/
def Blk.feedCons (b : Blk) (p : Nat) : Blk :=
  match b.feedOp p with
  | none => b
  | some o => match b.hostWrite o.consAddr (leBytes 8 ((b.stepOf p).cons % 65536)) with
    | some c => c
    | none => b.feedBad p o

/-- The securings due at the boundary begin, one behind the other; an AT_STEP operation is RUNNING then. -/
def Blk.secureDue (b : Blk) (p : Nat) : Blk :=
  (b.dueSecurings p (b.sOf p)).foldl (fun c x =>
    (match c.op x.1 with | some o => c.setOp { o with st := OpState.running } | none => c).secureStart p x.1 x.2) b

/-- What ends a run at a boundary: its count, a CANCEL, the last step of a replay, or a digest that differs. -/
def Blk.runEnds (b : Blk) (p : Nat) (diff : Option (Nat × Nat)) (s : Nat) : Blk :=
  match b.feedOp p, b.part p with
  | some o, some x =>
    let b0 := b.onStep p (fun st => { st with abortNext := if st.abortNext = 8 then 0 else st.abortNext })
    if o.kind = .replayStep then
      match diff with
      | some t => (b.endOp o.handle .replayMismatch 0 (replayResult s t.1 t.2)).onStep p (fun st => { st with susp := 0 })
      | none => if x.replayTo ≤ s then (b.endRun p .ok 0).onStep p (fun st => { st with susp := 0 }) else b
    else if o.status = Status.cancelled.code then b0.endRun p .ok 0
    else if o.status = Status.badHostAddress.code then b
    else if !o.until_ && decide (o.steps ≤ x.step.ended) then (b0.endRun p .ok 0).onStep p (fun st => { st with susp := 0 })
    else b.setOp { o with done := x.step.ended, progress := if o.until_ then 0 else x.step.ended * 1000 / o.steps }
  | _, _ => b

/-- Blocks that scrub poisoned in the partition's tensors are repaired (R401). -/
def Blk.scrubRepairs (b : Blk) (p : Nat) : Blk :=
  let mine := b.units.badBlk.filter (fun blk => (b.blkItem p blk).isSome)
  mine.foldl (fun c blk => c.contain p blk false) { b with units := { b.units with badBlk := b.units.badBlk.filter (fun blk => !mine.contains blk) } }

/-- The counters of the clusters at the end of a step. -/
def Blk.stepCounters (b : Blk) (p : Nat) (upd : Bool) : Blk :=
  (b.liveClusters p).foldl (fun c cl =>
    let c1 := c.bump ⟨.SEQ_STEP_DONE_CNT, cl, 0⟩
    if upd then c1.bump ⟨.FIN_UPDATE_CNT, cl, 0⟩ else c1) b

/-- The tags that a FIN_APPLY writes. -/
def finTags (raw : BitVec 512) (rec_ : List Byte) : List Nat :=
  let r := FinRec.parse rec_
  let algo := dsc raw 3 24 2
  [r.tagW] ++ (if algo ≤ 1 then [r.tagM] else []) ++ (if algo = 0 then [r.tagV] else [])

/-- The FIN_APPLY work that a lost die had not finished, done by the surviving dies from the gradients in HBM (R39), with the records of the lost die's
clusters and the update's values of a live cluster. -/
def Blk.finLostWork (b : Blk) (p : Nat) : Blk :=
  match b.part p, b.lastOf p with
  | some x, some l =>
    let b0 := b.onPart p (fun y => { y with finLeft := [] })
    if x.finLeft = [] ∨ x.step.update = false then b0
    else
      let live := (b.liveClusters p).headD 0
      let cls := (x.finLeft.map (fun y => y.1)).eraseDups
      let b1 := cls.foldl (fun (c : Blk) cl => ((c.wn ⟨.FIN_LSCALE, cl, 0⟩ (c.rn ⟨.FIN_LSCALE, live, 0⟩)).wn ⟨.FIN_UPDATE_CNT, cl, 0⟩
        (c.rn ⟨.FIN_UPDATE_CNT, live, 0⟩)).hyperRecord l cl) b0
      let c1 := x.finLeft.foldl (fun (c : Blk) (y : Nat × BitVec 512 × List Byte) =>
        let d : Blk := c.insStore y.1 (dsc y.2.1 2 0 27) y.2.2
        (finApply d { cl := y.1, part := p, queue := 0, replay := false, recomp := false, cobbler := false, skip := false } y.2.1 none).b) b1
      let tags := (x.finLeft.map (fun y => (finTags y.2.1 y.2.2).map (fun t => (y.1, t)))).flatten.eraseDups
      let c2 := cls.foldl (fun (c : Blk) cl => (c.wn ⟨.FIN_LSCALE, cl, 0⟩ (b.rn ⟨.FIN_LSCALE, cl, 0⟩)).wn ⟨.FIN_UPDATE_CNT, cl, 0⟩ (b.rn ⟨.FIN_UPDATE_CNT, cl, 0⟩)) c1
      ({ c2 with ins := b.ins } : Blk).onPart p (fun y => { y with
        versions := tags.foldl (fun m t => Sp.set 0 m (65536 * t.1 + t.2) ((y.version t.1 t.2 + 1) % 65536)) y.versions })
  | _, _ => b

/-- STEP_BOUNDARY: `ms` is the step's duration. -/
def Blk.stepBoundary (b : Blk) (p ms : Nat) : Blk :=
  match b.part p with
  | none => b
  | some x =>
    if !b.atBoundary p then b
    else
      let b := b.finLostWork p
      let x := (b.part p).getD x
      let st := x.step
      let dg := b.stepDigests p
      let again := (b.opOn p (fun k => k == .replayStep)).isSome
      let entry : Digest := { s := x.s, outcome := st.outcome, attempts := st.attempt + 1, names := st.names, n := st.n, digests := dg, pcrcs := b.stepPcrcs p }
      let diff := if again then ((x.digests.find? (fun d => decide (d.s = x.s))).bind (fun d => digestDiff d entry)) else none
      let store := if again then x.digests else digestAdd (b.stepCfg p Fld.SEQ_STEP_CFG_DIGEST_DEPTH) x.digests entry
      let times := (x.stepMs ++ [ms])
      let st' : Step := { st with
        state := 0, ended := st.ended + 1, cons := st.cons + 1, batch := st.nextBatch.getD [], nextBatch := none, uflow := 0, digested := true
        reclick := st.reclick || (b.clustersOf p).any (fun cl => bitOf b.stash.fell cl) }
      let b1 := b.setPart p { x with
        s := x.s + 1, digests := store, stepMs := times.drop (times.length - 16), step := st', found := [] }
      let b2 := (((b1.stepCounters p st.update).feedCons p).evPart p 0).scrubRepairs p
      let b3 := if st'.reclick && !b2.waitsRelay then (b2.reclick p).barrierAll else b2
      let b4 := ((b3.reshardFence p).secureDue p).opChangeStart
      ((b4.crossCheck p).runEnds p diff x.s).pwrShow

/-! ### The wake from DOZE (R556) -/

/-- The tests of an AWL_TEST asked for. -/
def Blk.testGo (b : Blk) (o : LongOp) : Blk := o.units.foldl (fun c u => c.askTest u .command) b

/-- One command accepted in DOZE begins. -/
def Blk.wakeOne (b : Blk) (z : Asleep) : Blk :=
  match b.op z.handle with
  | none => b
  | some o =>
    let r : Req := { fn := o.fn, mbx := o.mbx, code := o.kind.command, len := 240, handle := 0, seq := 0, pay := z.pay }
    let stays := o.kind == .reshard || o.kind == .awlTest || (o.kind == .secure && decide (r.u 1 1 = 1))
    let o1 := if stays then o else { o with st := OpState.running }
    let b1 := b.setOp o1
    match o.kind with
    | .loadLast => match z.last with | some l => b1.loadGo r o1 l | none => b1
    | .runSteps => b1.runGo o.part
    | .replayStep => b1.replayGo r o1 z.gen z.bad
    | .reshard => match z.last with | some l => b1.reshardGo r o1 l z.moves | none => b1
    | .secure => if r.u 1 1 = 1 then b1.secureAtGo r o1 else b1.secureNowGo r o1
    | .export_ => b1.exportGo r o1
    | .restore => b1.restoreGo r o1 z.gen z.bad
    | .awlTest => b1.testGo o1
    | .unloadLast | .scrub | .fwUpdate | .attest => b1

/-- DOZE_WAKE_COMPLETE: IDLE, and the queued commands start in the order of their acceptance. -/
def Blk.wakeAll (b : Blk) : Blk :=
  if !(b.pwr.doze && b.pwr.waking) then b
  else (b.asleep.foldl (fun (c : Blk) (z : Asleep) => c.wakeOne z) ({ b.dozeWake with asleep := [] } : Blk)).pwrShow

end Sys2Proof.Machine
end

