-- ==== Sys2Proof/Machine/RegAccess.lean ====
section
/-!
DEFINITION. Reading and writing registers: what a read returns, the access codes of a write, the address layout of the register blocks, and the accesses that
use them (00 R7 to R9, R476 class 4, R533, R539).
-/
namespace Sys2Proof.Machine

/-- Register names, part 1. -/
def regNames1 : List RegName :=
  [.IDENT_PART, .IDENT_PRESENT, .IDENT_MASTER, .IDENT_FEATURE_EFF, .IDENT_ERRATA_EFF, .IDENT_SEAT_UCIE, .IDENT_DIE, .WLT_MOD_STATE,
   .WLT_ROUTE, .WLT_HB_CFG, .WLT_FENCE, .WLT_UNFENCE, .WLT_REJOIN_CFG, .WLT_LOSS_TIME, .WLT_LOSS_POS, .WLT_RETRY_CNT,
   .WLT_REPAIR_CNT, .WLT_SEAT_REJECT, .SEQ_ARR_STATE, .SEQ_ARR_FAULT, .SEQ_ARR_DRY, .SEQ_ARR_STAT_WAIT, .SEQ_ARR_DRAIN_WAIT, .SEQ_ARR_BUBBLE,
   .SEQ_ARR_ACC_CE, .SEQ_ARR_DESC_CNT, .FIN_LSCALE, .FIN_LSCALE_CFG, .FIN_UF_CFG, .FIN_UF_FLUSHED, .FIN_UF_WRITTEN, .FIN_GH_CFG,
   .FIN_GH_STAT, .WIT_TOL_CFG, .SEQ_VEC_STATE, .SEQ_VEC_FLAGS, .SEQ_VEC_TRAP_EN, .SEQ_VEC_WAIT_LIMIT, .SEQ_VEC_FAULT, .SEQ_VEC_INSTR_CNT]

/-- Register names, part 2. -/
def regNames2 : List RegName :=
  [.SEQ_VEC_BANK_WAIT, .SEQ_VEC_DEP_STALL, .SEQ_VEC_TILE_CE, .SEQ_VEC_DESC_CNT, .FIN_STATE, .STH_STATE, .GTH_STATE, .LAY_STATE,
   .FIN_ERR, .STH_ERR, .GTH_ERR, .LAY_ERR, .FIN_STEP_COUNT, .FIN_UPDATE_CNT, .FIN_UNIT_CNT, .FIN_SKIP_CNT,
   .STH_SLOT, .STH_FALLBACK_CNT, .STH_RECOMP_CNT, .GTH_ROW_CNT, .GTH_OOR_CNT, .LAY_ELEM_CNT, .LAY_SAT_CNT, .WIT_CFG,
   .WIT_STAT, .WIT_SAMPLED, .WIT_SKIPPED, .WIT_ABANDONED, .WIT_HOLD, .WIT_MISMATCH, .SEQ_DMA_ERR, .SEQ_DMA_BLK_CNT,
   .SEQ_DMA_AGLET_CNT, .SEQ_RNG_KEY, .SEQ_RNG_STEP, .SEQ_RNG_RECOMP, .SEQ_RNG_STALL, .SEQ_INS_CE, .SEQ_INS_UE, .SEQ_INS_MAPOUT]

/-- Register names, part 3. -/
def regNames3 : List RegName :=
  [.HBM_STACK_STATE, .HBM_PC_OUT, .HBM_PC_PEND, .HBM_CAP, .HBM_RELAY_CTL, .HBM_RELAY_STAT, .HBM_PRIO_CFG, .HBM_SCRUB_CFG,
   .HBM_SCRUB_STAT, .HBM_ROWTRK_CFG, .HBM_ERR_LAST, .HBM_REPAIR_LAST, .HBM_CE_CNT, .HBM_UE_CNT, .HBM_ODECC_CNT, .HBM_PAR_RETRY_CNT,
   .HBM_REPAIR_CNT, .HBM_LC_DEMOTE_CNT, .HBM_BAR2_DROP, .HBM_SCRUB_POISON_CNT, .SEQ_STATE, .SEQ_STEP_CFG, .SEQ_CLOSE_TMO, .SEQ_CLOSE_LOCAL,
   .SEQ_CLOSE_RESULT, .SEQ_DROP, .SEQ_SB_STATE, .SEQ_REPLAY_CNT, .SEQ_DROP_MB_CNT, .SEQ_SKIP_CNT, .SEQ_STEP_DONE_CNT, .SEQ_FEED_WAIT,
   .SEQ_Q, .SEQ_CTR, .EYE_STATE, .EYE_CFG, .EYE_VC_WEIGHT, .EYE_PEER_ID, .EYE_PAUSE, .EYE_TMO_CFG]

/-- Register names, part 4. -/
def regNames4 : List RegName :=
  [.EYE_COAST_STAT, .EYE_LANE_CE, .EYE_FEC_CE_CNT, .EYE_FLIT_ERR_CNT, .EYE_NAK_CNT, .EYE_REPLAY_CNT, .EYE_RETRAIN_CNT, .EYE_HB_MISS_CNT,
   .EYE_CREDIT_ERR, .EYE_PAUSE_TMO_CNT, .EYE_TX_FLITS, .EYE_RX_FLITS, .LAC_STATE, .LAC_CFG, .LAC_EPOCH, .LAC_STEP,
   .LAC_RNG_KEY, .LAC_RNG_STEP, .LAC_CACHE_STAT, .LAC_MISWIRED, .LAC_ERR, .LAC_CHUNK_TX_CNT, .LAC_CHUNK_RX_CNT, .LAC_STALE_CHUNK_CNT,
   .LAC_EPOCH_ERR_CNT, .LAC_AGLET_ERR_CNT, .LAC_A2A_OVF_CNT, .LAC_ORDER_TMO_CNT, .LAC_TIMEOUT_CNT, .LAC_RELAY_CNT, .LAC_RESEND_CNT, .LAC_CACHE_MISS_CNT,
   .LAC_INGRESS_CNT, .AWL_STATE, .AWL_CFG, .AWL_CMD, .AWL_LAST, .AWL_PASS_CNT, .AWL_FAIL_CNT, .AWL_DEFER_CNT]

/-- Register names, part 5. -/
def regNames5 : List RegName :=
  [.AWL_HANDOVER_CNT, .AWL_DISAGREE_CNT, .AWL_SUSPECT_CNT, .AWL_PATH_CNT, .AWL_REPAIR_CNT, .AWL_UNIT, .PWR_STATE, .PWR_CAP,
   .PWR_CAP_CFG, .PWR_DROOP_CFG, .PWR_THERM_CFG, .PWR_THERM_STAT, .PWR_PHASES, .PWR_CAP_P, .PWR_ATTR, .PWR_ENERGY,
   .PWR_DROOP_CNT, .PWR_CAP_CNT, .PWR_TRIM_CNT, .CLK_STATE, .CLK_OP, .CLK_RAMP_CFG, .CLK_GATE_CFG, .CLK_GATED,
   .CLK_CHANGE_CNT, .CLK_FREEZE_CNT, .CLK_WAKE_CNT, .CLK_BARRIER_CNT, .PWR_MIR_INPUT, .PWR_MIR_CAP, .PWR_MIR_STATE, .PWR_MIR_TEMP,
   .PWR_MIR_ENERGY, .MBX_STATUS, .MBX_TMO, .MBX_LOCK, .MBX_LOCK_BREAK, .DBL_C2H, .DBL_C2H_MASK, .DBL_FEED_PROD]

/-- Register names, part 6. -/
def regNames6 : List RegName :=
  [.EVG_Q_BASE, .EVG_Q_CFG, .EVG_Q_PROD, .EVG_Q_CONS, .EVG_COAL_CFG, .EVG_TOP_PENDING, .EVG_COMPLETE, .EVG_STRAY_CNT,
   .EVG_OVERSERVE_CNT, .EVG_QFULL_CNT, .EVG_GRP_CFG, .EVG_MASK, .EVG_PEND, .EVG_COUNT, .SEC_STATE, .SEC_BOOT_CNT,
   .SEC_SVN, .SEC_UNLOCK_LEFT, .SEC_DBG_DENY_CNT, .SEC_FAILED_CLEAR, .SEC_UNLOCK_FAIL, .SEC_MEAS, .REC_STATE, .REC_NEXT_SEQ,
   .REC_OLDEST_SEQ, .REC_CLEARED_UPTO, .REC_OVERWRITE_CNT, .REC_REPAIR_CNT, .REC_LATE_CNT, .IDENT_START, .DBL_RESET, .DBL_BAR2_BASE,
   .PWR_I3C_ID, .PWR_I3C_INPUT, .PWR_I3C_STATE, .PWR_I3C_TEMP, .PWR_I3C_ENERGY, .PWR_I3C_PHASES, .EVG_MSIX_TABLE, .EVG_MSIX_PEND]

/-- Register names, part 7. -/
def regNames7 : List RegName :=
  [.EVG_MSIX_CTL]

/-- Every register name. -/
def regNames : List RegName := regNames1 ++ regNames2 ++ regNames3 ++ regNames4 ++ regNames5 ++ regNames6 ++ regNames7

/-! ### What a read returns -/

/-- A unit that was fenced and has passed no test since. -/
def Blk.fencedStill (b : Blk) (u : Nat) : Bool :=
  let r := b.role u
  r == roFenced || r == roSuspect || r == roFailed || (r == roTesting && b.units.running.any (fun t => t.unit == u && t.fenced))

/-- An engine's x_STATE: BUSY, FENCED until its test passes, INFLIGHT (R209). -/
def Blk.engState (b : Blk) (cl code u : Nat) : Nat :=
  let n := ((b.flightsOf cl).filter (fun f => decide (b.bindOf f = code))).length
  b2n (decide (n ≠ 0)) + 2 * b2n (b.fencedStill (clUnit cl u)) + 4 * min n 4

/-- SEQ_ARR_STATE of a core: the arrays at work, those of them in split-array mode, and the banks that the vector engine holds, beside the fences (R83). -/
def Blk.arrState (b : Blk) (core : Nat) (stored : RegVal) : RegVal :=
  let fs := (b.flightsOf (core / 5)).filter (fun f => decide (b.bindOf f = core % 5) && b.begun f && f.result.any (fun r => decide (r % 256 = 0) || decide (r % 256 = 0x20)))
  let ds := fs.map (fun f => ArrDesc.parse f.raw)
  let busy (a : Nat) : Bool := ds.any (fun d => d.named.any (fun x => x.1 == a))
  let split (a : Nat) : Bool := ds.any (fun d => d.split && d.named.any (fun x => x.1 == a))
  let vec (k : Nat) : Bool := decide (b.cores.bankState (8 * core + k) 0 = 2) || decide (b.cores.bankState (8 * core + k) 1 = 2)
  let sum (n : Nat) (p : Nat → Bool) : Nat := ((List.range n).map (fun i => if p i then 2 ^ i else 0)).sum
  Fld.SEQ_ARR_STATE_BANK_VEC.set (Fld.SEQ_ARR_STATE_SPLIT.set (Fld.SEQ_ARR_STATE_BUSY.set stored (sum 4 busy)) (sum 4 split)) (sum 8 vec)

/-- SEQ_STATE of a cluster (R297). -/
def Blk.seqState (b : Blk) (cl : Nat) : Nat :=
  match (b.partOf cl).bind b.part with
  | none => 0
  | some x =>
    let st := x.step
    (if st.susp = 3 then 4 else st.state) + 2 ^ 3 * (st.attempt % 16) + 2 ^ 7 * st.lastOut.code + 2 ^ 10 * (st.lastWhy % 16) + 2 ^ 14 * b2n st.inSet +
      2 ^ 15 * b2n x.loaded + 2 ^ 16 * (x.variant % 4)

/-- The step of the partition that holds a cluster. -/
def Blk.stepAt (b : Blk) (cl : Nat) : Step := match (b.partOf cl).bind b.part with | some x => x.step | none => .idle

/-- SEQ_DROP: bit n for a dropped micro-batch with number n modulo 256. -/
def Step.dropBits (st : Step) : Nat := st.drop.foldl (fun v d => setBit v (d.1 % 256) true) 0

/-- QSTATE of a queue. -/
def Blk.qState (b : Blk) (cl q : Nat) : Nat :=
  match b.partOf cl with
  | none => 0
  | some p =>
    if b.rf (qReg cl q) Fld.SEQ_Q_LENGTH = 0 then 0
    else match b.headEntry cl q with
      | none => 5
      | some e =>
        if (b.stepOf p).held then 6
        else if (b.stepOf p).state = 0 ∧ e.phase ≤ 4 then 0
        else if b.phaseOpen p e.phase = false then 3
        else if b.waitOk cl e = false then 2
        else if b.boardRoom cl q = false then 4
        else 1

/-- A unit's state word with the parts that follow from the rest of the state (R379; log entry 230). -/
def Blk.unitWord (b : Blk) (u : Nat) (stored : RegVal) : RegVal :=
  Fld.AWL_UNIT_PARTITION.set (Fld.AWL_UNIT_BUSY.set (Fld.AWL_UNIT_BOUND.set stored (b2n (b.unitBound u))) (b2n (b.unitBusy u)))
    (if unitDie u < 4 then (b.partOf (unitCluster u)).getD 0 else 0)

/-- SEC_STATE (R541). -/
def Sec.stateWord (x : Sec) : Nat :=
  x.booted % 4 + 4 * (x.sel.active % 4) + 2 ^ 4 * (x.sel.previous % 4) + 2 ^ 6 * (x.sel.pending % 4) + 2 ^ 8 * b2n x.recovery + 2 ^ 9 * (x.scopes % 8) +
    2 ^ 12 * b2n x.udsLocked + 2 ^ 13 * (x.key % 4) + 2 ^ 16 * ((List.range 4).map (fun i => if x.revoked.getD i false then 2 ^ i else 0)).sum +
    2 ^ 20 * ((List.range 3).map (fun i => if x.sel.isBad i then 2 ^ i else 0)).sum

/-- The target of a gatherer port, and whether a group is bound to it. -/
def Blk.portBound (b : Blk) (port g : Nat) : Bool := decide (b.evTarget (evDie (port / 16) (port % 16)) g = port % 16)

/-- A module state word of a die names a position that the die has fenced: the module shows OFF (R37), a FAILED one too, which comes back FAILED (R19). -/
def Blk.modFenced (b : Blk) (d : Nat) (v : RegVal) : Bool :=
  let at_ := Fld.WLT_MOD_STATE_FACING.get v
  decide (Fld.WLT_MOD_STATE_ROLE.get v ≠ 0) && bitOf (b.rn ⟨.WLT_FENCE, d, 0⟩) (if b.pkg.sku.seat && decide (at_ = seatPos) && decide (d < 4) then 10 else at_)

/-- The value of a register as a read returns it; WO bits read 0. -/
def Blk.regView (b : Blk) (r : RegRef) : RegVal :=
  let v := b.rd r
  let n (x : Nat) : RegVal := BitVec.ofNat 256 x
  let d := evDie (r.at_ / 16) (r.at_ % 16)
  let x := match r.name with
    | .IDENT_START => Fld.IDENT_START_STAGE.set v b.stageShown
    | .SEQ_ARR_STATE => b.arrState r.at_ v
    | .SEQ_STATE => n (b.seqState r.at_)
    | .SEQ_CLOSE_LOCAL => n (b.stepAt r.at_).local_
    | .SEQ_CLOSE_RESULT => n (b.stepAt r.at_).result
    | .SEQ_DROP => n (b.stepAt r.at_).dropBits
    | .SEQ_SB_STATE => n ((b.flightsOf r.at_).length % 256 + 256 * (b.dieFlights (clDie r.at_) % 2048))
    | .SEQ_Q => Fld.SEQ_Q_QSTATE.set v (b.qState r.at_ r.idx)
    | .FIN_STATE => n (b.engState r.at_ 0x10 5)
    | .STH_STATE => n (b.engState r.at_ 0x11 6)
    | .GTH_STATE => n (b.engState r.at_ 0x12 7)
    | .LAY_STATE => n (b.engState r.at_ 0x13 8)
    | .WLT_MOD_STATE => if b.modFenced r.at_ v then Fld.WLT_MOD_STATE_STATE.set v 0 else v
    | .WIT_STAT => Fld.WIT_STAT_MODE.set v (b.witMode r.at_)
    | .SEQ_CTR => if r.idx = 255 then 0 else v
    | .AWL_UNIT => b.unitWord (unitId r.at_ r.idx) v
    | .SEC_STATE => if r.at_ = iod0 then n b.sec.stateWord else 0
    | .SEC_BOOT_CNT => if r.at_ = iod0 then n b.recd.bootCnt else 0
    | .SEC_SVN => if r.at_ = iod0 then n b.sec.svn else 0
    | .REC_NEXT_SEQ => n b.recd.nextSeq
    | .REC_OLDEST_SEQ => n b.recd.oldestSeq
    | .REC_CLEARED_UPTO => n b.recd.cleared
    | .EVG_TOP_PENDING => n (b.evTop (r.at_ / 16) (r.at_ % 16))
    | .EVG_PEND => if b.portBound r.at_ r.idx then n (b.evPendWord d r.idx) else 0
    | .EVG_MASK => if b.portBound r.at_ r.idx then b.rd ⟨.EVG_MASK, d * 16, r.idx⟩ else 0
    | .EVG_GRP_CFG => if b.portBound r.at_ r.idx then b.rd ⟨.EVG_GRP_CFG, d * 16, r.idx⟩ else 0
    | .EVG_COUNT => if b.portBound r.at_ (r.idx / 32) then n (b.evCount d r.idx) else 0
    | _ => v
  if r.name.row.blk = .recorder ∧ r.at_ ≠ b.recd.owner then 0 else x &&& ~~~ r.name.row.wo

/-- The bits of a register that lie in `n` bytes from byte `o` on. -/
def byteMask (o n : Nat) : RegVal := BitVec.ofNat 256 ((2 ^ (8 * n) - 1) * 2 ^ (8 * o))

/-- A read of `n` bytes from byte `o` of a register: RCL bits in them return to their reset value. -/
def Blk.regRead (b : Blk) (r : RegRef) (o n : Nat) : List Byte × Blk :=
  let v := b.regView r
  let clr := r.name.row.rcl &&& byteMask o n
  (((leBytes 32 v.toNat).drop o).take n, if clr = 0 then b else b.wr r ((b.rd r &&& ~~~ clr) ||| (r.reset &&& clr)))

/-- RCL_READ (R9): a read of a whole register; `upd` is what the hardware adds to an RCL field of `w` bits at `lo` in the same cycle, on top of the cleared value. -/
def Blk.rclRead (b : Blk) (r : RegRef) (lo w upd : Nat) : Blk :=
  let y := b.regRead r 0 ((r.name.row.width + 7) / 8)
  let f : Fld := ⟨lo, w⟩
  let b1 : Blk := { y.2 with readData := y.1 }
  if upd = 0 ∨ w = 0 ∨ BitVec.ofNat 256 ((2 ^ w - 1) * 2 ^ lo) &&& ~~~ r.name.row.rcl ≠ 0 then b1 else b1.bumpFld r f upd

/-! ### Writes by access code -/

/-- What a register holds after a write of `v` to the bits of `m`, before clamps (R7): RW and WO fields are set. -/
def accessWrite (w : RegRow) (old v m : RegVal) : RegVal :=
  (old &&& ~~~ ((w.rw ||| w.wo) &&& m)) ||| (v &&& (w.rw ||| w.wo) &&& m) |> fun x => (x &&& ~~~ (v &&& w.w1c &&& m)) ||| (v &&& w.w1s &&& m)

/-- Registers whose writes have rows of their own: REGISTER_WRITE leaves them alone. -/
def ownRow (n : RegName) : Bool :=
  [RegName.MBX_LOCK, .MBX_LOCK_BREAK, .EVG_COMPLETE, .EVG_Q_CONS, .EVG_MASK, .DBL_FEED_PROD, .DBL_RESET, .SEC_FAILED_CLEAR, .EYE_PAUSE, .AWL_CMD, .HBM_RELAY_CTL, .WLT_FENCE,
   .WLT_UNFENCE].contains n

/-- Registers of a group's binding: HOLDOFF_US is the writer's only while the group is bound to it (R496). -/
def Blk.grpCfgWrite (b : Blk) (port g v : Nat) : Blk :=
  if b.portBound port g then b.wf ⟨.EVG_GRP_CFG, evDie (port / 16) (port % 16) * 16, g⟩ Fld.EVG_GRP_CFG_HOLDOFF_US (v % 1024) else b

/-- What follows a write. -/
def Blk.afterWrite (b : Blk) (r : RegRef) : Blk :=
  match r.name with
  | .DBL_C2H | .DBL_C2H_MASK => b.bellCond r.at_
  | .EVG_MSIX_TABLE | .EVG_MSIX_CTL => if b.rn ⟨.EVG_MSIX_PEND, r.at_, 0⟩ = 1 then (b.wn ⟨.EVG_MSIX_PEND, r.at_, 0⟩ 0).msixSend r.at_ else b
  | .CLK_OP => b.opTarget r.at_
  | .PWR_CAP | .PWR_CAP_CFG => b.pwrShow
  | .EYE_CFG => b.eyeEnable r.at_
  | _ => b

/-- A write of `v` to the bits `m` of a register by its access codes; values that the manual replaces are replaced, and R130's are recorded. -/
def Blk.regWrite (b : Blk) (r : RegRef) (v m : RegVal) : Blk :=
  let w := r.name.row
  let x := accessWrite w (b.rd r) v m
  match r.name with
  | .EVG_Q_CFG => b.evCfgWrite (r.at_ / 16) (r.at_ % 16) x.toNat
  | .EVG_GRP_CFG => b.grpCfgWrite r.at_ r.idx x.toNat
  | .CLK_OP => if 5 ≤ x.toNat % 8 then b else (b.wr r x).afterWrite r
  | .WLT_HB_CFG => b
  | _ =>
    let y := regClamp b.pkg.sku.maxInput r.name x
    let b1 := (b.wr r y).afterWrite r
    if cfgInvalid r.name x.toNat then b1.record { code := 0x0025, die := if r.at_ < 36 then clDie r.at_ else b.master, data := leBytes 4 x.toNat } else b1

/-- REGISTER_WRITE (R7, R8): the writes that have no row of their own. -/
def Blk.registerWrite (b : Blk) (r : RegRef) (v : RegVal) : Blk :=
  if ownRow r.name || decide (r.name.row.count ≤ r.idx) then b else b.regWrite r v r.name.row.mask

/-! ### The address layout (R476 class 4, R533) -/

/-- The register blocks in the order of QUERY_STATE class 4. -/
def blkOrder : List RegBlk :=
  [.ident, .mbx, .dbl, .evg, .pwr, .clk, .awl, .wit, .fin, .sth, .gth, .lay, .seq, .hbm, .eye, .lac, .wlt, .recorder, .sec]

/-- Whether a block belongs to each cluster of a compute die. -/
def RegBlk.ofCluster (x : RegBlk) : Bool := [RegBlk.wit, .fin, .sth, .gth, .lay, .seq].contains x

/-- The copies of a register in a die's block (the I3C target's registers have no place there), for a cluster's block of cluster k, with what each adds to the table's offset. -/
def regCopies (n : RegName) (d k : Nat) : List (Nat × Nat) :=
  let vec := [RegName.SEQ_VEC_STATE, .SEQ_VEC_FLAGS, .SEQ_VEC_TRAP_EN, .SEQ_VEC_WAIT_LIMIT, .SEQ_VEC_FAULT, .SEQ_VEC_INSTR_CNT, .SEQ_VEC_BANK_WAIT, .SEQ_VEC_DEP_STALL,
    .SEQ_VEC_TILE_CE, .SEQ_VEC_DESC_CNT].contains n
  let i3c := [RegName.PWR_I3C_ID, .PWR_I3C_INPUT, .PWR_I3C_STATE, .PWR_I3C_TEMP, .PWR_I3C_ENERGY, .PWR_I3C_PHASES].contains n
  match n.row.scope with
  | .package => if i3c then [] else [(0, 0)]
  | .die => [(d, 0)]
  | .cluster => if d < 4 ∧ k < 9 then [(9 * d + k, 0)] else []
  | .core => if d < 4 ∧ k < 9 then (List.range 5).map (fun c => (5 * (9 * d + k) + c, (if vec then 0x2400 else 0x2000) + 0x40 * c)) else []
  | .eyelet => if 4 ≤ d then (List.range 8).map (fun j => (8 * (d - 4) + j, 0x100 * j)) else []
  | .function => if d = iod0 then [(0, 0)] else []
  | .port => [(16 * d, 0)]

/-- The register, and the byte of it, at an offset of a block. The AWL_ block of an I/O die holds AWL_UNIT_0 alone (R407). -/
def regFind (d : Nat) (x : RegBlk) (k off : Nat) : Option (RegRef × Nat) :=
  regNames.findSome? (fun n =>
    let w := n.row
    if w.blk ≠ x then none
    else (regCopies n d k).findSome? (fun c =>
      let lo := c.2 + w.off
      let span := if w.stride = 0 then (w.width + 7) / 8 else w.stride
      let n_ := if n = .AWL_UNIT ∧ 4 ≤ d then 1 else w.count
      if lo ≤ off ∧ off < lo + n_ * span ∧ (off - lo) % span < (w.width + 7) / 8 then some (⟨n, c.1, (off - lo) / span⟩, (off - lo) % span)
      else none))

/-- `n` bytes read from an offset of a die's block on, each of the register that stands there; reserved places as 0. -/
def Blk.blockBytes (b : Blk) (d : Nat) (x : RegBlk) (k : Nat) : Nat → Nat → List Byte × Blk
  | 0, _ => ([], b)
  | n + 1, off =>
    let y : List Byte × Blk := match (if b.up d then regFind d x k off else none) with
      | some (r, o) => b.regRead r o 1
      | none => (zeros 1, b)
    let z := y.2.blockBytes d x k n (off + 1)
    (y.1 ++ z.1, z.2)

/-- `n` 32-bit words read from a die's block on. -/
def Blk.blockRead (b : Blk) (d : Nat) (x : RegBlk) (k n off : Nat) : List Byte × Blk := b.blockBytes d x k (4 * n) off

/-- The die, block, cluster and offset of a debug-window address. -/
def windowAt (a : Nat) : Option (Nat × RegBlk × Nat × Nat) :=
  let x := a - 0x1000000
  let d := x / 0x400000
  let y := x % 0x400000
  if a < 0x1000000 ∨ 10 ≤ d then none
  else match blkOrder[y / 0x30000]? with
    | none => none
    | some q => if q.ofCluster then some (d, q, y % 0x30000 / 0x4000, y % 0x30000 % 0x4000) else some (d, q, 0, y % 0x30000)

end Sys2Proof.Machine
end

