-- ==== Sys2Proof/Machine/Places.lean ====
section
/-!
DEFINITION. The places that the family has (R1 to R3, R10, R377): what a command may name.
-/
namespace Sys2Proof.Machine

/-- A PCIe function: 0 physical, 1 to 8 virtual. -/
def fnNo (f : Nat) : Bool := decide (f < 9)
/-- A host mailbox of a function (R461): 16 of the physical function, 4 of a virtual one. -/
def mbxOk (f m : Nat) : Bool := fnNo f && decide (m < fnMailboxes f)
/-- A die position (R1): 0 to 3 compute, 4 to 9 I/O. -/
def dieNo (d : Nat) : Bool := decide (d < 10)
/-- A cluster, package-wide. -/
def clNo (cl : Nat) : Bool := decide (cl < 36)
/-- A queue of a cluster (R255). -/
def queueNo (cl q : Nat) : Bool := clNo cl && decide (q < 16)
/-- A core, package-wide. -/
def coreNo (c : Nat) : Bool := decide (c < 180)
/-- An eyelet. -/
def eyeNo (e : Nat) : Bool := decide (e < 48)
/-- A partition number (R487). -/
def partNo (p : Nat) : Bool := decide (p < 8)
/-- A unit identifier (R377). -/
def unitNo (u : Nat) : Bool := decide (u < 4096) && dieNo (unitDie u) && decide (unitSlot u < (if unitDie u < 4 then 144 else 1))
/-- A pseudo-channel, package-wide. -/
def pcNo (pc : Nat) : Bool := decide (pc < 24 * 64)
/-- A 32-bit and a 64-bit word. -/
def word32 (v : Nat) : Bool := decide (v < 2 ^ 32)
def word64 (v : Nat) : Bool := decide (v < 2 ^ 64)
/-- A port of an event gatherer: of a die's cobbler (0), or of a function (1 to 9) on IOD0 (R492, R499). -/
def evPortNo (d t : Nat) : Bool := dieNo d && (decide (t = 0) || (decide (d = iod0) && decide (t ≤ 9)))
/-- The copies that a scope has. -/
def Scope.has : Scope → Nat → Bool
  | .package, k => decide (k = 0)
  | .die, k => dieNo k
  | .cluster, k => clNo k
  | .core, k => coreNo k
  | .eyelet, k => eyeNo k
  | .function, k => fnNo k
  | .port, k => evPortNo (k / 16) (k % 16)
/-- A register that exists. -/
def regOk (r : RegRef) : Bool := Scope.has r.name.row.scope r.at_ && decide (r.idx < r.name.row.count)
/-- The operand fields of a vector instruction (R141). -/
def vOpsOk (f : VOps) : Bool :=
  decide (f.dst < 32) && decide (f.s1 < 128) && decide (f.s2 < 128) && decide (f.s3 < 128) && decide (f.pred < 8) && decide (f.mod < 2 ^ 24)

end Sys2Proof.Machine
end

