-- ==== Sys2Proof/WellFormed.lean ====
section
/-!
DEFINITION. Well-formed commands: every place that a command names exists in the family, and its bytes have the length that the manual gives.
-/
namespace Sys2Proof

open Machine

/-- The operands of a command name places that exist. -/
def Instr.wf : Instr → Bool
  | .identify f m => mbxOk f m
  | .queryStateSummary f m => mbxOk f m
  | .queryStatePartition f m => mbxOk f m
  | .queryStateOperation f m => mbxOk f m
  | .queryStateGenerations f m => mbxOk f m
  | .queryStateRegisters f m => mbxOk f m
  | .queryStateUnits f m => mbxOk f m
  | .loadLast f m _ => mbxOk f m
  | .unloadLast f m => mbxOk f m
  | .runSteps f m => mbxOk f m
  | .suspendBoundary f m => mbxOk f m
  | .suspendNow f m => mbxOk f m
  | .resume f m => mbxOk f m
  | .cancel f m => mbxOk f m
  | .replayStep f m _ _ => mbxOk f m
  | .reshard f m _ _ => mbxOk f m
  | .reshardDrained p => partNo p
  | .secureStateNow f m => mbxOk f m
  | .secureStateAtStep f m => mbxOk f m
  | .secureStateExport f m => mbxOk f m
  | .secureStatePolicy f m => mbxOk f m
  | .secureStatePolicyOff f m => mbxOk f m
  | .restoreState f m _ _ => mbxOk f m
  | .awlTest f m => mbxOk f m
  | .scrub f m => mbxOk f m
  | .setPowerModuleCap f m => mbxOk f m
  | .setPowerPartitionCap f m => mbxOk f m
  | .setPowerOpPoint f m => mbxOk f m
  | .setPowerState f m => mbxOk f m
  | .setPowerCapperCfg f m => mbxOk f m
  | .setPartitionDefine f m => mbxOk f m
  | .setPartitionDelete f m => mbxOk f m
  | .readRecorder f m _ _ => mbxOk f m
  | .clearRecorder f m => mbxOk f m
  | .unlockChallenge f m => mbxOk f m
  | .unlockResponse f m => mbxOk f m
  | .unlockResponseRelock f m => mbxOk f m
  | .fwUpdate f m => mbxOk f m
  | .attest f m => mbxOk f m
  | .hostRequest f m msg => mbxOk f m && decide (msg.length = 256)
  | .responseRead f m => mbxOk f m
  | .mbxRequestTimeout f m => mbxOk f m
  | .mbxLockRead f m owner => mbxOk f m && decide (owner < 9)
  | .mbxLockRelease f m v owner => mbxOk f m && decide (owner < 9) && word32 v
  | .mbxLockBreak mask => word64 mask
  | .opCompletionCommit h => word32 h
  | .dblFeedProdWrite f p v => fnNo f && partNo p && word32 v
  | .dblResetCold v => word32 v
  | .dblResetPackage v => word32 v
  | .dblResetLapse => true
  | .bar2Write _ _ => true
  | .bar2Read _ _ => true
  | .debugWindowAccess _ _ => true
  | .secFailedClear v => word32 v
  | .eyePauseWrite e mask => eyeNo e && decide (mask < 256)
  | .eyeHoldWrite e => eyeNo e
  | .awlCmdFence u => unitNo u
  | .awlCmdReturn u => unitNo u
  | .awlCmdTest u => unitNo u
  | .awlCmdMakeSpare u => unitNo u
  | .awlCmdFail u => unitNo u
  | .relayStart => true
  | .relayComplete _ _ => true
  | .wltFenceWrite o v => dieNo o && word32 v
  | .wltUnfenceWrite o v => dieNo o && word32 v
  | .evgComplete d t src served => evPortNo d t && decide (src < 2048) && decide (served < 256)
  | .evgQConsWrite d t v => evPortNo d t && word32 v
  | .evgQEnable d t v => evPortNo d t && word32 v
  | .evgMaskWrite d t g v => evPortNo d t && decide (g < 64) && word32 v
  | .rclRead reg lo w _ => regOk reg && decide (lo + w ≤ reg.name.row.width)
  | .mirrorEnergyRead => true
  | .registerWrite reg _ => regOk reg && !ownRow reg.name
  | .mirrorRefresh _ _ => true
  | .arrayNop cl q => queueNo cl q
  | .matmul cl q _ _ => queueNo cl q
  | .accClear cl q _ => queueNo cl q
  | .vectorNop cl q => queueNo cl q
  | .vectorRun cl q _ _ => queueNo cl q
  | .vecInstrNop core ops => coreNo core && vOpsOk ops
  | .endProg core ops => coreNo core && vOpsOk ops
  | .setvl core ops => coreNo core && vOpsOk ops
  | .setrc core ops => coreNo core && vOpsOk ops
  | .accrel core ops => coreNo core && vOpsOk ops
  | .fadd core ops => coreNo core && vOpsOk ops
  | .fsub core ops => coreNo core && vOpsOk ops
  | .fmul core ops => coreNo core && vOpsOk ops
  | .ffma core ops => coreNo core && vOpsOk ops
  | .fmax core ops => coreNo core && vOpsOk ops
  | .fmin core ops => coreNo core && vOpsOk ops
  | .fabs core ops => coreNo core && vOpsOk ops
  | .fneg core ops => coreNo core && vOpsOk ops
  | .fmov core ops => coreNo core && vOpsOk ops
  | .cvtfi core ops => coreNo core && vOpsOk ops
  | .cvtif core ops => coreNo core && vOpsOk ops
  | .iadd core ops => coreNo core && vOpsOk ops
  | .isub core ops => coreNo core && vOpsOk ops
  | .imul core ops => coreNo core && vOpsOk ops
  | .imax core ops => coreNo core && vOpsOk ops
  | .imin core ops => coreNo core && vOpsOk ops
  | .iand core ops => coreNo core && vOpsOk ops
  | .ior core ops => coreNo core && vOpsOk ops
  | .ixor core ops => coreNo core && vOpsOk ops
  | .ishl core ops => coreNo core && vOpsOk ops
  | .ishr core ops => coreNo core && vOpsOk ops
  | .imov core ops => coreNo core && vOpsOk ops
  | .rcp core ops => coreNo core && vOpsOk ops
  | .rsqrt core ops => coreNo core && vOpsOk ops
  | .sqrt core ops => coreNo core && vOpsOk ops
  | .exp2 core ops => coreNo core && vOpsOk ops
  | .log2 core ops => coreNo core && vOpsOk ops
  | .tanh core ops => coreNo core && vOpsOk ops
  | .erf core ops => coreNo core && vOpsOk ops
  | .redSum core ops => coreNo core && vOpsOk ops
  | .sumsq core ops => coreNo core && vOpsOk ops
  | .prod core ops => coreNo core && vOpsOk ops
  | .redMax core ops => coreNo core && vOpsOk ops
  | .redMin core ops => coreNo core && vOpsOk ops
  | .argmax core ops => coreNo core && vOpsOk ops
  | .argmin core ops => coreNo core && vOpsOk ops
  | .isum core ops => coreNo core && vOpsOk ops
  | .redImax core ops => coreNo core && vOpsOk ops
  | .redImin core ops => coreNo core && vOpsOk ops
  | .lperm core ops => coreNo core && vOpsOk ops
  | .rperm core ops => coreNo core && vOpsOk ops
  | .lbcast core ops => coreNo core && vOpsOk ops
  | .rbcast core ops => coreNo core && vOpsOk ops
  | .lrot core ops => coreNo core && vOpsOk ops
  | .fcmp core ops => coreNo core && vOpsOk ops
  | .icmp core ops => coreNo core && vOpsOk ops
  | .pand core ops => coreNo core && vOpsOk ops
  | .por core ops => coreNo core && vOpsOk ops
  | .pxor core ops => coreNo core && vOpsOk ops
  | .pnot core ops => coreNo core && vOpsOk ops
  | .ptri core ops => coreNo core && vOpsOk ops
  | .drop core ops => coreNo core && vOpsOk ops
  | .vld core ops => coreNo core && vOpsOk ops
  | .vst core ops => coreNo core && vOpsOk ops
  | .vecBankTimeout core => coreNo core
  | .engineNop q _ => queueNo q.cl q.q
  | .finScan cl q _ => queueNo cl q
  | .finApply cl q _ _ => queueNo cl q
  | .finApplyReissue cl q on _ _ => queueNo cl q && clNo on
  | .save cl q _ => queueNo cl q
  | .load cl q _ => queueNo cl q
  | .free cl q _ => queueNo cl q
  | .gather cl q _ => queueNo cl q
  | .scatter cl q _ => queueNo cl q
  | .sort cl q _ => queueNo cl q
  | .param cl q _ => queueNo cl q
  | .cast cl q _ _ => queueNo cl q
  | .amax cl q _ => queueNo cl q
  | .reshardCopy cl q _ => queueNo cl q
  | .wcopy cl q _ => queueNo cl q
  | .dmaCopy cl q _ => queueNo cl q
  | .dmaIn cl q _ => queueNo cl q
  | .dmaOut cl q _ => queueNo cl q
  | .dmaZero cl q _ => queueNo cl q
  | .contextDiscard cl _ => clNo cl
  | .queueEntryIssue q _ => queueNo q.cl q.q
  | .waitEntry cl q => queueNo cl q
  | .engineCompletion cl _ _ => clNo cl
  | .feedFetch p _ _ => partNo p
  | .attemptStart x => partNo x.part && x.parity.all unitNo
  | .closingWordSend p => partNo p
  | .closeWord e _ => eyeNo e
  | .closeResult p _ => partNo p
  | .nameList e _ => eyeNo e
  | .nameResult p _ => partNo p
  | .closeTimeout p => partNo p
  | .dropNotice e _ => eyeNo e
  | .dropAck e _ => eyeNo e
  | .attemptAbort e _ => eyeNo e
  | .stepBoundary p _ => partNo p
  | .suspensionPoint h => word32 h
  | .collectiveArmReport p _ t => partNo p && decide (t < 4)
  | .allReduce p _ _ => partNo p
  | .reduceScatter p _ _ => partNo p
  | .allGather p _ _ => partNo p
  | .broadcast p _ _ => partNo p
  | .send p _ _ => partNo p
  | .recv p _ _ => partNo p
  | .a2aDispatch p _ _ => partNo p
  | .a2aCombine p _ _ => partNo p
  | .put p _ _ => partNo p
  | .collectiveComplete p _ => partNo p
  | .contrib e _ _ => eyeNo e
  | .partialSum e _ _ => eyeNo e
  | .result e _ _ => eyeNo e
  | .a2aRows e _ _ => eyeNo e
  | .a2aCount e _ => eyeNo e
  | .cack e _ => eyeNo e
  | .partner e _ => eyeNo e
  | .heritageStepStatus e _ _ _ _ _ _ => eyeNo e
  | .collectiveOrderTimeout p _ => partNo p
  | .lacTimeout p _ => partNo p
  | .linkDown e => eyeNo e
  | .dataFlit e raw => eyeNo e && decide (raw.length = 256)
  | .idleFlit e ack cr fix => eyeNo e && (RxHead.mk 0 ack cr.1 cr.2 fix).ok
  | .nak x seq => eyeNo x.eye && x.head.ok && decide (seq < 4096)
  | .replayTimeout e => eyeNo e
  | .heartbeat x _ => eyeNo x.eye && x.head.ok
  | .heartbeatSend e => eyeNo e
  | .heartbeatSilence e => eyeNo e
  | .flitLockLoss e => eyeNo e
  | .pause x mask => eyeNo x.eye && x.head.ok && decide (mask < 256)
  | .unpause x => eyeNo x.eye && x.head.ok
  | .coastDone x => eyeNo x.eye && x.head.ok
  | .pauseTmo e => eyeNo e
  | .hold x => eyeNo x.eye && x.head.ok
  | .degrade x lane _ => eyeNo x.eye && x.head.ok && decide (lane < 4)
  | .laneFailure e lane => eyeNo e && decide (lane < 4)
  | .identity x _ => eyeNo x.eye && x.head.ok
  | .creditInit x _ => eyeNo x.eye && x.head.ok
  | .trainingStageTimeout e => eyeNo e
  | .detectRetry e _ => eyeNo e
  | .eyeletTrainingComplete e tx rx => eyeNo e && decide (tx < 16) && decide (rx < 16)
  | .cableInserted n => decide (n < 6)
  | .weltHeartbeatSend d _ => dieNo d
  | .dieLossDetect o d => dieNo o && dieNo d
  | .dieLossBroadcast o d => dieNo o && dieNo d
  | .routeInstall => true
  | .weltLaneRepair d n _ => dieNo d && decide (n < 64)
  | .cobblerHeartbeat d => dieNo d
  | .cobblerSilent o d => dieNo o && dieNo d
  | .masterClaim d => dieNo d
  | .dieRejoin d _ _ => dieNo d
  | .dieAdmission d => dieNo d
  | .rejoinDeadline d => dieNo d
  | .seatWrite edge _ _ => decide (edge < 4)
  | .seatRead edge _ _ => decide (edge < 4)
  | .seatDoorbell edge _ => decide (edge < 4)
  | .seatDown => true
  | .hbmRead _ _ _ _ => true
  | .hbmWrite _ pay _ _ => decide (pay.length = 4096)
  | .hbmRowRepair pc _ => pcNo pc
  | .hbmScrubRead _ _ _ => true
  | .rowTrackerExpiry st _ => decide (st < 24)
  | .insoleScrub cl _ _ => clNo cl
  | .witnessCompare cl _ => clNo cl
  | .handover cl n _ => clNo cl && decide (n < 5)
  | .awlTestStart u _ => unitNo u
  | .awlTestResult u _ _ _ => unitNo u
  | .faultWindowExpiry u => unitNo u
  | .drainTimeout u _ _ => unitNo u
  | .twinRequest e _ => eyeNo e
  | .twinReply e _ => eyeNo e
  | .partnerUnusableNotice e _ => eyeNo e
  | .partnerLayerCommit p => partNo p
  | .flashLayerCommit p => partNo p
  | .secureReport e _ => eyeNo e
  | .inputApplied _ _ => true
  | .bootRom _ => true
  | .discovery _ _ => true
  | .weltTraining _ => true
  | .hbmTraining up => up.errs.all (fun e => pcNo e.1)
  | .startupAwlTests _ => true
  | .packageReady _ => true
  | .bootWatchdogExpiry => true
  | .coldReset => true
  | .packageReset => true
  | .dieReset d => dieNo d
  | .cobblerReset d => dieNo d
  | .clusterReset cl => clNo cl
  | .functionLevelReset f => fnNo f
  | .perstNAssert => true
  | .perstNDeassert => true
  | .hostLinkTraining _ _ _ => true
  | .inputSample _ _ => true
  | .inputFault => true
  | .capperTick _ _ _ => true
  | .trimTick _ => true
  | .attributionScale _ _ => true
  | .bubbleWindow core _ _ => coreNo core
  | .droopOnset cl => clNo cl
  | .droopRecovery cl => clNo cl
  | .droopClear cl => clNo cl
  | .freqStep d => dieNo d
  | .thermalSample xs => xs.all (fun x => decide (x.1 < 82))
  | .thermalLimitTick => true
  | .coolantStop => true
  | .coolantRestored => true
  | .phaseShutoff d rail => dieNo d && decide (rail < 4)
  | .clusterGate cl => clNo cl
  | .clusterWake cl => clNo cl
  | .dozeWakeComplete => true
  | .eventRaise d src kind => dieNo d && decide (src < 2048) && kind.ok
  | .holdoffExpiry d g => dieNo d && decide (g < 64)
  | .coalesceTimer f => fnNo f
  | .recorderEntry x _ _ => dieNo x.die
  | .recorderForward d => dieNo d
  | .unlockExpiry => true
  | .challengeExpiry => true
  | .cobblerMessage dst src msg => dieNo dst && ((dieNo src && decide (src ≠ dst)) || (decide (src = 15) && decide (4 ≤ dst))) && decide (msg.length = 256)
  | .clusterMailbox cl msg => clNo cl && decide (msg.length = 256)
  | .dieDoorbell d bit => dieNo d && decide (bit < 32)
  | .i3cRead addr _ _ => decide (addr < 128)
  | .i3cEnergyRead addr => decide (addr < 128)
  | .i3cRefresh _ => true
  | .rstdaa => true
  | .entdaa a => decide (a < 128)
  | .setdasa st a => decide (st < 128) && decide (a < 128)
  | .getpid addr => decide (addr < 128)
  | .getbcr addr => decide (addr < 128)
  | .getdcr addr => decide (addr < 128)
  | .getstatus addr => decide (addr < 128)
  | .flitTime e => eyeNo e
  | .rails _ => true
  | .cableRemoved n => decide (n < 6)
  | .securingReadComplete p _ => partNo p

end Sys2Proof
end

