-- ==== Sys2Proof/Machine/State.lean ====
section
/-!
DEFINITION. The state of the machine: the module itself and the queue of commands that wait, first in, first out; its faults and refusals; reset.
-/
namespace Sys2Proof.Machine

/-- The machine: commands waiting, and the module. -/
structure State where
  pending : List Instr
  blk     : Blk
deriving DecidableEq, Repr

/-- Why a command stops the machine. -/
inductive Fault where
  /-- Raised by every command whose operands name a place that the family does not have (a function above 8, a die position above 9, a register index
  beyond its array) or bytes of a length that the manual does not give; such a command cannot be sent to the hardware. Safe. -/
  | illFormed
deriving DecidableEq, Repr

/-- Why a command is refused. -/
inductive Refusal where
  /-- Raised by an arm of `exec` whose command has no meaning yet; no arm of this model raises it. Safe. -/
  | notModelled (mnemonic : String)
deriving DecidableEq, Repr

/-- The machine right after a cold reset with no input power (R543, R549): nothing waits, and every register holds its reset value; the part number is
DV3-4C24 and boot NOR, fuses and repair records are as manufacture leaves them (log entry 77). -/
def State.reset : State := { pending := [], blk := Blk.blank .c4s24 }

/-- A command's effect on the module, for operands that exist (`ok`). -/
def State.go (s : State) (ok : Bool) (f : Blk → Blk) : Host.Outcome State Fault Refusal :=
  if ok then .next { s with blk := f s.blk } else .fault .illFormed

end Sys2Proof.Machine
end

