-- ==== Sys2Proof/Machine/ExecArray.lean ====
section
/-!
DEFINITION. What the commands do: array descriptors (chapter 02). Each is its effect on the module, for operands that exist.
-/
namespace Sys2Proof.Machine

/-- Observations of a descriptor that shows none. -/
def ArrPhys.none : ArrPhys := { fault := .none, ce := 0, upsets := [], dry := 0, sWait := 0, dWait := 0, bubble := 0, hold := 0 }

/-- ARRAY_NOP (R80). -/
def execArrayNop (cl q : Nat) (s : State) : Host.Outcome State Fault Refusal :=
  s.go (queueNo cl q) (fun b => b.runArr cl q 0 ArrPhys.none)

/-- MATMUL (R57). -/
def execMatmul (cl q : Nat) (ph : ArrPhys) (rngStall : Nat) (s : State) : Host.Outcome State Fault Refusal :=
  s.go (queueNo cl q) (fun b => (b.runArr cl q 1 ph).rngStalls cl (b.engTake cl q 0 4 1) rngStall (ph.fault.any (fun f => f.rng)))

/-- ACC_CLEAR (R79). -/
def execAccClear (cl q : Nat) (ph : ArrPhys) (s : State) : Host.Outcome State Fault Refusal :=
  s.go (queueNo cl q) (fun b => b.runArr cl q 2 ph)

end Sys2Proof.Machine
end

