-- ==== Sys2Proof/Machine/Commands.lean ====
section
/-!
DEFINITION. The short commands and the remaining long commands of the command table: IDENTIFY, QUERY_STATE, AWL_TEST, SCRUB, SET_POWER, SET_PARTITION (chapter 13), with the
scrub's reads and the re-lay's start.
-/
namespace Sys2Proof.Machine

/-! ### IDENTIFY and QUERY_STATE (R476) -/

/-- The partition of a function, 0xFF for none. -/
def Blk.fnPart (b : Blk) (f : Nat) : Nat := if f = 0 ∨ (b.part (f - 1)).isNone then 0xFF else f - 1

/-- IDENTIFY. -/
def Blk.identify (b : Blk) (f m : Nat) : Blk :=
  b.cmd f m 0x01 (fun r =>
    b.judged r false (!r.reservedOk []) false false
      (b.reply r .ok 0 (leBytes 8 (b.rn ⟨.IDENT_PART, 0, 0⟩) ++ leBytes 4 (b.rn ⟨.IDENT_PRESENT, 0, 0⟩) ++ leBytes 4 (b.rn ⟨.IDENT_MASTER, 0, 0⟩) ++
        leBytes 4 b.sec.fwVersion ++ leBytes 2 3 ++ leBytes 2 (fnId f) ++ leBytes 1 (b.fnPart f) ++ leBytes 1 (fnMailboxes f) ++ leBytes 2 (64 - b.opsOpen))))

/-- A QUERY_STATE of one class. -/
def Blk.query (b : Blk) (f m cls : Nat) (act : Req → Blk) : Blk := b.cmd f m 0x02 (fun r => if r.u 0 1 = cls then act r else b)

/-- Class 0: the module summary, whose layout is not given. -/
def Blk.querySummary (b : Blk) (f m : Nat) : Blk :=
  b.query f m 0 (fun r => b.judged r false (!r.reservedOk [(0, 1)]) false false ((b.reply r .ok 0 ((Config.summary b.fresh).take 240)).tick))

/-- What class 1 answers (its byte layout is the model's, log entry 73). -/
def Blk.partPayload (b : Blk) (p : Nat) (x : Part) : List Byte :=
  let c0 := (b.clustersOf p).headD 0
  let h := match b.runOf p with | some o => o.handle | none => 0
  leBytes 4 (b2n x.loaded) ++ leBytes 4 (x.last.elim 0 (fun (l : Last) => l.crc)) ++ leBytes 4 x.s ++ leBytes 4 (b.seqState c0) ++ leBytes 4 x.guar ++
    leBytes 4 (b.rn ⟨.LAC_EPOCH, iod0, 0⟩ % 4096) ++ leBytes 4 (x.step.cons % 65536) ++ leBytes 4 h ++ leBytes 1 (b2n x.unrest)

/-- Class 1. -/
def Blk.queryPartition (b : Blk) (f m : Nat) : Blk :=
  b.query f m 1 (fun r =>
    let p := r.u 1 1
    b.judged r (decide (p ≤ 7) && (b.part p).isNone) (!r.reservedOk [(0, 2)] || decide (7 < p)) false false
      (match b.part p with | some x => b.reply r .ok 0 (b.partPayload p x) | none => b))

/-- Class 2: state, command, status and progress (log entry 73). -/
def Blk.queryOperation (b : Blk) (f m : Nat) : Blk :=
  b.query f m 2 (fun r =>
    let o := b.handleOp r
    b.judged r false (!r.reservedOk [(0, 1)]) o.isNone false
      (match o with
        | some x => b.reply r .ok x.handle (leBytes 2 x.st.code ++ leBytes 2 x.kind.command ++ leBytes 2 x.status ++ leBytes 2 0 ++ leBytes 4 x.progress)
        | none => b))

/-- Bytes answered through a host buffer: written, and counted in the response. -/
def Blk.toHost (b : Blk) (r : Req) (a : Nat) (xs : List Byte) (c : Blk) : Blk :=
  match c.hostWrite a xs with
  | some d => d.reply r .ok 0 (leBytes 4 xs.length)
  | none => b.reply r .badHostAddress 0 []

/-- A partition's generations, 16 bytes each (log entry 73): S, IMAGE_CRC, layers (bit 0 partner, bit 1 flash), complete. -/
def Blk.genList (b : Blk) (p : Nat) : List Byte :=
  match b.part p with
  | none => []
  | some x =>
    let crc := x.last.elim 0 (fun (l : Last) => l.crc)
    let one (s c lay : Nat) (done : Bool) : List Byte := leBytes 4 s ++ leBytes 4 c ++ leBytes 4 lay ++ leBytes 4 (b2n done)
    (b.flash.map (fun g => one g.2.rec_.s g.2.rec_.crc 2 g.2.complete)).flatten ++ (match x.partnerS with | some s => one s crc 1 true | none => [])

/-- Class 3. -/
def Blk.queryGenerations (b : Blk) (f m : Nat) : Blk :=
  b.query f m 3 (fun r =>
    let p := r.u 1 1
    b.judged r (decide (p ≤ 7) && (b.part p).isNone) (!r.reservedOk [(0, 2), (16, 8)] || decide (7 < p)) false false
      (b.toHost r (r.u 16 8) (b.genList p) b))

/-- Class 4: a range of a die's register block; RCL fields read are cleared. -/
def Blk.queryRegisters (b : Blk) (f m : Nat) : Blk :=
  b.query f m 4 (fun r =>
    let off := r.u 8 4
    let len := r.u 12 4
    let bad := !r.reservedOk [(0, 1), (2, 3), (8, 16)] || decide (9 < r.u 2 1) || decide (18 < r.u 3 1) || decide (8 < r.u 4 1) || decide (2 ^ 20 < len) ||
      decide (off % 4 ≠ 0) || decide (len % 4 ≠ 0)
    b.judged r (decide (r.u 2 1 ≤ 9) && !b.up (r.u 2 1)) bad false false
      (match blkOrder[r.u 3 1]? with
        | some q => let y := b.blockRead (r.u 2 1) q (r.u 4 1) (len / 4) off; b.toHost r (r.u 16 8) y.1 y.2
        | none => b))

/-- Units of a die. -/
def unitsOf (d : Nat) : List Nat := if d < 4 then (List.range 144).map (unitId d) else [unitId d 0]

/-- Class 5: the unit state words, 8 bytes each (log entry 73): identifier and word; then the table is compared (R402). -/
def Blk.queryUnits (b : Blk) (f m : Nat) : Blk :=
  b.query f m 5 (fun r =>
    let us := (((List.range 10).filter b.up).map unitsOf).flatten
    let xs := (us.map (fun u => leBytes 4 u ++ leBytes 4 (b.regView (unitReg u)).toNat)).flatten
    b.judged r false (!r.reservedOk [(0, 1), (16, 8)]) false false
      ((b.toHost r (r.u 16 8) xs b).parts.foldl (fun c (x : Nat × Part) => c.crossCheck x.1) (b.toHost r (r.u 16 8) xs b)))

/-! ### AWL_TEST and SCRUB (R391, R235) -/

/-- AWL_TEST. -/
def Blk.awlTest (b : Blk) (f m : Nat) : Blk :=
  b.cmd f m 0x30 (fun r =>
    let n := r.u 0 1
    let us := (List.range n).map (fun i => r.u (2 + 2 * i) 2)
    b.judged r false (!r.reservedOk [(0, 1), (2, 2 * n)] || decide (n = 0) || decide (112 < n) || !us.all (fun u => b.unitExists u && b.present (unitDie u))) false b.opsBusy
      (b.startLong r { handle := 0, fn := f, mbx := m, kind := .awlTest, part := 0xFF, st := .queued, units := us, nibbles := us.map (fun _ => 0) } .none
        (fun c o => c.testGo o)))

/-- The blocks that a SCRUB of a partition may name: its share of either half; 0xFF names the whole logical space. -/
def Blk.scrubRange (b : Blk) (p first n : Nat) : Bool :=
  let tot := b.hbmP * hbmD
  let s := b.shareRange p (tot / 2)
  if p = 0xFF then decide (first + n ≤ tot)
  else (decide (s.1 ≤ first) && decide (first + n ≤ s.2)) || (decide (tot / 2 + s.1 ≤ first) && decide (first + n ≤ tot / 2 + s.2))

/-- SCRUB. -/
def Blk.scrubCmd (b : Blk) (f m : Nat) : Blk :=
  b.cmd f m 0x31 (fun r =>
    let p := r.u 0 1
    b.judged r (decide (p ≤ 7) && (b.part p).isNone)
      (!r.reservedOk [(0, 1), (8, 16)] || (decide (7 < p) && decide (p ≠ 0xFF)) || decide (r.u 16 8 = 0) || !b.scrubRange p (r.u 8 8) (r.u 16 8)) false b.opsBusy
      (b.startLong r { handle := 0, fn := f, mbx := m, kind := .scrub, part := p, st := .running, first := r.u 8 8, blocks := r.u 16 8 } .none (fun c _ => c)))

/-- HBM_SCRUB_READ: the patrol's next block of a pseudo-channel, or the next block of a SCRUB operation; a block poisoned in the held half is reported (R401). -/
def Blk.scrubRead (b : Blk) (op : Bool) (x : Nat) (e : HbmErr) : Blk :=
  if op then
    match b.op x with
    | none => b
    | some o =>
      if o.susp ≠ .none ∨ b.pwr.coolStop = true then b
      else
        let c := b.scrubOp x e
        match b.dataBlock (o.first + o.done) with
        | some (pc, loc) => if e.bad && decide (c ≠ b) then (match b.heldBlk pc loc with | some k => c.scrubPoisoned k | none => c) else c
        | none => c
  else
    let c := b.patrol x e
    if c = b then c
    else (e.spoils (Sp.get 0 b.hbm.scrubbed x % pcBlocks)).foldl (fun c loc => match b.heldBlk x loc with | some k => c.scrubPoisoned k | none => c) (c.fwMend x (e.spoils (Sp.get 0 b.hbm.scrubbed x % pcBlocks) ++ [Sp.get 0 b.hbm.scrubbed x % pcBlocks]))

/-! ### SET_POWER (R436, R438, R441 to R443) -/

/-- The module cap. -/
def Blk.setModuleCap (b : Blk) (w : Nat) : Blk :=
  (b.wr (pwrReg .PWR_CAP) (regClamp b.pkg.sku.maxInput .PWR_CAP (BitVec.ofNat 256 (w % 65536)))).pwrShow

/-- The host's operating point. -/
def Blk.setOp_ (b : Blk) (c : Nat) : Blk := ({ b with pwr := { b.pwr with hostOp := c } }).opTargetAll

/-- IDLE or DOZE asked for. -/
def Blk.setPowerState (b : Blk) (s : Nat) : Blk :=
  if s = 1 then b.dozeEnter else if b.pwr.doze then { b with pwr := { b.pwr with waking := true } } else b

/-- The capper's gain, method and trim. -/
def Blk.setCapper (b : Blk) (g t : Nat) : Blk :=
  let r : RegRef := pwrReg .PWR_CAP_CFG
  ((b.wf r Fld.PWR_CAP_CFG_GAIN (if g = 0 then 16 else g)).wf r Fld.PWR_CAP_CFG_ATTR (t % 2)).wf r Fld.PWR_CAP_CFG_TRIM (t / 2 % 2)

/-- A SET_POWER request whose WHICH names a bit: everything that WHICH names is set. -/
def Blk.setPower (b : Blk) (f m bit : Nat) : Blk :=
  b.cmd f m 0x40 (fun r =>
    let w := r.u 0 1
    let p := r.u 1 1
    let has (i : Nat) : Bool := bitOf w i
    if !has bit || decide (31 < w) then b
    else
      let stateBad := (has 1 && (b.part p).isNone) || (has 3 && decide (r.u 7 1 = 1) && b.mbx.ops.any (fun o => o.kind == .runSteps && !o.st.final))
      let payBad := !r.reservedOk [(0, 10)] || (has 1 && decide (7 < p)) || (has 2 && decide (4 < r.u 6 1)) || (has 3 && decide (1 < r.u 7 1)) ||
        (has 4 && (decide (63 < r.u 8 1) || decide (3 < r.u 9 1)))
      b.judged r (stateBad && !(has 1 && decide (7 < p))) payBad false false
        (let b1 := if has 0 then b.setModuleCap (r.u 2 2) else b
         let b2 := if has 1 then b1.wn ⟨.PWR_CAP_P, iod0, p⟩ (r.u 4 2) else b1
         let b3 := if has 2 then b2.setOp_ (r.u 6 1) else b2
         let b4 := if has 3 then b3.setPowerState (r.u 7 1) else b3
         let b5 := if has 4 then b4.setCapper (r.u 8 1) (r.u 9 1) else b4
         b5.reply r .ok 0 []))

/-! ### SET_PARTITION (R487 to R489) -/

/-- A function group bound to its function, or unbound (R496). -/
def Blk.bindGroup (b : Blk) (p : Nat) (on : Bool) : Blk :=
  (b.wf ⟨.EVG_GRP_CFG, iod0 * 16, 49 + p⟩ Fld.EVG_GRP_CFG_TARGET (if on then p + 2 else 0xF)).evScan iod0

/-- A cluster that leaves every partition: its units IDLE, its clocks gated. -/
def Blk.freeCluster (b : Blk) (cl : Nat) : Blk :=
  ((List.range 16).foldl (fun c i =>
    if c.role (clUnit cl i) = roActive ∨ c.role (clUnit cl i) = roSpare then c.setRole (clUnit cl i) roIdle else c) b).setGated cl true

/-- A cluster that enters a partition: reset (R551), its first four sound cores ACTIVE and the next one SPARE, its other units ACTIVE. -/
def Blk.takeCluster (b : Blk) (cl : Nat) : Blk :=
  let idle := (List.range 5).filter (fun i => b.role (clUnit cl i) == roIdle)
  let b1 := (b.clusterReset cl).setGated cl false
  let b2 := idle.zipIdx.foldl (fun (c : Blk) (y : Nat × Nat) => c.setRole (clUnit cl y.1) (if y.2 < 4 then roActive else roSpare)) b1
  ((List.range 16).filter (fun i => decide (5 ≤ i))).foldl (fun c i => if c.role (clUnit cl i) = roIdle then c.setRole (clUnit cl i) roActive else c) b2

/-- What R489 asks of a definition. -/
def Blk.partOk (b : Blk) (p cls eyes hbm flow : Nat) (slots : List Nat) : Bool :=
  let others := b.parts.filter (fun x => decide (x.1 ≠ p))
  let die (d : Nat) : Bool := (List.range 9).any (fun k => bitOf cls (9 * d + k))
  decide (cls < 2 ^ 36) && decide (eyes < 2 ^ 48) && decide (cls ≠ 0) && decide (1 ≤ hbm) && decide (hbm ≤ 64) && decide (1 ≤ flow) && decide (flow ≤ 64) &&
  others.all (fun x => decide (x.2.clusters &&& cls = 0) && decide (x.2.eyelets &&& eyes = 0)) &&
  (maskList cls 36).all (fun c => b.up (clDie c) && !bitOf b.pkg.withdrawn (clDie c)) && (maskList eyes 48).all (fun e => b.up (eyeDie e)) &&
  decide (hbm + (others.map (fun x => x.2.hbmShare)).sum ≤ 64) && decide (flow + (others.map (fun x => x.2.flowShare)).sum ≤ 64) &&
  (List.range 4).all (fun d => decide (slots.getD d 0 + (others.map (fun x => x.2.slots.getD d 0)).sum ≤ 16) && (decide (slots.getD d 0 = 0) || die d))

/-- The partition named holds a last or an operation outside a final state. -/
def Blk.partBusy (b : Blk) (p : Nat) : Bool := b.isLoaded p || b.mbx.ops.any (fun o => decide (o.part = p) && !o.st.final)

/-- Measurement register 7 on every die, extended with the digest of the 36 bytes of an accepted partition record (R476, R488, R518, R519). -/
def Blk.measRecord (b : Blk) (r : Req) : Blk := b.measAll 7 (sha256 (r.pay.take 36))

/-- SET_PARTITION of one action. -/
def Blk.setPartCmd (b : Blk) (f m act : Nat) (go : Req → Blk × Bool) : Blk :=
  b.cmd f m 0x41 (fun r =>
    if r.u 1 1 ≠ act then b
    else
      let y := go r
      b.judged r (b.partBusy (r.u 0 1)) (!r.reservedOk [(0, 2), (8, 18), (28, 4)] || decide (7 < r.u 0 1) || !y.2) false false ((y.1.measRecord r).reply r .ok 0 []))

/-- SET_PARTITION, define or replace. -/
def Blk.partDefine (b : Blk) (f m : Nat) : Blk :=
  b.setPartCmd f m 0 (fun r =>
    let p := r.u 0 1
    let slots := (List.range 4).map (fun d => r.u (28 + d) 1)
    let old := b.clustersOf p
    let new := maskList (r.u 8 8) 36
    let b1 := (old.filter (fun c => !new.contains c)).foldl (fun c cl => c.freeCluster cl) b
    let b2 := (new.filter (fun c => !old.contains c)).foldl (fun c cl => c.takeCluster cl) b1
    let x : Part := { clusters := r.u 8 8, eyelets := r.u 16 8, hbmShare := r.u 24 1, flowShare := r.u 25 1, slots := slots }
    ((b2.setPart p x).bindGroup p true, b.partOk p (r.u 8 8) (r.u 16 8) (r.u 24 1) (r.u 25 1) slots))

/-- SET_PARTITION, delete. -/
def Blk.partDelete (b : Blk) (f m : Nat) : Blk :=
  b.setPartCmd f m 1 (fun r =>
    let p := r.u 0 1
    ((((b.clustersOf p).foldl (fun c cl => c.freeCluster cl) b).delPart p).bindGroup p false, true))

/-! ### The re-lay's start (R239 to R241, R486) -/

/-- No partition stands within a step, and nothing else holds the halves. -/
def Blk.relayMay (b : Blk) : Bool :=
  b.parts.all (fun x => !x.2.loaded || (!x.2.securing.isSome && !(b.opLive x.1 (fun k => k == .restore)) &&
    (decide (x.2.step.state = 5) || (decide (x.2.step.state = 0) && !b.phasesLeft x.1 (fun ph => decide (ph = 5))) || !b.opLive x.1 (fun k => k == .runSteps || k == .replayStep))))

/-- RELAY_START (R239): every loaded last is clicked again at the capacity that remains, and the copy begins if clicking fits. Where it is refused the package leaves the
job, and nothing is copied; of several partitions' lasts the ones that fit have their re-lay (log entry 153). -/
def Blk.relayGo (b : Blk) : Blk :=
  if !b.relayMay || b.hbm.relaying != [] then b
  else
    let ps := b.parts.filter (fun x => x.2.loaded)
    let r := ps.foldl (fun (c : Blk × Bool) (x : Nat × Part) => (c.1.reclick x.1, c.2 || (c.1.refit x.1).isSome)) (b, decide (ps = []))
    if r.2 then r.1.relayStart else r.1

/-- RELAY_COMPLETE: the re-lay, and the stash regions of every loaded last at their places in the half that is now the other one (R191, R240). -/
def Blk.relayEnd (b : Blk) (errs : List (Bool × Nat × HbmErr)) (wbad : List (Bool × Nat)) : Blk :=
  if b.hbm.relaying = [] then b else (b.parts.filter (fun x => x.2.loaded)).foldl (fun c (x : Nat × Part) => c.stashSlots x.1) (b.relayComplete errs wbad)

end Sys2Proof.Machine
end

