-- ==== Sys2Proof/Machine/Dies.lean ====
section
/-!
DEFINITION. The loss and return of a die (R36 to R42, R45, R549, R550), the open seat (R25 to R27), cluster mailboxes (R472), and the witness's comparison
(R121 to R123, R207, R208).
-/
namespace Sys2Proof.Machine

/-! ### The fence (R36 to R38) -/

/-- A die fences a position: the bit, and its modules that face the position go OFF and keep their role; a FAILED one shows OFF while the fence
lasts (`Blk.modFenced`) and comes back FAILED (R19, R37). Position 10 is the open seat. -/
def Blk.fenceOn (b : Blk) (o p : Nat) : Blk :=
  let r : RegRef := ⟨.WLT_FENCE, o, 0⟩
  let at_ := if p = 10 then seatPos else p
  (modulesOf b.pkg.sku o).foldl (fun c m =>
    let q : RegRef := ⟨.WLT_MOD_STATE, o, m.1⟩
    if m.2 = at_ ∧ c.rf q Fld.WLT_MOD_STATE_ROLE ≠ 0 ∧ c.rf q Fld.WLT_MOD_STATE_STATE ≠ 4 then c.wf q Fld.WLT_MOD_STATE_STATE 0 else c)
    (b.wn r (setBit (b.rn r) p true))

/-- A die holds the fence bit of a position. -/
def Blk.fenceHeld (b : Blk) (o p : Nat) : Bool := bitOf (b.rn ⟨.WLT_FENCE, o, 0⟩) p

/-- The package leaves the job of a partition (R39, R40, R42): in its attempt by HALT, else at its next one. -/
def Blk.leaveJob (b : Blk) (p : Nat) : Blk :=
  match b.part p with
  | none => b
  | some x =>
    if !x.loaded then b
    else
      let c := b.secureStop p
      if x.step.open? then (((c.fault p 0xFFFF true).haltFlag p 7).abortAttempt p)
      else c.onStep p (fun st => { st with abortNext := if st.abortNext = 0 then 7 else st.abortNext })

/-- The FIN_APPLY descriptors that a cluster has not run, with their records. -/
def Blk.finUndone (b : Blk) (p cl : Nat) : List (Nat × BitVec 512 × List Byte) :=
  let one (raw : BitVec 512) : Nat × BitVec 512 × List Byte := (cl, raw, b.ins.data.read (cl * 2 ^ 27 + dsc raw 2 0 27) 64)
  ((b.flightsOf cl).filter (fun f => f.result.isNone && (b.applyTag cl (b.bindOf f) f.raw).isSome)).map (fun f => one f.raw) ++
  ((List.range 16).map (fun q => ((b.restOf cl q).filter (fun e =>
    decide (e.kind = 0) && (b.applyTag cl (b.rf (qReg cl q) Fld.SEQ_Q_BIND) e.raw).isSome)).map (fun e => one (b.patched p cl e)))).flatten

/-- A SHARED entry of the attempt has issued on a cluster. -/
def Blk.sharedIssued (b : Blk) (cl : Nat) : Bool :=
  (List.range 16).any (fun q => (b.entriesFrom cl (b.rf (qReg cl q) Fld.SEQ_Q_POS / 16 + 1) (b.rf (qReg cl q) Fld.SEQ_Q_BASE)
    (b.rf (qReg cl q) Fld.SEQ_Q_POS)).any (fun e => e.shared)) || (b.flightsOf cl).any (fun f => f.shared)

/-- A compute die lost to a partition (R39, R41): before its word is sent the micro-batches of the die's slots are dropped; what its finishers have not
done is left to the others; its descriptors are gone; the next step waits for the die. -/
def Blk.lossOnPart (b : Blk) (p d : Nat) : Blk :=
  match b.part p with
  | none => b
  | some x =>
    if !x.onDie d then b
    else
      let cls := (List.range 9).map (fun k => 9 * d + k)
      let mbs := ((((b.variantOf p).map (fun v => v.slotMap)).getD []).filter (fun y => y.2.1 == d)).filterMap (fun y =>
        if x.step.dropped y.1 then none else ((x.step.batch.find? (fun z => z.1 == y.1)).map (fun z => (y.1, z.2))))
      let shared := cls.any (fun cl => b.sharedIssued cl)
      let left := (cls.map (fun cl => b.finUndone p cl)).flatten
      let b1 := b.onPart p (fun y => { y with lossWait := setBit y.lossWait d true, finLeft := y.finLeft ++ (if y.loaded then left else []) })
      let b2 : Blk := { b1 with seq := { b1.seq with flights := b1.seq.flights.filter (fun f => !cls.contains f.cl) } }
      if x.step.open? then (b2.dropMbs p mbs).onStep p (fun st => { st with lostShare := st.lostShare || shared }) else b2

/-- The package is handling the loss of a die (R42): until the die is admitted or, its rejoin deadline past, until no partition that holds one of its clusters and has RUN_STEPS running still waits
for the re-click of its fallback. DESIGN CHOICE: the manual does not say when the handling of a first loss ends (log entry 147). -/
def Blk.handling (b : Blk) (d : Nat) : Bool :=
  bitOf b.pkg.lost d && !(bitOf b.pkg.late d && b.parts.all (fun x => !x.2.onDie d || !x.2.step.reclick || !b.running x.1))

/-- Flow contexts whose peer is reached over an eyelet of a lost I/O die are closed (R37). -/
def Blk.flowsClosed (b : Blk) (d : Nat) : Blk :=
  { b with parts := b.parts.map (fun (x : Nat × Part) => (x.1, { x.2 with flows := x.2.flows.map (fun f => if f.eye / 8 + 4 = d then { f with state := 0 } else f) })) }

/-- What the loss of a die does to the package, at the first survivor that hears of it (R36, R37, R39, R40, R42, R394). -/
def Blk.lossOf (b : Blk) (d : Nat) : Blk :=
  if bitOf b.pkg.lost d then b
  else
    let second := (List.range 10).any (fun x => b.handling x)
    let r : RegRef := ⟨.IDENT_PRESENT, 0, 0⟩
    let b1 : Blk := { b with pkg := { b.pkg with routeDue := true, lost := setBit b.pkg.lost d true, rejoined := setBit b.pkg.rejoined d false, late := setBit b.pkg.late d false, fellBack := setBit b.pkg.fellBack d false } }
    let b2 := ((b1.wf r Fld.IDENT_PRESENT_PRESENT (setBit (b1.rf r Fld.IDENT_PRESENT_PRESENT) d false)).wf r Fld.IDENT_PRESENT_FENCED
      (setBit (b1.rf r Fld.IDENT_PRESENT_FENCED) d true)).wf r Fld.IDENT_PRESENT_DEGRADED 1
    let b3 := if b2.recd.owner = d then b2.recOwn (if d = iod0 then 0 else iod0) true true else b2
    let b4 := (b3.record { code := 0x0022, die := (if b3.master = d then b3.recd.owner else b3.master), data := [BitVec.ofNat 8 d] }).abortTests (fun u => unitDie u == d)
    let b5 : Blk := if d = iod0 then { b4 with pwr := { b4.pwr with fault := true }, pins := { b4.pins with linkUp := false } } else b4
    let b6 := if 4 ≤ d then ((List.range 8).foldl (fun c j => c.eyeDown (8 * (d - 4) + j) 0) b5).flowsClosed d else b5
    let b7 := if d < 4 then b6.parts.foldl (fun c (x : Nat × Part) => c.lossOnPart x.1 d) b6 else b6
    (if 4 ≤ d ∨ second = true then b7.parts.foldl (fun c (x : Nat × Part) => c.leaveJob x.1) b7 else b7).pwrShow

/-- DIE_LOSS_DETECT (R36): MISSES silent intervals on every port of `o` to its neighbour `d`; the time and position are stamped, the position fenced, and the
loss goes out on all ports. -/
def Blk.lossDetect (b : Blk) (o d : Nat) : Blk :=
  if b.up o && (neighbours b.pkg.sku o).contains d && !b.fenceHeld o d && !b.pwr.doze && !b.pwr.coolStop && bitOf b.pkg.answered d &&
      decide (b.rf ⟨.WLT_HB_CFG, o, 0⟩ Fld.WLT_HB_CFG_MISSES ≤ Sp.get 0 b.pkg.missed (1024 + 16 * o + d)) then
    let b1 := ((b.wn ⟨.WLT_LOSS_TIME, o, 0⟩ (b.shankNow o).toNat).tick).wn ⟨.WLT_LOSS_POS, o, 0⟩ d
    (b1.fenceOn o d).lossOf d
  else b

/-- DIE_LOSS_BROADCAST (R37, R39): a surviving die hears of a loss that another die has declared. -/
def Blk.lossHeard (b : Blk) (s d : Nat) : Blk :=
  if decide (s ≠ d) && b.up s && !b.fenceHeld s d && (List.range 10).any (fun o => decide (o ≠ d) && b.fenceHeld o d) then (b.fenceOn s d).lossOf d else b

/-- WLT_FENCE_WRITE (R37, R45): write-1-to-set; a 0 leaves its bit. DESIGN CHOICE: a die does not fence its own position, whose bit is ignored (log entry 198). -/
def Blk.fenceWrite (b : Blk) (o v : Nat) : Blk :=
  (List.range 11).foldl (fun c p => if bitOf v p && decide (p ≠ o) then
      (let c1 := c.fenceOn o p
       if p = 10 then c1.seatLost
       else if c1.present p then c1.lossOf p else c1)
    else c) b

/-- ROUTE_INSTALL (R38): the master's new routes without the lost dies, once after a loss; routes change for nothing else but a reset and a rejoin (R22). -/
def Blk.routeInstall (b : Blk) : Blk := if b.pkg.routeDue then ({ b with pkg := { b.pkg with routeDue := false } }).installRoutes b.up else b

/-! ### A compute die's reset, rejoin and admission (R40, R41) -/

/-- DIE_RESET (R40, R549, R550): of a lost compute die, by the master. FIN_LSCALE, which R550's table does not list and only a restore of secured state may write
(R130), keeps the job's value (log entry 174). -/
def Blk.dieReset (b : Blk) (d : Nat) : Blk :=
  if 4 ≤ d ∨ bitOf b.pkg.lost d = false ∨ bitOf b.pkg.rejoined d = true then b
  else
    let gone (r : RegRef) : Bool := r.name.row.scope == Scope.die && decide (r.at_ = d) && r.name != .PWR_PHASES && r.name != .AWL_UNIT && r.name.row.blk != .recorder && r.name != .SEC_MEAS
    let b1 : Blk := { b with regs := b.regs.filter (fun x => !gone x.1) }
    let b2 := (List.range 9).foldl (fun c k => let r : RegRef := ⟨.FIN_LSCALE, 9 * d + k, 0⟩; (c.clusterClear (9 * d + k)).wr r (b.rd r)) b1
    let b3 := (List.range 144).foldl (fun c n =>
      let c1 := c.wf ⟨.AWL_UNIT, d, n⟩ Fld.AWL_UNIT_FAULTS 0
      let u := unitId d n
      if c1.role u = roFailed ∨ c1.role u = roIdle then c1 else c1.setRole u roIdle) b2
    let b4 := (List.range 8).foldl (fun c i => c.wr ⟨.SEC_MEAS, d, i⟩ (c.rd ⟨.SEC_MEAS, c.master, i⟩)) (b3.evReset d)
    { b4 with
      units := { b4.units with queue := b4.units.queue.filter (fun t => unitDie t.unit != d), passed := b4.units.passed.filter (fun u => unitDie u != d), sched := Sp.clear b4.units.sched (45 * d) 45
                               drain := b4.units.drain.filter (fun y => unitDie y.1 != d)
                               regWait := b4.units.regWait.filter (fun y => unitDie y.1 != d), faultAt := b4.units.faultAt.filter (fun y => unitDie y.1 != d) }
      pwr := { b4.pwr with droop := Sp.clear b4.pwr.droop (9 * d) 9, bubble := Sp.clear b4.pwr.bubble (180 * d) 180 } }

/-- What admission asks of the identity word a die shows (R31, R41). -/
def Blk.identFits (b : Blk) (d w : Nat) : Bool :=
  decide ((slotGet b.pkg.serials d) = some (idSerial w)) && decide (idKind w = kindOf d) && decide (idMajor w = b.major) &&
  decide (idFeature w &&& b.rn ⟨.IDENT_FEATURE_EFF, 0, 0⟩ = b.rn ⟨.IDENT_FEATURE_EFF, 0, 0⟩)

/-- DIE_REJOIN (R41): discovery limited to the die's ports, with the roles of the last package reset (R20), and the admission checks; `w` is the identity word it shows and `failed` the cores whose test fails, as (unit, stage, signature). -/
def Blk.dieRejoin (b : Blk) (d w : Nat) (failed : List (Nat × Nat × Nat)) : Blk :=
  if 4 ≤ d ∨ bitOf b.pkg.lost d = false ∨ bitOf b.pkg.rejoined d = true then b
  else
    let there (x : Nat) : Bool := b.up x || decide (x = d)
    let rate := if b.pkg.weltFast then 5 else 3
    let b1 := ((b.assignRoles (fun x => bitOf b.pkg.answered x) d).hbConfig d).clockUp d b.opCode
    let b2 := ((List.range 10).filter there).foldl (fun c o => (modulesOf c.pkg.sku o).foldl (fun c m =>
      if (decide (m.2 = d) || decide (o = d)) && there m.2 && c.modRoled o m.1 then (c.modRetrain o m.1).wf ⟨.WLT_MOD_STATE, o, m.1⟩ Fld.WLT_MOD_STATE_RATE rate else c) c) b1
    if !b2.identFits d w then b2
    else
      let cores := ((List.range 45).map (fun i => clUnit (9 * d + i / 5) (i % 5))).filter (fun u => b2.role u != roFailed)
      let b3 := cores.foldl (fun c u =>
        if !b.sec.loadsOk 5 then c.untested u
        else match failed.find? (fun x => x.1 == u) with
        | some x => (c.awlFailed u 6 x.2.1 x.2.2).failUnit u
        | none => c.awlPassed u 6) b2
      if cores.any (fun u => failed.any (fun x => x.1 == u)) || !b.sec.loadsOk 5 then b3 else { b3 with pkg := { b3.pkg with rejoined := setBit b3.pkg.rejoined d true } }

/-- The admission point of a die is reached (R41); one whose fallback was clicked, or is to be clicked at a boundary, waits for LOAD_LAST or RESHARD. -/
def Blk.mayAdmit (b : Blk) (d : Nat) : Bool :=
  decide (d < 4) && bitOf b.pkg.lost d && bitOf b.pkg.rejoined d && !bitOf b.pkg.fellBack d && !(bitOf b.pkg.late d && b.handling d) && b.boundaryFor d 8

/-- DIE_ADMISSION (R41). -/
def Blk.dieAdmission (b : Blk) (d : Nat) : Blk := if b.mayAdmit d then b.admitDie d else b

/-- The fence of the open seat released (WLT_UNFENCE SEAT): its modules train again (log entry 149). -/
def Blk.seatUnfence (b : Blk) : Blk :=
  if !b.pkg.seatDown then b
  else
    let b1 := (List.range 10).foldl (fun c o => c.wn ⟨.WLT_FENCE, o, 0⟩ (setBit (c.rn ⟨.WLT_FENCE, o, 0⟩) 10 false)) b
    let b2 := [1, 3].foldl (fun c o => ((facing c.pkg.sku o seatPos).filter (fun m => decide (c.rf ⟨.WLT_MOD_STATE, o, m⟩ Fld.WLT_MOD_STATE_ROLE = 4))).foldl (fun c m => c.modRetrain o m) c) b1
    { b2 with pkg := { b2.pkg with seatDown := false } }

/-- WLT_UNFENCE_WRITE (R45): the master's, as the last step of an admission (or of the open seat's return); any other is not made. -/
def Blk.unfenceWrite (b : Blk) (o v : Nat) : Blk :=
  if o ≠ b.master then b
  else (List.range 11).foldl (fun c p => if !bitOf v p then c else if p = 10 then c.seatUnfence else if c.mayAdmit p then c.admitDie p else c) b

/-- REJOIN_DEADLINE (R40): a die that has not rejoined; its partitions re-click a fallback at a boundary, once the POST entries
before it have retired (R268), or leave the job. -/
def Blk.rejoinDeadline (b : Blk) (d : Nat) : Blk :=
  if 4 ≤ d ∨ bitOf b.pkg.lost d = false ∨ bitOf b.pkg.rejoined d = true ∨ bitOf b.pkg.late d = true then b
  else
    let b1 : Blk := { b with pkg := { b.pkg with late := setBit b.pkg.late d true } }
    b1.parts.foldl (fun (c : Blk) (x : Nat × Part) =>
      if !x.2.onDie d then c
      else
        let c1 := c.onPart x.1 (fun y => { y with lossWait := setBit y.lossWait d false })
        if !x.2.loaded then c1
        else if x.2.step.state = 0 ∧ c1.phasesLeft x.1 (fun ph => decide (ph = 5)) = false then (c1.reclick x.1).barrierAll
        else c1.onStep x.1 (fun st => { st with reclick := true })) b1

/-! ### The open seat (R25 to R27) -/

/-- A range of logical HBM lies in the seat aperture. -/
def Blk.inAperture (b : Blk) (a n : Nat) : Bool := decide (b.pkg.seatBase ≤ a) && decide (a + n ≤ b.pkg.seatBase + b.pkg.seatSize) && decide (0 < n)

/-- SEAT_WRITE (R25, R26): bytes at a logical address; each 4 KiB block written gets a fresh aglet. -/
def Blk.seatWrite (b : Blk) (edge a : Nat) (xs : List Byte) : Blk :=
  if !b.seatLive then b
  else if !b.inAperture a xs.length then b.seatReject edge
  else
    let ag : Aglet := { pcrc := 0, tag := b.pkg.seatTag, version := 0, format := 0, flags := 0, epoch := b.rf ⟨.LAC_EPOCH, iod0, 0⟩ Fld.LAC_EPOCH_EPOCH, kind := 0, samples := 0 }
    (splitBlocks (xs.length / 4096 + 2) a xs).foldl (fun c (y : Nat × Nat × List Byte) =>
      let old := ((c.hbmGet y.1).getD ⟨zeros 4096, aglet0⟩).pay
      let pay := old.take y.2.1 ++ y.2.2 ++ old.drop (y.2.1 + y.2.2.length)
      c.hbmPut y.1 (Block.make pay ag false (pay.all (fun x => x == 0)) false false)) b

/-- SEAT_READ (R25, R26): payload without aglets. -/
def Blk.seatRead (b : Blk) (edge a n : Nat) : Blk :=
  if !b.seatLive then b
  else if !b.inAperture a n then b.seatReject edge
  else { b with readData := b.hbmBytes a n }

/-- SEAT_DOORBELL (R25): one of eight on IOD0; any other number is an access outside the seat transaction set. -/
def Blk.seatDoorbell (b : Blk) (edge n : Nat) : Blk :=
  if !b.seatLive then b
  else if 8 ≤ n then b.seatReject edge
  else { b with pkg := { b.pkg with seatBell := setBit b.pkg.seatBell n true } }

/-- SEAT_DOWN (R27): the seat is fenced, and the package goes on. -/
def Blk.seatDownEvent (b : Blk) : Blk :=
  if !b.seatLive then b
  else
    (((List.range 10).filter b.up).foldl (fun c o => c.fenceOn o 10) b).seatLost

/-! ### Cluster mailboxes (R472) -/

/-- CLUSTER_MAILBOX: a cobbler's message for a cluster, dropped while one stands in the mailbox; FULL wakes a gated cluster. -/
def Blk.clusterMessage (b : Blk) (cl : Nat) (msg : List Byte) : Blk :=
  if 36 ≤ cl ∨ b.up (clDie cl) = false ∨ (slotGet b.mbx.cluster cl).isSome = true then b
  else
    ({ b with mbx := { b.mbx with cluster := slotPut b.mbx.cluster cl (stampSender (cobblerId (clDie cl)) msg) } } : Blk).clusterWake cl

/-! ### The witness's comparison -/

/-- WITNESS_COMPARE: a finished sample is compared; a failing word is a detected fault of the core that produced it. `w` says where a handover that follows
fails its copy, or that the residue check of the witness's own datapath fails: a fault of the witness unit, which samples no more until it passes its test
(R208) and sets no FAULT (R381), and the sample ends without comparison (log entry 170). -/
def Blk.witnessCompare (b : Blk) (cl : Nat) (w : WitSign) : Blk :=
  match slotGet b.cores.samples cl with
  | none => b
  | some x =>
    if w = .residue then b.unitFault (clUnit cl 13) .fault false x.mb x.shared false
    else if !x.closed then b
    else
      let b1 := (b.witEnd cl).bump ⟨.WIT_SAMPLED, cl, 0⟩
      if b.witFails cl x then (b1.bump ⟨.WIT_MISMATCH, cl, 0⟩).unitFault (clUnit cl (x.core % 5)) .witness true x.mb x.shared (decide (w = .copyFails)) else b1

end Sys2Proof.Machine
end

