-- ==== Sys2Proof/Machine/ExecAwl.lean ====
section
/-!
DEFINITION. What the commands do: fault management, twins and securing (chapters 10 and 11). Each is its effect on the module, for operands that exist.
-/
namespace Sys2Proof.Machine

/-- WITNESS_COMPARE (R207). -/
def execWitnessCompare (cl : Nat) (w : WitSign) (s : State) : Host.Outcome State Fault Refusal :=
  s.go (clNo cl) (fun b => (b.witnessCompare cl w).flowsFollow b)

/-- HANDOVER (R383). -/
def execHandover (cl n : Nat) (cf : Bool) (s : State) : Host.Outcome State Fault Refusal :=
  s.go (clNo cl && decide (n < 5)) (fun b => b.handover cl n cf)

/-- AWL_TEST_START (R392). -/
def execAwlTestStart (u : Nat) (cf : Bool) (s : State) : Host.Outcome State Fault Refusal :=
  s.go (unitNo u) (fun b => b.testStart u cf)

/-- AWL_TEST_RESULT (R389). -/
def execAwlTestResult (u : Nat) (pass : Bool) (stage sig : Nat) (s : State) : Host.Outcome State Fault Refusal :=
  s.go (unitNo u) (fun b => b.testResult u pass stage sig)

/-- FAULT_WINDOW_EXPIRY (R380). -/
def execFaultWindowExpiry (u : Nat) (s : State) : Host.Outcome State Fault Refusal :=
  s.go (unitNo u) (fun b => b.faultExpiry u)

/-- DRAIN_TIMEOUT (R402). -/
def execDrainTimeout (u w1 w2 : Nat) (s : State) : Host.Outcome State Fault Refusal :=
  s.go (unitNo u) (fun b => (b.drainTimeout u w1 w2).flowsFollow b)

/-- TWIN_REQUEST (R396). -/
def execTwinRequest (e : Nat) (msg : Msg) (s : State) : Host.Outcome State Fault Refusal :=
  s.go (eyeNo e) (fun b => b.twinRequest e msg)

/-- TWIN_REPLY (R398). -/
def execTwinReply (e : Nat) (msg : Msg) (s : State) : Host.Outcome State Fault Refusal :=
  s.go (eyeNo e) (fun b => b.twinReply e msg)

/-- PARTNER_UNUSABLE_NOTICE (R397). -/
def execPartnerUnusableNotice (e : Nat) (msg : Msg) (s : State) : Host.Outcome State Fault Refusal :=
  s.go (eyeNo e) (fun b => b.partnerUnusable e msg)

/-- PARTNER_LAYER_COMMIT (R416). -/
def execPartnerLayerCommit (p : Nat) (s : State) : Host.Outcome State Fault Refusal :=
  s.go (partNo p) (fun b => b.partnerCommit p)

/-- FLASH_LAYER_COMMIT (R416). -/
def execFlashLayerCommit (p : Nat) (s : State) : Host.Outcome State Fault Refusal :=
  s.go (partNo p) (fun b => b.flashCommit p)

/-- SECURE_REPORT (R424). -/
def execSecureReport (e : Nat) (msg : Msg) (s : State) : Host.Outcome State Fault Refusal :=
  s.go (eyeNo e) (fun b => b.secureReport e msg)

/-- SECURING_READ_COMPLETE (R418). -/
def execSecuringReadComplete (p hold : Nat) (s : State) : Host.Outcome State Fault Refusal :=
  s.go (partNo p) (fun b => b.secureRead p hold)

end Sys2Proof.Machine
end

