-- ==== Sys2Proof/Machine/ExecEngine.lean ====
section
/-!
DEFINITION. What the commands do: cluster-engine descriptors (chapter 05). Each is its effect on the module, for operands that exist.
-/
namespace Sys2Proof.Machine

/-- ENGINE_NOP (R171). -/
def execEngineNop (q : QueueAt) (ph : EPhys) (s : State) : Host.Outcome State Fault Refusal :=
  s.go (queueNo q.cl q.q) (fun b => b.runEngNop q.cl q.q ph)

/-- FIN_SCAN (R185). -/
def execFinScan (cl q : Nat) (ph : EngPhys) (s : State) : Host.Outcome State Fault Refusal :=
  s.go (queueNo cl q) (fun b => b.runFinScan cl q ph)

/-- FIN_APPLY (R188). -/
def execFinApply (cl q : Nat) (ph : EngPhys) (rngStall : Nat) (s : State) : Host.Outcome State Fault Refusal :=
  s.go (queueNo cl q) (fun b => (b.runEng cl q 0x10 0x10 2 finApply ph).rngStalls cl (b.engTake cl q 0x10 0x10 2) rngStall ph.rng)

/-- FIN_APPLY_REISSUE (R190). -/
def execFinApplyReissue (cl q on : Nat) (fetched : Option (List Byte × BitVec 128)) (ph : EngPhys) (s : State) : Host.Outcome State Fault Refusal :=
  s.go (queueNo cl q && clNo on) (fun b => b.finReissue cl q on fetched ph)

/-- SAVE (R195). -/
def execSave (cl q : Nat) (ph : EngPhys) (s : State) : Host.Outcome State Fault Refusal :=
  s.go (queueNo cl q) (fun b => b.runEng cl q 0x11 0x11 1 stashOp ph)

/-- LOAD (R192). -/
def execLoad (cl q : Nat) (ph : EngPhys) (s : State) : Host.Outcome State Fault Refusal :=
  s.go (queueNo cl q) (fun b => b.runEng cl q 0x11 0x11 2 stashOp ph)

/-- FREE (R192). -/
def execFree (cl q : Nat) (ph : EngPhys) (s : State) : Host.Outcome State Fault Refusal :=
  s.go (queueNo cl q) (fun b => b.runEng cl q 0x11 0x11 3 stashOp ph)

/-- GATHER (R198). -/
def execGather (cl q : Nat) (ph : EngPhys) (s : State) : Host.Outcome State Fault Refusal :=
  s.go (queueNo cl q) (fun b => b.runEng cl q 0x12 0x12 1 gatherRun ph)

/-- SCATTER (R198). -/
def execScatter (cl q : Nat) (ph : EngPhys) (s : State) : Host.Outcome State Fault Refusal :=
  s.go (queueNo cl q) (fun b => b.runEng cl q 0x12 0x12 2 gatherRun ph)

/-- SORT (R199). -/
def execSort (cl q : Nat) (ph : EngPhys) (s : State) : Host.Outcome State Fault Refusal :=
  s.go (queueNo cl q) (fun b => b.runEng cl q 0x12 0x12 3 gatherRun ph)

/-- PARAM (R200). -/
def execParam (cl q : Nat) (ph : EngPhys) (s : State) : Host.Outcome State Fault Refusal :=
  s.go (queueNo cl q) (fun b => b.runEng cl q 0x12 0x12 4 gatherRun ph)

/-- CAST (R202). -/
def execCast (cl q : Nat) (ph : EngPhys) (rngStall : Nat) (s : State) : Host.Outcome State Fault Refusal :=
  s.go (queueNo cl q) (fun b => (b.runEng cl q 0x13 0x13 1 layoutRun ph).rngStalls cl (b.engTake cl q 0x13 0x13 1) rngStall ph.rng)

/-- AMAX (R109). -/
def execAmax (cl q : Nat) (ph : EngPhys) (s : State) : Host.Outcome State Fault Refusal :=
  s.go (queueNo cl q) (fun b => b.runEng cl q 0x13 0x13 2 layoutRun ph)

/-- RESHARD_COPY (R202). -/
def execReshardCopy (cl q : Nat) (ph : EngPhys) (s : State) : Host.Outcome State Fault Refusal :=
  s.go (queueNo cl q) (fun b => b.runReshardCopy cl q ph)

/-- WCOPY (R112). -/
def execWcopy (cl q : Nat) (ph : EngPhys) (s : State) : Host.Outcome State Fault Refusal :=
  s.go (queueNo cl q) (fun b => b.runEng cl q 0x13 0x13 4 layoutRun ph)

/-- DMA_COPY (R178). -/
def execDmaCopy (cl q : Nat) (ph : EngPhys) (s : State) : Host.Outcome State Fault Refusal :=
  s.go (queueNo cl q) (fun b => b.runDma cl q 0 ph)

/-- DMA_IN (R178). -/
def execDmaIn (cl q : Nat) (ph : EngPhys) (s : State) : Host.Outcome State Fault Refusal :=
  s.go (queueNo cl q) (fun b => b.runDma cl q 1 ph)

/-- DMA_OUT (R179). -/
def execDmaOut (cl q : Nat) (ph : EngPhys) (s : State) : Host.Outcome State Fault Refusal :=
  s.go (queueNo cl q) (fun b => b.runDma cl q 2 ph)

/-- DMA_ZERO (R177). -/
def execDmaZero (cl q : Nat) (ph : EngPhys) (s : State) : Host.Outcome State Fault Refusal :=
  s.go (queueNo cl q) (fun b => b.runDma cl q 3 ph)

/-- CONTEXT_DISCARD (R176). -/
def execContextDiscard (cl : Nat) (x : FlightCut) (s : State) : Host.Outcome State Fault Refusal :=
  s.go (clNo cl) (fun b => b.contextDiscard cl x.n x.done)

end Sys2Proof.Machine
end

