-- ==== Sys2Proof/Machine/Startup.lean ====
section
/-!
DEFINITION. Start-up and reset (chapter 16).
-/
namespace Sys2Proof.Machine

/-! ### What a reset keeps (R549, R550, R553) -/

/-- What every reset of the package keeps of boot NOR, fuses, MRAM, flash, repair records, pins and host memory. -/
def Blk.keepOver (b z : Blk) : Blk :=
  { z with
    sec := { z.sec with
      vendorKeys := b.sec.vendorKeys, revoked := b.sec.revoked, uds := b.sec.uds, svn := b.sec.svn, nor := b.sec.nor, selA := b.sec.selA, selB := b.sec.selB
      failedA := b.sec.failedA, failedB := b.sec.failedB, aliasCert := b.sec.aliasCert, pendBad := b.sec.pendBad, pendCold := b.sec.pendCold }
    recd := { z.recd with
      owner := b.recd.owner, dev0 := b.recd.dev0, dev1 := b.recd.dev1, nextSeq := b.recd.nextSeq, oldestSeq := b.recd.oldestSeq, cleared := b.recd.cleared
      bootCnt := (b.recd.bootCnt + 1) % 2 ^ 32 }
    pins := { z.pins with coolantOk := b.pins.coolantOk, perst := b.pins.perst, cable := b.pins.cable }
    pkg := { z.pkg with ident := b.pkg.ident, hostStrap := b.pkg.hostStrap, flashStrap := b.pkg.flashStrap }
    hbm := { z.hbm with spares := b.hbm.spares, records := b.hbm.records }
    pwr := { z.pwr with inputMv := b.pwr.inputMv, inputMa := b.pwr.inputMa }
    flash := b.flash, hostMem := b.hostMem, hostHole := b.hostHole, fresh := b.fresh }

/-- A cold reset taking effect: all rails go off for 100 ms, then VSHANK rises; POWER. -/
def Blk.cold (b : Blk) (cause : Nat) : Blk :=
  let z := b.scopesClose.keepOver (.blank b.pkg.sku)
  ({ z with pwr := { z.pwr with vshank := true, inputFlt := decide (cause = 2) } } : Blk).wf ⟨.IDENT_START, 0, 0⟩ Fld.IDENT_START_CAUSE cause

/-- The PLLs of the dies whose rails are up lock at operating point 0 (R543). -/
def Blk.clocksStart (b : Blk) (rails : List (Nat × Nat)) : Blk := (rails.filter (fun x => x.2 == 0)).foldl (fun c x => c.clockUp x.1 0) b

/-- Registers that a package reset keeps: phases, the tray's I3C registers, the count of refused unlocks, which devices of the recorder were in service. -/
def keptByPackage (n : RegName) : Bool :=
  [RegName.PWR_PHASES, .PWR_I3C_ID, .PWR_I3C_INPUT, .PWR_I3C_STATE, .PWR_I3C_TEMP, .PWR_I3C_ENERGY, .PWR_I3C_PHASES, .SEC_UNLOCK_FAIL, .REC_STATE].contains n

/-- A package reset taking effect: all rails but VSHANK go off and come back, and start-up begins at BOOT. -/
def Blk.package (b : Blk) (cause : Nat) : Blk :=
  let k := b.pkg.sku
  let c := b.scopesClose
  let z := c.keepOver (.blank k)
  let rails := ((List.range 10).filter (fun d => k.populated d)).map (fun d => (d, c.railsByPhases d))
  let z1 : Blk := { z with
    regs := (c.regs.filter (fun x => keptByPackage x.1.name)).foldl (fun m x => RegFile.set m x.1 x.2) z.regs
    sec := { z.sec with unlocked := c.sec.unlocked }
    recd := { z.recd with held := c.recd.held, lost := c.recd.lost }
    pins := { z.pins with i3cDyn := c.pins.i3cDyn }
    pwr := { z.pwr with
      vshank := true, rails := rails, fault := c.pwr.coolStop && !c.pins.coolantOk, railLim := c.pwr.railLim, energyMj := c.pwr.energyMj, energyPj := c.pwr.energyPj
      i3cLatch := c.pwr.i3cLatch, shutOff := c.pwr.shutOff, inputFlt := c.pwr.inputFlt }
    pkg := { z.pkg with answered := (rails.filter (fun x => x.2 == 0)).foldl (fun a x => a + 2 ^ x.1) 0 } }
  ((z1.wf ⟨.IDENT_START, 0, 0⟩ Fld.IDENT_START_CAUSE cause).clocksStart rails).setStage 1

/-! ### Requests for a reset (R552, R554, R559) -/

/-- R552, steps 1 and 2: every run is aborted with HALT PACKAGE_LEFT_JOB, and every active eyelet paused on all channels. -/
def Blk.leaveAll (b : Blk) : Blk :=
  let b1 := b.parts.foldl (fun c (x : Nat × Part) => if (c.runOf x.1).any (fun o => o.st == .running || o.st == .suspended) then c.leaveJob x.1 else c) b
  ((List.range 48).filter (fun e => b1.eyeExists e && b1.eyeFlits e)).foldl (fun c e => c.pauseSend e 0xFF) b1

/-- A reset that has been asked for: at once if nothing runs, else due once the job has been left. -/
def Blk.askReset (b : Blk) (cause : Nat) : Blk :=
  let b1 : Blk := { b with pkg := { b.pkg with armed := 0 } }
  if b1.runLive then (let b2 := b1.leaveAll; { b2 with pkg := { b2.pkg with resetDue := cause } })
  else if cause < 3 then b1.cold cause else b1.package cause

/-- A write of DBL_RESET (R554, R559): ignored in recovery mode and before IOD0's ROM runs. -/
def Blk.dblReset (b : Blk) (v : Nat) : Blk :=
  if b.stage = 0 ∨ b.stage = 8 then b
  else
    let kind := bits v 0 3
    let arm (x : Nat) : Blk := { b with pkg := { b.pkg with armed := x } }
    if (kind ≠ 1 ∧ kind ≠ 2) ∨ bits v 16 16 ≠ 0xC0B1 then arm 0
    else if b.pkg.armed = 0 then arm v
    else if b.pkg.armed ≠ v then arm 0
    else b.askReset (if kind = 1 then 1 else 3)

/-- DBL_RESET_COLD: a write whose KIND is not 2. -/
def Blk.dblResetCold (b : Blk) (v : Nat) : Blk := if bits v 0 3 = 2 then b else b.dblReset v

/-- DBL_RESET_PACKAGE: a write with KIND 2. -/
def Blk.dblResetPackage (b : Blk) (v : Nat) : Blk := if bits v 0 3 = 2 then b.dblReset v else b

/-- DBL_RESET_LAPSE: 10 ms without the confirming write. -/
def Blk.dblResetLapse (b : Blk) : Blk := { b with pkg := { b.pkg with armed := 0 } }

/-- COLD_RESET: one asked for takes effect, or the input is back in range after an input fault (R433). -/
def Blk.coldReset (b : Blk) : Blk :=
  if b.pwr.inputFlt = true ∧ b.pwr.vshank = false ∧ 44000 ≤ b.pwr.inputMv ∧ b.pwr.inputMv ≤ 58000 then b.cold 2
  else if b.pkg.resetDue = 1 then b.cold 1
  else b

/-- PACKAGE_RESET: one asked for takes effect. -/
def Blk.packageReset (b : Blk) : Blk := if 3 ≤ b.pkg.resetDue ∧ b.pkg.resetDue ≤ 5 then b.package b.pkg.resetDue else b

/-- BOOT_WATCHDOG_EXPIRY (R516): the slot's failure count rises, and the package is reset. -/
def Blk.watchdogExpiry (b : Blk) : Blk :=
  if b.sec.watchdog then ({ b with sec := { (b.sec.slotFail b.sec.booted) with watchdog := false } } : Blk).askReset 4 else b

/-! ### The stages (R543 to R546) -/

/-- INPUT_APPLIED: the input rises through 44 V; FAULT_N is asserted and VSHANK raised. `ok` says that VSHANK comes up within three tries. -/
def Blk.inputApplied (b : Blk) (mv : Nat) (ok : Bool) : Blk :=
  if b.pwr.vshank = true ∨ mv < 44000 ∨ 60000 < mv then b
  else
    let z := b.cold (if b.pwr.inputFlt then 2 else 0)
    { z with pwr := { z.pwr with inputMv := mv, vshank := ok, fault := true } }

/-- RAILS: COOLANT_OK has been asserted for 50 ms, POWER ends and FAULT_N is released; `failed` are the rails that do not come up as (die, 0 core, 1 HBM, 2 eyelets). -/
def Blk.railsUp (b : Blk) (failed : List (Nat × Nat)) : Blk :=
  if b.stage ≠ 0 ∨ b.pwr.vshank = false then b
  else
    let k := b.pkg.sku
    let mask (d : Nat) : Nat := ([0, 1, 2].filter (fun r => failed.contains (d, r))).foldl (fun a r => a + 2 ^ r) 0
    let rails := ((List.range 10).filter (fun d => k.populated d)).map (fun d => (d, mask d))
    let b1 : Blk := { b with
      pins := { b.pins with coolantOk := true }
      pwr := { b.pwr with fault := false, rails := rails }
      pkg := { b.pkg with answered := (rails.filter (fun x => x.2 == 0)).foldl (fun a x => a + 2 ^ x.1) 0 } }
    ((if rails.any (fun x => x.2 != 0) then b1.startFail 1 else b1).clocksStart rails).setStage 1

/-- BOOT_ROM in its stage; rails that failed are recorded once the recorder has an owner. -/
def Blk.bootStage (b : Blk) (fails : List (Nat × Nat × Nat)) : Blk :=
  if b.stage ≠ 1 then b
  else
    let b1 := b.bootRom fails
    b1.pwr.rails.foldl (fun c (x : Nat × Nat) => ([0, 1, 2].filter (fun r => bitOf x.2 r)).foldl (fun c r =>
      c.record { code := 0x0153, die := b1.recd.owner, data := [BitVec.ofNat 8 x.1, BitVec.ofNat 8 r] }) c) b1

/-- DISCOVERY in its stage: a die whose rail failed does not answer. -/
def Blk.discoveryStage (b : Blk) (answered : Nat) (seat : Option SeatInfo) : Blk :=
  if b.stage ≠ 2 then b
  else
    let off (d : Nat) : Bool := b.pkg.sku.populated d && !bitOf b.pkg.answered d
    b.discovery ((List.range 10).foldl (fun a d => if bitOf answered d && !off d then a + 2 ^ d else a) 0) seat

/-- WELT_TRAINING in its stage; when it ends every enabled eyelet of a present I/O die enters DETECT (R545). -/
def Blk.weltStage (b : Blk) (repairs : List (Nat × Nat × Nat × Nat)) : Blk :=
  if b.stage ≠ 3 then b
  else
    let b1 := (b.weltTraining repairs).hbmTrainStart
    (List.range 48).foldl (fun c e => if c.eyeArmed e then c.setEyeState e 1 else c) b1

/-- HBM_TRAINING in its stage. -/
def Blk.memoryStage (b : Blk) (failed : List (Nat × Nat)) (errs : List (Nat × HbmErr)) : Blk :=
  if b.stage ≠ 4 ∨ bitOf b.pkg.done 0 = true then b
  else
    let b1 := b.hbmTraining failed errs
    let b2 : Blk := { b1 with pkg := { b1.pkg with done := setBit b1.pkg.done 0 true } }
    if failed.any (fun x => x.2 != 0) then b2.startFail 6 else b2

/-- The units that start-up tests: of present dies, but those of the failed-unit list, which are FAILED without a test. -/
def Blk.testedUnits (b : Blk) : List Nat :=
  (((List.range 10).filter b.present).map (fun d => (unitsOf d).filter (fun u => !b.sec.failedA.contains u))).flatten

/-- STARTUP_AWL_TESTS (R389, R543): `bad` are the units that fail, as (unit, stage, signature). -/
def Blk.testStage (b : Blk) (bad : List (Nat × Nat × Nat)) : Blk :=
  if b.stage ≠ 4 ∨ bitOf b.pkg.done 1 = true then b
  else
    let b0 := ((((List.range 10).filter b.present).map unitsOf).flatten.filter (fun u => b.sec.failedA.contains u)).foldl (fun c u => c.setRole u roFailed) b
    let short (d : Nat) : Bool := if d < 4 then (List.range 9).any (fun k => b0.short (9 * d + k)) else decide (b0.role (unitId d 0) = roFailed)
    let b1 := ((List.range 10).filter (fun d => b0.present d && short d)).foldl (fun c d =>
      (((List.range 9).filter (fun k => decide (d < 4) && b0.short (9 * d + k))).foldl (fun c k => c.record { code := 0x0160, die := d, data := [BitVec.ofNat 8 k] }) c).withdraw d (fun _ => false)) b0
    let b2 := b1.testedUnits.foldl (fun (c : Blk) u =>
      if !b.sec.loadsOk (awlSection u) then c.untested u
      else match bad.find? (fun x => x.1 == u) with
      | some x => ((c.awlFailed u 6 x.2.1 x.2.2).startFail 7).failUnit u
      | none => c.awlPassed u 6) b1
    let b3 := if b2.pkg.withdrawn = 0 then b2 else (b2.startFail 8).wf ⟨.IDENT_PRESENT, 0, 0⟩ Fld.IDENT_PRESENT_DEGRADED 1
    { b3 with pkg := { b3.pkg with done := setBit b3.pkg.done 1 true } }

/-- The roles that start-up sets in a cluster (R407): the lowest four cores that pass ACTIVE, a fifth that remains SPARE, every other unit ACTIVE. -/
def Blk.startRoles (b : Blk) (cl : Nat) : Blk :=
  let ok := (List.range 5).filter (fun i => b.role (clUnit cl i) != roFailed)
  let b1 := ok.zipIdx.foldl (fun (c : Blk) (y : Nat × Nat) => c.setRole (clUnit cl y.1) (if y.2 < 4 then roActive else roSpare)) b
  ((List.range 16).filter (fun i => decide (5 ≤ i) && b.unitExists (clUnit cl i))).foldl (fun c i =>
    if c.role (clUnit cl i) = roFailed then c else c.setRole (clUnit cl i) roActive) b1

/-- PACKAGE_READY: discovery step 6. Roles, operating point 0, partition 0 of R488, boot good (R516), BOOT_COMPLETE, and the requests that wait in the
mailboxes (R548); a coolant stop whose cause still stands is declared now (R451, log entry 122). `ms` is the time from shank start. -/
def Blk.packageReady (b : Blk) (ms : Nat) : Blk :=
  if b.stage ≠ 4 ∨ b.pkg.done ≠ 3 then b
  else
    let cds := (List.range 4).filter b.present
    let ios := ((List.range 10).filter (fun d => decide (4 ≤ d))).filter b.present
    let cls := (cds.map (fun d => (List.range 9).map (fun k => 9 * d + k))).flatten
    let b1 := cls.foldl (fun c cl => c.startRoles cl) b
    let b2 := ios.foldl (fun c d => if c.role (unitId d 0) = roFailed then c else c.setRole (unitId d 0) roActive) b1
    let x : Part := {
      clusters := cls.foldl (fun a cl => a + 2 ^ cl) 0
      eyelets := (ios.filter (fun d => !(b.pkg.sku.seat && decide (d = seatPos)))).foldl (fun a d => a + 255 * 2 ^ (8 * (d - 4))) 0
      hbmShare := 64, flowShare := 64, slots := (List.range 4).map (fun d => if b.present d then 16 else 0) }
    let b3 := (b2.setPart 0 x).bindGroup 0 true
    let b4 := if b3.pkg.sku.seat then b3.wf ⟨.EVG_GRP_CFG, iod0 * 16, 60⟩ Fld.EVG_GRP_CFG_TARGET 1 else b3
    let b5 := b4.opTargetAll
    let b6 := ((b5.setStage 5).wf ⟨.IDENT_START, 0, 0⟩ Fld.IDENT_START_READY_MS (min 65535 ms)).bootGood
    let b6 := if b6.sec.loadsOk 7 then b6 else b6.sectionBad iod0 7
    let b7 := (b6.record { code := 0x0001, die := iod0, data := [BitVec.ofNat 8 b6.sec.booted] ++ leBytes 4 b6.sec.fwVersion }).pwrShow
    let b8 := (List.range 9).foldl (fun c f => (List.range (fnMailboxes f)).foldl (fun c m => c.submit f m) c) b7
    if b8.pins.coolantOk then b8 else b8.coolSequence 0x0170

/-! ### Function-level reset (R470, R508, R547) -/

/-- FUNCTION_LEVEL_RESET: the function's locks, mailboxes, recorded SEQUENCEs and doorbells, and its part of the gatherer. -/
def Blk.flr (b : Blk) (f : Nat) : Blk :=
  if 9 ≤ f then b
  else
    let mine (k : Nat) : Bool := decide (k / 16 = f)
    let b1 : Blk := { b with
      regs := b.regs.filter (fun x =>
        !((x.1.name == .MBX_STATUS || x.1.name == .MBX_TMO || x.1.name == .DBL_C2H || x.1.name == .DBL_C2H_MASK) && decide (x.1.at_ = f)) &&
        !(x.1.name == .MBX_LOCK && decide (x.2.toNat = fnId f)))
      mbx := { b.mbx with
        req := b.mbx.req.filter (fun x => !mine (x.1 / 256)), rsp := b.mbx.rsp.filter (fun x => !mine (x.1 / 256))
        rspQueue := b.mbx.rspQueue.filter (fun x => !mine x.1), lastSeq := b.mbx.lastSeq.filter (fun x => !mine x.1) } }
    b1.evFlr f

/-- PERST_N_ASSERT (R547): the link is down, and every function as a function-level reset leaves it. The package goes on. -/
def Blk.perstAssert (b : Blk) : Blk :=
  let b1 : Blk := { b with pins := { b.pins with perst := true, linkUp := false, linkFails := 0, linkHeld := false } }
  (List.range 9).foldl (fun c f => c.flr f) b1

/-- PERST_N_DEASSERT (R569): the link may train. -/
def Blk.perstDeassert (b : Blk) : Blk := { b with pins := { b.pins with perst := false } }

/-- HOST_LINK_TRAINING (R571): the link settles at a rate in GT/s and a width; `best` is the highest rate that both ends advertise. In recovery mode it trains at 16 GT/s (R517). -/
def Blk.hostLink (b : Blk) (rate width best : Nat) : Blk :=
  if b.pins.perst || decide (b.stage = 0) || b.pins.linkHeld || bitOf b.pkg.lost iod0 || !bitOf b.pkg.answered iod0 then b
  else
    let top := if b.stage = 8 then 16 else best
    let rt := min rate top
    if rt < 16 then
      let n := b.pins.linkFails + 1
      let b1 : Blk := { b with pins := { b.pins with linkUp := false, linkRate := rt, linkWidth := width, linkFails := n, linkHeld := decide (3 ≤ n) } }
      if 3 ≤ n then b1.record { code := 0x0061, die := iod0, data := [BitVec.ofNat 8 width, BitVec.ofNat 8 rt] } else b1
    else
      let b1 : Blk := { b with pins := { b.pins with linkUp := true, linkRate := rt, linkWidth := width, linkFails := 0 } }
      let b2 := if width < 16 ∨ rt < top then b1.record { code := 0x0060, die := iod0, data := [BitVec.ofNat 8 width, BitVec.ofNat 8 rt] } else b1
      b2.evScan iod0

end Sys2Proof.Machine
end

