-- ==== Sys2Proof/Machine/Pins.lean ====
section
/-!
DEFINITION. The I3C management bus (R574, R575).
-/
namespace Sys2Proof.Machine

/-- The target answers whenever input is present. -/
def Blk.i3cOn (b : Blk) : Bool := decide (b.pwr.inputMv ≠ 0)

/-- The address that the target answers to: the dynamic one once it has one, else the static 0x5A. -/
def Blk.i3cAddr (b : Blk) : Nat := b.pins.i3cDyn.getD 0x5A

/-- IOD0 answers: it is there and not in reset. -/
def Blk.iod0Live (b : Blk) : Bool := bitOf b.pkg.answered iod0 && !bitOf b.pkg.lost iod0

/-- The registers at an I3C offset: the register and the byte of it. -/
def i3cAt (off : Nat) : Option (RegName × Nat) :=
  if off < 4 then some (.PWR_I3C_ID, off)
  else if off < 8 then some (.PWR_I3C_INPUT, off - 4)
  else if off < 12 then some (.PWR_I3C_STATE, off - 8)
  else if off < 16 then some (.PWR_I3C_TEMP, off - 12)
  else if off < 24 then some (.PWR_I3C_ENERGY, off - 16)
  else if off < 28 then some (.PWR_I3C_PHASES, off - 24)
  else none

/-- One byte of the target; the high word of the energy is the one latched. -/
def Blk.i3cByte (b : Blk) (off : Nat) : Byte :=
  if 20 ≤ off ∧ off < 24 then (leBytes 4 b.pwr.i3cLatch.toNat).getD (off - 20) 0
  else match i3cAt off with
    | some (n, k) => (leBytes 8 (b.rn ⟨n, 0, 0⟩)).getD k 0
    | none => 0

/-- The latch that a read of the energy's low word sets. -/
def Blk.i3cLatchEnergy (b : Blk) : Blk := { b with pwr := { b.pwr with i3cLatch := BitVec.ofNat 32 (b.rn ⟨.PWR_I3C_ENERGY, 0, 0⟩ / 2 ^ 32) } }

/-- I3C_READ: `n` bytes from an offset, by an address; a read that begins at the energy's low word latches its high word. -/
def Blk.i3cRead (b : Blk) (addr off n : Nat) : Blk :=
  if !b.i3cOn || decide (addr ≠ b.i3cAddr) then b
  else
    let b1 := if off = 16 then b.i3cLatchEnergy else b
    { b1 with readData := (List.range n).map (fun i => b1.i3cByte (off + i)) }

/-- I3C_ENERGY_READ: the low word of PWR_I3C_ENERGY. -/
def Blk.i3cEnergy (b : Blk) (addr : Nat) : Blk := b.i3cRead addr 16 4

/-- I3C_REFRESH: `avgMw` is the 1 ms average of the input power. Fields from IOD0 read 0 while it does not answer. -/
def Blk.i3cRefresh (b : Blk) (avgMw : Nat) : Blk :=
  let rails := b.pwr.vshank && ((List.range 10).filter b.present).all (fun d => decide (((slotGet b.pwr.rails d).getD 0) = 0)) && decide (b.stage ≠ 0)
  let st := b2n b.pins.coolantOk + 2 * b2n b.pwr.fault + 4 * b2n b.pwr.vshank + 8 * b2n rails + 16 * (if b.iod0Live then b.mstate else 7) + 128 * b2n b.pwr.inputFlt +
    256 * (if b.iod0Live then b.stageShown else 0)
  (((((b.wn ⟨.PWR_I3C_INPUT, 0, 0⟩ (min 65535 (b.pwr.inputMv / 10) + 65536 * min 65535 (avgMw / 1000))).wn ⟨.PWR_I3C_STATE, 0, 0⟩ st).wn ⟨.PWR_I3C_TEMP, 0, 0⟩
    (if b.iod0Live then b.rn (pwrReg .PWR_THERM_STAT) else 0)).wn ⟨.PWR_I3C_ENERGY, 0, 0⟩ b.pwr.energyMj).wn ⟨.PWR_I3C_PHASES, 0, 0⟩ (min (2 ^ 32 - 1) b.pwr.shutOff))

/-- RSTDAA: the dynamic address is given up. -/
def Blk.i3cRstdaa (b : Blk) : Blk := if b.i3cOn then { b with pins := { b.pins with i3cDyn := none } } else b

/-- ENTDAA: a target without a dynamic address takes the one assigned. -/
def Blk.i3cEntdaa (b : Blk) (a : Nat) : Blk :=
  if b.i3cOn && b.pins.i3cDyn.isNone then { b with pins := { b.pins with i3cDyn := some (a % 128) } } else b

/-- SETDASA: a dynamic address assigned by the static one. -/
def Blk.i3cSetdasa (b : Blk) (st a : Nat) : Blk :=
  if b.i3cOn && decide (st = 0x5A) && b.pins.i3cDyn.isNone then { b with pins := { b.pins with i3cDyn := some (a % 128) } } else b

/-- A common command that reads bytes from the addressed target. -/
def Blk.i3cGet (b : Blk) (addr : Nat) (xs : List Byte) : Blk := if b.i3cOn && decide (addr = b.i3cAddr) then { b with readData := xs } else b

/-- GETPID, GETBCR, GETDCR, GETSTATUS: the values are free (log entry 78). -/
def Blk.i3cPid (b : Blk) (addr : Nat) : Blk := b.i3cGet addr (leBytes 6 Config.i3cPid.toNat).reverse
def Blk.i3cBcr (b : Blk) (addr : Nat) : Blk := b.i3cGet addr [Config.i3cBcr]
def Blk.i3cDcr (b : Blk) (addr : Nat) : Blk := b.i3cGet addr [Config.i3cDcr]
def Blk.i3cStatus (b : Blk) (addr : Nat) : Blk := (b.i3cGet addr (leBytes 2 (Config.i3cStatus b.fresh).toNat).reverse).tick

end Sys2Proof.Machine
end

