-- ==== Sys2Proof/Machine/ExecEvent.lean ====
section
/-!
DEFINITION. What the commands do: events, the recorder, cobbler messages and the pins (chapters 13 to 17). Each is its effect on the module, for operands that exist.
-/
namespace Sys2Proof.Machine

/-- The source is one that units raise (R491): the clusters' groups 0 to 8 of a compute die, the lacing engine's group 8 of an I/O die. -/
def unitSource (d src : Nat) : Bool := if d < 4 then decide (src / 32 ≤ 8) else decide (src / 32 = 8)

/-- EVENT_RAISE (R494). An event that a unit raises has the cobbler compare its table with every state word (R402). -/
def execEventRaise (d src : Nat) (kind : EvKind) (s : State) : Host.Outcome State Fault Refusal :=
  s.go (dieNo d && decide (src < 2048) && kind.ok)
    (fun b => let c := b.eventRaise d src kind; if kind ≠ .condFalse ∧ unitSource d src = true then c.wordsCheck (fun _ => true) else c)

/-- HOLDOFF_EXPIRY (R498). -/
def execHoldoffExpiry (d g : Nat) (s : State) : Host.Outcome State Fault Refusal :=
  s.go (dieNo d && decide (g < 64)) (fun b => b.holdoffExpiry d g)

/-- COALESCE_TIMER (R503). -/
def execCoalesceTimer (f : Nat) (s : State) : Host.Outcome State Fault Refusal :=
  s.go (fnNo f) (fun b => b.coalesceTimer f)

/-- RECORDER_ENTRY (R535). -/
def execRecorderEntry (x : RecIn) (bad0 bad1 : Bool) (s : State) : Host.Outcome State Fault Refusal :=
  s.go (dieNo x.die) (fun b => b.recorderEntry x bad0 bad1)

/-- RECORDER_FORWARD (R534). -/
def execRecorderForward (d : Nat) (s : State) : Host.Outcome State Fault Refusal :=
  s.go (dieNo d) (fun b => b.recorderForward d)

/-- UNLOCK_EXPIRY (R531). -/
def execUnlockExpiry (s : State) : Host.Outcome State Fault Refusal :=
  s.go (true) (fun b => b.unlockExpiry)

/-- CHALLENGE_EXPIRY (R528). -/
def execChallengeExpiry (s : State) : Host.Outcome State Fault Refusal :=
  s.go (true) (fun b => b.challengeExpiry)

/-- COBBLER_MESSAGE (R472). -/
def execCobblerMessage (dst src : Nat) (msg : List Byte) (s : State) : Host.Outcome State Fault Refusal :=
  s.go (dieNo dst && ((dieNo src && decide (src ≠ dst)) || (decide (src = 15) && decide (4 ≤ dst))) && decide (msg.length = 256)) (fun b => b.cobblerMessage dst src msg)

/-- CLUSTER_MAILBOX (R472). -/
def execClusterMailbox (cl : Nat) (msg : List Byte) (s : State) : Host.Outcome State Fault Refusal :=
  s.go (clNo cl && decide (msg.length = 256)) (fun b => b.clusterMessage cl msg)

/-- DIE_DOORBELL (R472). -/
def execDieDoorbell (d bit : Nat) (s : State) : Host.Outcome State Fault Refusal :=
  s.go (dieNo d && decide (bit < 32)) (fun b => b.dieDoorbell d bit)

/-- I3C_READ (R574). -/
def execI3cRead (addr off n : Nat) (s : State) : Host.Outcome State Fault Refusal :=
  s.go (decide (addr < 128)) (fun b => b.i3cRead addr off n)

/-- I3C_ENERGY_READ (R575). -/
def execI3cEnergyRead (addr : Nat) (s : State) : Host.Outcome State Fault Refusal :=
  s.go (decide (addr < 128)) (fun b => b.i3cEnergy addr)

/-- I3C_REFRESH (R575). -/
def execI3cRefresh (avgMw : Nat) (s : State) : Host.Outcome State Fault Refusal :=
  s.go (true) (fun b => b.i3cRefresh avgMw)

/-- RSTDAA (R574). -/
def execRstdaa (s : State) : Host.Outcome State Fault Refusal :=
  s.go (true) (fun b => b.i3cRstdaa)

/-- ENTDAA (R574). -/
def execEntdaa (a : Nat) (s : State) : Host.Outcome State Fault Refusal :=
  s.go (decide (a < 128)) (fun b => b.i3cEntdaa a)

/-- SETDASA (R574). -/
def execSetdasa (st a : Nat) (s : State) : Host.Outcome State Fault Refusal :=
  s.go (decide (st < 128) && decide (a < 128)) (fun b => b.i3cSetdasa st a)

/-- GETPID (R574). -/
def execGetpid (addr : Nat) (s : State) : Host.Outcome State Fault Refusal :=
  s.go (decide (addr < 128)) (fun b => b.i3cPid addr)

/-- GETBCR (R574). -/
def execGetbcr (addr : Nat) (s : State) : Host.Outcome State Fault Refusal :=
  s.go (decide (addr < 128)) (fun b => b.i3cBcr addr)

/-- GETDCR (R574). -/
def execGetdcr (addr : Nat) (s : State) : Host.Outcome State Fault Refusal :=
  s.go (decide (addr < 128)) (fun b => b.i3cDcr addr)

/-- GETSTATUS (R574). -/
def execGetstatus (addr : Nat) (s : State) : Host.Outcome State Fault Refusal :=
  s.go (decide (addr < 128)) (fun b => b.i3cStatus addr)

end Sys2Proof.Machine
end

