-- ==== Sys2Proof/Machine/ExecHost.lean ====
section
/-!
DEFINITION. What the commands do: commands of the host mailboxes (chapter 13). Each is its effect on the module, for operands that exist.
-/
namespace Sys2Proof.Machine

/-- IDENTIFY (R476). -/
def execIdentify (f m : Nat) (s : State) : Host.Outcome State Fault Refusal :=
  s.go (mbxOk f m) (fun b => b.identify f m)

/-- QUERY_STATE_SUMMARY (R476). -/
def execQueryStateSummary (f m : Nat) (s : State) : Host.Outcome State Fault Refusal :=
  s.go (mbxOk f m) (fun b => b.querySummary f m)

/-- QUERY_STATE_PARTITION (R476). -/
def execQueryStatePartition (f m : Nat) (s : State) : Host.Outcome State Fault Refusal :=
  s.go (mbxOk f m) (fun b => b.queryPartition f m)

/-- QUERY_STATE_OPERATION (R476). -/
def execQueryStateOperation (f m : Nat) (s : State) : Host.Outcome State Fault Refusal :=
  s.go (mbxOk f m) (fun b => b.queryOperation f m)

/-- QUERY_STATE_GENERATIONS (R476). -/
def execQueryStateGenerations (f m : Nat) (s : State) : Host.Outcome State Fault Refusal :=
  s.go (mbxOk f m) (fun b => b.queryGenerations f m)

/-- QUERY_STATE_REGISTERS (R476). -/
def execQueryStateRegisters (f m : Nat) (s : State) : Host.Outcome State Fault Refusal :=
  s.go (mbxOk f m) (fun b => b.queryRegisters f m)

/-- QUERY_STATE_UNITS (R476). -/
def execQueryStateUnits (f m : Nat) (s : State) : Host.Outcome State Fault Refusal :=
  s.go (mbxOk f m) (fun b => (b.queryUnits f m).flowsFollow b)

/-- LOAD_LAST (R249). -/
def execLoadLast (f m : Nat) (sections : Last) (s : State) : Host.Outcome State Fault Refusal :=
  s.go (mbxOk f m) (fun b => b.loadLast f m sections)

/-- UNLOAD_LAST (R551). -/
def execUnloadLast (f m : Nat) (s : State) : Host.Outcome State Fault Refusal :=
  s.go (mbxOk f m) (fun b => b.unloadLast f m)

/-- RUN_STEPS (R484). -/
def execRunSteps (f m : Nat) (s : State) : Host.Outcome State Fault Refusal :=
  s.go (mbxOk f m) (fun b => b.runSteps f m)

/-- SUSPEND_BOUNDARY (R290). -/
def execSuspendBoundary (f m : Nat) (s : State) : Host.Outcome State Fault Refusal :=
  s.go (mbxOk f m) (fun b => b.suspend f m false)

/-- SUSPEND_NOW (R291). -/
def execSuspendNow (f m : Nat) (s : State) : Host.Outcome State Fault Refusal :=
  s.go (mbxOk f m) (fun b => b.suspend f m true)

/-- RESUME (R481). -/
def execResume (f m : Nat) (s : State) : Host.Outcome State Fault Refusal :=
  s.go (mbxOk f m) (fun b => b.resume f m)

/-- CANCEL (R482). -/
def execCancel (f m : Nat) (s : State) : Host.Outcome State Fault Refusal :=
  s.go (mbxOk f m) (fun b => b.cancel f m)

/-- REPLAY_STEP (R296). -/
def execReplayStep (f m : Nat) (partner : Option Gen) (bad : List (Nat × Nat × Nat)) (s : State) : Host.Outcome State Fault Refusal :=
  s.go (mbxOk f m) (fun b => b.replayStep f m partner bad)

/-- RESHARD (R363). -/
def execReshard (f m : Nat) (sections : Last) (moves : List (Nat × BitVec 512)) (s : State) : Host.Outcome State Fault Refusal :=
  s.go (mbxOk f m) (fun b => b.reshardCmd f m sections moves)

/-- RESHARD_DRAINED (R363). -/
def execReshardDrained (p : Nat) (s : State) : Host.Outcome State Fault Refusal :=
  s.go (partNo p) (fun b => b.reshardDrained p)

/-- SECURE_STATE_NOW (R415). -/
def execSecureStateNow (f m : Nat) (s : State) : Host.Outcome State Fault Refusal :=
  s.go (mbxOk f m) (fun b => b.secureNow f m)

/-- SECURE_STATE_AT_STEP (R415). -/
def execSecureStateAtStep (f m : Nat) (s : State) : Host.Outcome State Fault Refusal :=
  s.go (mbxOk f m) (fun b => b.secureAt f m)

/-- SECURE_STATE_EXPORT (R421). -/
def execSecureStateExport (f m : Nat) (s : State) : Host.Outcome State Fault Refusal :=
  s.go (mbxOk f m) (fun b => b.secureExport f m)

/-- SECURE_STATE_POLICY (R423). -/
def execSecureStatePolicy (f m : Nat) (s : State) : Host.Outcome State Fault Refusal :=
  s.go (mbxOk f m) (fun b => b.securePolicy f m)

/-- SECURE_STATE_POLICY_OFF (R423). -/
def execSecureStatePolicyOff (f m : Nat) (s : State) : Host.Outcome State Fault Refusal :=
  s.go (mbxOk f m) (fun b => b.securePolicyOff f m)

/-- RESTORE_STATE (R429). -/
def execRestoreState (f m : Nat) (partner : Option Gen) (bad : List (Nat × Nat × Nat)) (s : State) : Host.Outcome State Fault Refusal :=
  s.go (mbxOk f m) (fun b => b.restoreState f m partner bad)

/-- AWL_TEST (R391). -/
def execAwlTest (f m : Nat) (s : State) : Host.Outcome State Fault Refusal :=
  s.go (mbxOk f m) (fun b => b.awlTest f m)

/-- SCRUB (R235). -/
def execScrub (f m : Nat) (s : State) : Host.Outcome State Fault Refusal :=
  s.go (mbxOk f m) (fun b => b.scrubCmd f m)

/-- SET_POWER_MODULE_CAP (R443). -/
def execSetPowerModuleCap (f m : Nat) (s : State) : Host.Outcome State Fault Refusal :=
  s.go (mbxOk f m) (fun b => b.setPower f m 0)

/-- SET_POWER_PARTITION_CAP (R442). -/
def execSetPowerPartitionCap (f m : Nat) (s : State) : Host.Outcome State Fault Refusal :=
  s.go (mbxOk f m) (fun b => b.setPower f m 1)

/-- SET_POWER_OP_POINT (R438). -/
def execSetPowerOpPoint (f m : Nat) (s : State) : Host.Outcome State Fault Refusal :=
  s.go (mbxOk f m) (fun b => b.setPower f m 2)

/-- SET_POWER_STATE (R436). -/
def execSetPowerState (f m : Nat) (s : State) : Host.Outcome State Fault Refusal :=
  s.go (mbxOk f m) (fun b => b.setPower f m 3)

/-- SET_POWER_CAPPER_CFG (R441). -/
def execSetPowerCapperCfg (f m : Nat) (s : State) : Host.Outcome State Fault Refusal :=
  s.go (mbxOk f m) (fun b => b.setPower f m 4)

/-- SET_PARTITION_DEFINE (R489). -/
def execSetPartitionDefine (f m : Nat) (s : State) : Host.Outcome State Fault Refusal :=
  s.go (mbxOk f m) (fun b => b.partDefine f m)

/-- SET_PARTITION_DELETE (R489). -/
def execSetPartitionDelete (f m : Nat) (s : State) : Host.Outcome State Fault Refusal :=
  s.go (mbxOk f m) (fun b => b.partDelete f m)

/-- READ_RECORDER (R537). -/
def execReadRecorder (f m : Nat) (bad0 bad1 : List Nat) (s : State) : Host.Outcome State Fault Refusal :=
  s.go (mbxOk f m) (fun b => b.readRecorder f m bad0 bad1)

/-- CLEAR_RECORDER (R538). -/
def execClearRecorder (f m : Nat) (s : State) : Host.Outcome State Fault Refusal :=
  s.go (mbxOk f m) (fun b => b.clearRecorder f m)

/-- UNLOCK_CHALLENGE (R528). -/
def execUnlockChallenge (f m : Nat) (s : State) : Host.Outcome State Fault Refusal :=
  s.go (mbxOk f m) (fun b => b.unlockChallenge f m)

/-- UNLOCK_RESPONSE (R530). -/
def execUnlockResponse (f m : Nat) (s : State) : Host.Outcome State Fault Refusal :=
  s.go (mbxOk f m) (fun b => b.unlockResponse f m)

/-- UNLOCK_RESPONSE_RELOCK (R531). -/
def execUnlockResponseRelock (f m : Nat) (s : State) : Host.Outcome State Fault Refusal :=
  s.go (mbxOk f m) (fun b => b.relock f m)

/-- FW_UPDATE (R521). -/
def execFwUpdate (f m : Nat) (s : State) : Host.Outcome State Fault Refusal :=
  s.go (mbxOk f m) (fun b => b.fwUpdate f m)

/-- ATTEST (R527). -/
def execAttest (f m : Nat) (s : State) : Host.Outcome State Fault Refusal :=
  s.go (mbxOk f m) (fun b => b.attest f m)

end Sys2Proof.Machine
end

