-- ==== Sys2Proof/Machine/ExecLacing.lean ====
section
/-!
DEFINITION. What the commands do: the lacing engines and collectives (chapter 09). Each is its effect on the module, for operands that exist.
-/
namespace Sys2Proof.Machine

/-- COLLECTIVE_ARM_REPORT (R342). -/
def execCollectiveArmReport (p q t : Nat) (s : State) : Host.Outcome State Fault Refusal :=
  s.go (partNo p && decide (t < 4)) (fun b => b.armReport p q t)

/-- ALL_REDUCE (R349). -/
def execAllReduce (p q : Nat) (lf : Bool) (s : State) : Host.Outcome State Fault Refusal :=
  s.go (partNo p) (fun b => b.collStart p q 1 lf)

/-- REDUCE_SCATTER (R349). -/
def execReduceScatter (p q : Nat) (lf : Bool) (s : State) : Host.Outcome State Fault Refusal :=
  s.go (partNo p) (fun b => b.collStart p q 2 lf)

/-- ALL_GATHER (R353). -/
def execAllGather (p q : Nat) (lf : Bool) (s : State) : Host.Outcome State Fault Refusal :=
  s.go (partNo p) (fun b => b.collStart p q 3 lf)

/-- BROADCAST (R353). -/
def execBroadcast (p q : Nat) (lf : Bool) (s : State) : Host.Outcome State Fault Refusal :=
  s.go (partNo p) (fun b => b.collStart p q 4 lf)

/-- SEND (R353). -/
def execSend (p q : Nat) (lf : Bool) (s : State) : Host.Outcome State Fault Refusal :=
  s.go (partNo p) (fun b => b.collStart p q 5 lf)

/-- RECV (R353). -/
def execRecv (p q : Nat) (lf : Bool) (s : State) : Host.Outcome State Fault Refusal :=
  s.go (partNo p) (fun b => b.collStart p q 6 lf)

/-- A2A_DISPATCH (R354). -/
def execA2aDispatch (p q : Nat) (lf : Bool) (s : State) : Host.Outcome State Fault Refusal :=
  s.go (partNo p) (fun b => b.collStart p q 7 lf)

/-- A2A_COMBINE (R355). -/
def execA2aCombine (p q : Nat) (lf : Bool) (s : State) : Host.Outcome State Fault Refusal :=
  s.go (partNo p) (fun b => b.collStart p q 8 lf)

/-- PUT (R353). -/
def execPut (p q : Nat) (lf : Bool) (s : State) : Host.Outcome State Fault Refusal :=
  s.go (partNo p) (fun b => b.collStart p q 9 lf)

/-- COLLECTIVE_COMPLETE (R342). -/
def execCollectiveComplete (p q : Nat) (s : State) : Host.Outcome State Fault Refusal :=
  s.go (partNo p) (fun b => b.collCompletion p q)

/-- CONTRIB (R347). -/
def execContrib (e : Nat) (msg : Msg) (lf : Bool) (s : State) : Host.Outcome State Fault Refusal :=
  s.go (eyeNo e) (fun b => b.chunkMsg e msg 1 lf)

/-- PARTIAL (R360). -/
def execPartialSum (e : Nat) (msg : Msg) (lf : Bool) (s : State) : Host.Outcome State Fault Refusal :=
  s.go (eyeNo e) (fun b => b.chunkMsg e msg 2 lf)

/-- RESULT (R347). -/
def execResult (e : Nat) (msg : Msg) (lf : Bool) (s : State) : Host.Outcome State Fault Refusal :=
  s.go (eyeNo e) (fun b => b.chunkMsg e msg 3 lf)

/-- A2A_ROWS (R354). -/
def execA2aRows (e : Nat) (msg : Msg) (lf : Bool) (s : State) : Host.Outcome State Fault Refusal :=
  s.go (eyeNo e) (fun b => b.chunkMsg e msg 4 lf)

/-- A2A_COUNT (R354). -/
def execA2aCount (e : Nat) (msg : Msg) (s : State) : Host.Outcome State Fault Refusal :=
  s.go (eyeNo e) (fun b => b.a2aCount e msg)

/-- CACK (R346). -/
def execCack (e : Nat) (msg : Msg) (s : State) : Host.Outcome State Fault Refusal :=
  s.go (eyeNo e) (fun b => b.cackAny e msg)

/-- PARTNER (R353). -/
def execPartner (e : Nat) (msg : Msg) (s : State) : Host.Outcome State Fault Refusal :=
  s.go (eyeNo e) (fun b => b.partnerMsg e msg)

/-- HERITAGE_STEP_STATUS (R361). -/
def execHeritageStepStatus (e : Nat) (overflow error abort : Bool) (samples step again : Nat) (s : State) : Host.Outcome State Fault Refusal :=
  s.go (eyeNo e) (fun b => b.heritageStatus e overflow error abort samples step again)

/-- COLLECTIVE_ORDER_TIMEOUT (R358). -/
def execCollectiveOrderTimeout (p q : Nat) (s : State) : Host.Outcome State Fault Refusal :=
  s.go (partNo p) (fun b => b.orderTimeout p q)

/-- LAC_TIMEOUT (R366). -/
def execLacTimeout (p q : Nat) (s : State) : Host.Outcome State Fault Refusal :=
  s.go (partNo p) (fun b => b.lacTimeout p q)

/-- LINK_DOWN (R365). -/
def execLinkDown (e : Nat) (s : State) : Host.Outcome State Fault Refusal :=
  s.go (eyeNo e) (fun b => b.linkDown e)

end Sys2Proof.Machine
end

