-- ==== Sys2Proof/Machine/ExecLink.lean ====
section
/-!
DEFINITION. What the commands do: eyelet links (chapter 08). Each is its effect on the module, for operands that exist.
-/
namespace Sys2Proof.Machine

/-- DATA_FLIT (R313). -/
def execDataFlit (e : Nat) (raw : List Byte) (s : State) : Host.Outcome State Fault Refusal :=
  s.go (eyeNo e && decide (raw.length = 256)) (fun b => b.dataFlit e raw)

/-- IDLE_FLIT (R303). -/
def execIdleFlit (e ack : Nat) (credit : Nat × Nat) (fix : List Nat) (s : State) : Host.Outcome State Fault Refusal :=
  let h : RxHead := { seq := 0, ack := ack, crVc := credit.1, crCnt := credit.2, fix := fix }
  s.go (eyeNo e && h.ok) (fun b => b.idleFlit e h)

/-- NAK (R310). -/
def execNak (x : RxFlit) (seq : Nat) (s : State) : Host.Outcome State Fault Refusal :=
  s.go (eyeNo x.eye && x.head.ok && decide (seq < 4096)) (fun b => b.nakReceived x.eye x.head seq)

/-- REPLAY_TIMEOUT (R310). -/
def execReplayTimeout (e : Nat) (s : State) : Host.Outcome State Fault Refusal :=
  s.go (eyeNo e) (fun b => b.replayTimeout e)

/-- HEARTBEAT (R316). -/
def execHeartbeat (x : RxFlit) (seq : Nat) (s : State) : Host.Outcome State Fault Refusal :=
  s.go (eyeNo x.eye && x.head.ok) (fun b => b.heartbeat x.eye x.head seq)

/-- HEARTBEAT_SEND (R316). -/
def execHeartbeatSend (e : Nat) (s : State) : Host.Outcome State Fault Refusal :=
  s.go (eyeNo e) (fun b => b.heartbeatSend e)

/-- HEARTBEAT_SILENCE (R317). -/
def execHeartbeatSilence (e : Nat) (s : State) : Host.Outcome State Fault Refusal :=
  s.go (eyeNo e) (fun b => b.hbSilence e)

/-- FLIT_LOCK_LOSS (R317). -/
def execFlitLockLoss (e : Nat) (s : State) : Host.Outcome State Fault Refusal :=
  s.go (eyeNo e) (fun b => b.flitLockLoss e)

/-- PAUSE (R326). -/
def execPause (x : RxFlit) (mask : Nat) (s : State) : Host.Outcome State Fault Refusal :=
  s.go (eyeNo x.eye && x.head.ok && decide (mask < 256)) (fun b => b.pauseReceived x.eye x.head mask)

/-- UNPAUSE (R328). -/
def execUnpause (x : RxFlit) (s : State) : Host.Outcome State Fault Refusal :=
  s.go (eyeNo x.eye && x.head.ok) (fun b => b.unpauseReceived x.eye x.head)

/-- COAST_DONE (R327). -/
def execCoastDone (x : RxFlit) (s : State) : Host.Outcome State Fault Refusal :=
  s.go (eyeNo x.eye && x.head.ok) (fun b => b.coastDone x.eye x.head)

/-- PAUSE_TMO (R327). -/
def execPauseTmo (e : Nat) (s : State) : Host.Outcome State Fault Refusal :=
  s.go (eyeNo e) (fun b => b.pauseTmo e)

/-- HOLD (R329). -/
def execHold (x : RxFlit) (s : State) : Host.Outcome State Fault Refusal :=
  s.go (eyeNo x.eye && x.head.ok) (fun b => b.holdReceived x.eye x.head)

/-- DEGRADE (R322). -/
def execDegrade (x : RxFlit) (lane : Nat) (tx : Bool) (s : State) : Host.Outcome State Fault Refusal :=
  s.go (eyeNo x.eye && x.head.ok && decide (lane < 4)) (fun b => b.degrade x.eye x.head lane tx)

/-- LANE_FAILURE (R322). -/
def execLaneFailure (e lane : Nat) (s : State) : Host.Outcome State Fault Refusal :=
  s.go (eyeNo e && decide (lane < 4)) (fun b => b.laneFailure e lane)

/-- IDENTITY (R320). -/
def execIdentity (x : RxFlit) (id : BitVec 128) (s : State) : Host.Outcome State Fault Refusal :=
  s.go (eyeNo x.eye && x.head.ok) (fun b => b.identity x.eye x.head id)

/-- CREDIT_INIT (R319). -/
def execCreditInit (x : RxFlit) (cr : List Nat) (s : State) : Host.Outcome State Fault Refusal :=
  s.go (eyeNo x.eye && x.head.ok) (fun b => b.creditInit x.eye x.head cr)

/-- TRAINING_STAGE_TIMEOUT (R319). -/
def execTrainingStageTimeout (e : Nat) (s : State) : Host.Outcome State Fault Refusal :=
  s.go (eyeNo e) (fun b => b.stageTimeout e)

/-- DETECT_RETRY (R318). -/
def execDetectRetry (e : Nat) (found : Option (Nat × Nat)) (s : State) : Host.Outcome State Fault Refusal :=
  s.go (eyeNo e) (fun b => b.detectRetry e found)

/-- EYELET_TRAINING_COMPLETE (R319). -/
def execEyeletTrainingComplete (e tx rx : Nat) (s : State) : Host.Outcome State Fault Refusal :=
  s.go (eyeNo e && decide (tx < 16) && decide (rx < 16)) (fun b => b.trainingComplete e tx rx)

/-- CABLE_INSERTED (R562). -/
def execCableInserted (n : Nat) (s : State) : Host.Outcome State Fault Refusal :=
  s.go (decide (n < 6)) (fun b => b.cableIn n)

/-- FLIT_TIME (R314). -/
def execFlitTime (e : Nat) (s : State) : Host.Outcome State Fault Refusal :=
  s.go (eyeNo e) (fun b => b.flitTime e)

/-- CABLE_REMOVED (R562). -/
def execCableRemoved (n : Nat) (s : State) : Host.Outcome State Fault Refusal :=
  s.go (decide (n < 6)) (fun b => b.cableOut n)

end Sys2Proof.Machine
end

