-- ==== Sys2Proof/Machine/ExecMemory.lean ====
section
/-!
DEFINITION. What the commands do: stacks, memory repair and the insole scrub (chapters 05 and 06). Each is its effect on the module, for operands that exist.
-/
namespace Sys2Proof.Machine

/-- HBM_READ (R233). -/
def execHbmRead (fw : Bool) (blk : Nat) (err : HbmErr) (demoted : Bool) (s : State) : Host.Outcome State Fault Refusal :=
  s.go (true) (fun b => b.hbmRead fw blk err demoted)

/-- HBM_WRITE (R223). -/
def execHbmWrite (at_ : HbmAt) (pay : List Byte) (a : Aglet) (err : HbmErr) (s : State) : Host.Outcome State Fault Refusal :=
  s.go (decide (pay.length = 4096)) (fun b => b.hbmWrite at_.fw at_.blk pay a err)

/-- HBM_ROW_REPAIR (R238). -/
def execHbmRowRepair (pc : Nat) (errs : List (Nat × HbmErr)) (s : State) : Host.Outcome State Fault Refusal :=
  s.go (pcNo pc) (fun b => b.rowRepair pc errs)

/-- HBM_SCRUB_READ (R235). -/
def execHbmScrubRead (op : Bool) (x : Nat) (err : HbmErr) (s : State) : Host.Outcome State Fault Refusal :=
  s.go (true) (fun b => b.scrubRead op x err)

/-- ROW_TRACKER_EXPIRY (R236). -/
def execRowTrackerExpiry (st row : Nat) (s : State) : Host.Outcome State Fault Refusal :=
  s.go (decide (st < 24)) (fun b => b.trackExpiry st row)

/-- INSOLE_SCRUB (R168). -/
def execInsoleScrub (cl : Nat) (ce ue : List Nat) (s : State) : Host.Outcome State Fault Refusal :=
  s.go (clNo cl) (fun b => b.insoleScrub cl ce ue)

end Sys2Proof.Machine
end

