-- ==== Sys2Proof/Machine/ExecPackage.lean ====
section
/-!
DEFINITION. What the commands do: the package: welt, discovery, die loss, the seat (chapter 01). Each is its effect on the module, for operands that exist.
-/
namespace Sys2Proof.Machine

/-- WELT_HEARTBEAT_SEND (R36). -/
def execWeltHeartbeatSend (d retries : Nat) (s : State) : Host.Outcome State Fault Refusal :=
  s.go (dieNo d) (fun b => b.weltHeartbeat d retries)

/-- DIE_LOSS_DETECT (R36). -/
def execDieLossDetect (o d : Nat) (s : State) : Host.Outcome State Fault Refusal :=
  s.go (dieNo o && dieNo d) (fun b => b.lossDetect o d)

/-- DIE_LOSS_BROADCAST (R37). -/
def execDieLossBroadcast (o d : Nat) (s : State) : Host.Outcome State Fault Refusal :=
  s.go (dieNo o && dieNo d) (fun b => b.lossHeard o d)

/-- ROUTE_INSTALL (R38). -/
def execRouteInstall (s : State) : Host.Outcome State Fault Refusal :=
  s.go (true) (fun b => b.routeInstall)

/-- WELT_LANE_REPAIR (R18). -/
def execWeltLaneRepair (d n : Nat) (tx : Bool) (s : State) : Host.Outcome State Fault Refusal :=
  s.go (dieNo d && decide (n < 64)) (fun b => b.weltLaneRepair d n tx)

/-- COBBLER_HEARTBEAT (R34). -/
def execCobblerHeartbeat (d : Nat) (s : State) : Host.Outcome State Fault Refusal :=
  s.go (dieNo d) (fun b => b.cobblerHeartbeat d)

/-- COBBLER_SILENT (R34). -/
def execCobblerSilent (o d : Nat) (s : State) : Host.Outcome State Fault Refusal :=
  s.go (dieNo o && dieNo d) (fun b => b.cobblerSilent o d)

/-- MASTER_CLAIM (R34). -/
def execMasterClaim (d : Nat) (s : State) : Host.Outcome State Fault Refusal :=
  s.go (dieNo d) (fun b => b.masterClaim d)

/-- DIE_REJOIN (R41). -/
def execDieRejoin (d w : Nat) (failed : List (Nat × Nat × Nat)) (s : State) : Host.Outcome State Fault Refusal :=
  s.go (dieNo d) (fun b => b.dieRejoin d w failed)

/-- DIE_ADMISSION (R41). -/
def execDieAdmission (d : Nat) (s : State) : Host.Outcome State Fault Refusal :=
  s.go (dieNo d) (fun b => b.dieAdmission d)

/-- REJOIN_DEADLINE (R40). -/
def execRejoinDeadline (d : Nat) (s : State) : Host.Outcome State Fault Refusal :=
  s.go (dieNo d) (fun b => b.rejoinDeadline d)

/-- SEAT_WRITE (R26). -/
def execSeatWrite (edge a : Nat) (xs : List Byte) (s : State) : Host.Outcome State Fault Refusal :=
  s.go (decide (edge < 4)) (fun b => b.seatWrite edge a xs)

/-- SEAT_READ (R25). -/
def execSeatRead (edge a n : Nat) (s : State) : Host.Outcome State Fault Refusal :=
  s.go (decide (edge < 4)) (fun b => b.seatRead edge a n)

/-- SEAT_DOORBELL (R25). -/
def execSeatDoorbell (edge n : Nat) (s : State) : Host.Outcome State Fault Refusal :=
  s.go (decide (edge < 4)) (fun b => b.seatDoorbell edge n)

/-- SEAT_DOWN (R27). -/
def execSeatDown (s : State) : Host.Outcome State Fault Refusal :=
  s.go (true) (fun b => b.seatDownEvent)

end Sys2Proof.Machine
end

