-- ==== Sys2Proof/Machine/Windows.lean ====
section
/-!
DEFINITION. The debug window (R533): 32-bit accesses to the register blocks of every die, among them the registers whose writes act.
-/
namespace Sys2Proof.Machine

/-- AWL_CMD (R378): the action on a unit of the die. -/
def Blk.awlCmd (b : Blk) (d v : Nat) : Blk :=
  let u := unitId d (v % 256)
  match bits v 8 3 with
  | 1 => (b.awlFence u).flowsFollow b
  | 2 => b.awlReturn u
  | 3 => b.awlTestCmd u
  | 4 => b.awlSpare u
  | 5 => (b.awlFail u).flowsFollow b
  | _ => b

/-- A write of `v`, in the place of the register's bits, to a register whose writes act: what the row of that write does. The window is the physical function's
(function 0), and the ports are those of the dies' own cobblers. -/
def Blk.ownWrite (b : Blk) (r : RegRef) (v : Nat) : Blk :=
  match r.name with
  | .MBX_LOCK => b.lockWrite 0 r.idx v 0
  | .MBX_LOCK_BREAK => b.lockBreak v
  | .EVG_COMPLETE => b.evComplete (r.at_ / 16) (r.at_ % 16) (Fld.EVG_COMPLETE_SOURCE.get (BitVec.ofNat 256 v)) (Fld.EVG_COMPLETE_SERVED.get (BitVec.ofNat 256 v))
  | .EVG_Q_CONS => b.evConsWrite (r.at_ / 16) (r.at_ % 16) v
  | .EVG_MASK => b.evMaskWrite (r.at_ / 16) (r.at_ % 16) r.idx v
  | .DBL_FEED_PROD => b.feedProd 0 r.idx v
  | .DBL_RESET => b.dblReset v
  | .SEC_FAILED_CLEAR => b.secFailedClear v
  | .EYE_PAUSE => if bitOf v 16 then b.eyeHold r.at_ else b.eyePauseWrite r.at_ (v % 256)
  | .AWL_CMD => b.awlCmd r.at_ v
  | .HBM_RELAY_CTL => if bitOf v 0 then b.relayGo else b
  | .WLT_FENCE => b.fenceWrite r.at_ v
  | .WLT_UNFENCE => b.unfenceWrite r.at_ v
  | _ => b

/-- DEBUG_WINDOW_ACCESS: a 32-bit access at a BAR0 address; `w` is the word written. -/
def Blk.debugWindow (b : Blk) (a : Nat) (w : Option Word) : Blk :=
  if !bitOf b.sec.scopes 0 then ({ b with readData := if w.isNone then zeros 4 else b.readData }).bump ⟨.SEC_DBG_DENY_CNT, iod0, 0⟩
  else match windowAt (a / 4 * 4) with
    | none => match w with
      | none => { b with readData := zeros 4 }
      | some _ => b.clearFinOnly
    | some (d, q, k, off) => match w with
      | none => let y := b.blockRead d q k 1 off; { y.2 with readData := y.1 }
      | some v =>
        let b1 := b.clearFinOnly
        match (if b.up d then regFind d q k off else none) with
        | none => b1
        | some (r, o) =>
          if ownRow r.name then b1.ownWrite r (v.toNat * 2 ^ (8 * o))
          else b1.regWrite r (BitVec.ofNat 256 (v.toNat * 2 ^ (8 * o))) (byteMask o 4)

end Sys2Proof.Machine
end

