-- ==== Sys2Proof/Machine/ExecPort.lean ====
section
/-!
DEFINITION. What the commands do: mailbox buffers, doorbells, BAR2, register accesses and the event gatherer (chapters 13 and 14). Each is its effect on the module, for operands that exist.
-/
namespace Sys2Proof.Machine

/-- HOST_REQUEST (R462). -/
def execHostRequest (f m : Nat) (msg : List Byte) (s : State) : Host.Outcome State Fault Refusal :=
  s.go (mbxOk f m && decide (msg.length = 256)) (fun b => b.hostRequest f m msg)

/-- RESPONSE_READ (R466). -/
def execResponseRead (f m : Nat) (s : State) : Host.Outcome State Fault Refusal :=
  s.go (mbxOk f m) (fun b => b.responseRead f m)

/-- MBX_REQUEST_TIMEOUT (R463). -/
def execMbxRequestTimeout (f m : Nat) (s : State) : Host.Outcome State Fault Refusal :=
  s.go (mbxOk f m) (fun b => b.requestTimeout f m)

/-- MBX_LOCK_READ (R468). -/
def execMbxLockRead (f m owner : Nat) (s : State) : Host.Outcome State Fault Refusal :=
  s.go (mbxOk f m && decide (owner < 9)) (fun b => b.lockRead f m owner)

/-- MBX_LOCK_RELEASE (R468). -/
def execMbxLockRelease (f m v owner : Nat) (s : State) : Host.Outcome State Fault Refusal :=
  s.go (mbxOk f m && decide (owner < 9) && word32 v) (fun b => b.lockWrite f m v owner)

/-- MBX_LOCK_BREAK (R468). -/
def execMbxLockBreak (mask : Nat) (s : State) : Host.Outcome State Fault Refusal :=
  s.go (word64 mask) (fun b => b.lockBreak mask)

/-- OP_COMPLETION_COMMIT (R483). -/
def execOpCompletionCommit (h : Nat) (s : State) : Host.Outcome State Fault Refusal :=
  s.go (word32 h) (fun b => b.commitOp h)

/-- DBL_FEED_PROD_WRITE (R484). -/
def execDblFeedProdWrite (f p v : Nat) (s : State) : Host.Outcome State Fault Refusal :=
  s.go (fnNo f && partNo p && word32 v) (fun b => b.feedProd f p v)

/-- DBL_RESET_COLD (R559). -/
def execDblResetCold (v : Nat) (s : State) : Host.Outcome State Fault Refusal :=
  s.go (word32 v) (fun b => b.dblResetCold v)

/-- DBL_RESET_PACKAGE (R559). -/
def execDblResetPackage (v : Nat) (s : State) : Host.Outcome State Fault Refusal :=
  s.go (word32 v) (fun b => b.dblResetPackage v)

/-- DBL_RESET_LAPSE (R559). -/
def execDblResetLapse (s : State) : Host.Outcome State Fault Refusal :=
  s.go (true) (fun b => b.dblResetLapse)

/-- BAR2_WRITE (R231). -/
def execBar2Write (x : Nat) (xs : List Byte) (s : State) : Host.Outcome State Fault Refusal :=
  s.go (true) (fun b => b.bar2Write x xs)

/-- BAR2_READ (R231). -/
def execBar2Read (x n : Nat) (s : State) : Host.Outcome State Fault Refusal :=
  s.go (true) (fun b => b.bar2Read x n)

/-- DEBUG_WINDOW_ACCESS (R533). -/
def execDebugWindowAccess (a : Nat) (w : Option Word) (s : State) : Host.Outcome State Fault Refusal :=
  s.go (true) (fun b => b.debugWindow a w)

/-- SEC_FAILED_CLEAR (R539). -/
def execSecFailedClear (v : Nat) (s : State) : Host.Outcome State Fault Refusal :=
  s.go (word32 v) (fun b => b.secFailedClear v)

/-- EYE_PAUSE_WRITE (R324). -/
def execEyePauseWrite (e mask : Nat) (s : State) : Host.Outcome State Fault Refusal :=
  s.go (eyeNo e && decide (mask < 256)) (fun b => b.eyePauseWrite e mask)

/-- EYE_HOLD_WRITE (R329). -/
def execEyeHoldWrite (e : Nat) (s : State) : Host.Outcome State Fault Refusal :=
  s.go (eyeNo e) (fun b => b.eyeHold e)

/-- AWL_CMD_FENCE (R378). -/
def execAwlCmdFence (u : Nat) (s : State) : Host.Outcome State Fault Refusal :=
  s.go (unitNo u) (fun b => (b.awlFence u).flowsFollow b)

/-- AWL_CMD_RETURN (R378). -/
def execAwlCmdReturn (u : Nat) (s : State) : Host.Outcome State Fault Refusal :=
  s.go (unitNo u) (fun b => b.awlReturn u)

/-- AWL_CMD_TEST (R378). -/
def execAwlCmdTest (u : Nat) (s : State) : Host.Outcome State Fault Refusal :=
  s.go (unitNo u) (fun b => b.awlTestCmd u)

/-- AWL_CMD_MAKE_SPARE (R378). -/
def execAwlCmdMakeSpare (u : Nat) (s : State) : Host.Outcome State Fault Refusal :=
  s.go (unitNo u) (fun b => b.awlSpare u)

/-- AWL_CMD_FAIL (R378). -/
def execAwlCmdFail (u : Nat) (s : State) : Host.Outcome State Fault Refusal :=
  s.go (unitNo u) (fun b => (b.awlFail u).flowsFollow b)

/-- RELAY_START (R240). -/
def execRelayStart (s : State) : Host.Outcome State Fault Refusal :=
  s.go (true) (fun b => b.relayGo)

/-- RELAY_COMPLETE (R239). -/
def execRelayComplete (errs : List (Bool × Nat × HbmErr)) (wbad : List (Bool × Nat)) (s : State) : Host.Outcome State Fault Refusal :=
  s.go (true) (fun b => b.relayEnd errs wbad)

/-- WLT_FENCE_WRITE (R37). -/
def execWltFenceWrite (o v : Nat) (s : State) : Host.Outcome State Fault Refusal :=
  s.go (dieNo o && word32 v) (fun b => b.fenceWrite o v)

/-- WLT_UNFENCE_WRITE (R45). -/
def execWltUnfenceWrite (o v : Nat) (s : State) : Host.Outcome State Fault Refusal :=
  s.go (dieNo o && word32 v) (fun b => b.unfenceWrite o v)

/-- EVG_COMPLETE (R495). -/
def execEvgComplete (d t src served : Nat) (s : State) : Host.Outcome State Fault Refusal :=
  s.go (evPortNo d t && decide (src < 2048) && decide (served < 256)) (fun b => b.evComplete d t src served)

/-- EVG_Q_CONS_WRITE (R502). -/
def execEvgQConsWrite (d t v : Nat) (s : State) : Host.Outcome State Fault Refusal :=
  s.go (evPortNo d t && word32 v) (fun b => b.evConsWrite d t v)

/-- EVG_Q_ENABLE (R499). -/
def execEvgQEnable (d t v : Nat) (s : State) : Host.Outcome State Fault Refusal :=
  s.go (evPortNo d t && word32 v) (fun b => b.evCfgWrite d t v)

/-- EVG_MASK_WRITE (R506). -/
def execEvgMaskWrite (d t g v : Nat) (s : State) : Host.Outcome State Fault Refusal :=
  s.go (evPortNo d t && decide (g < 64) && word32 v) (fun b => b.evMaskWrite d t g v)

/-- RCL_READ (R9). -/
def execRclRead (reg : RegRef) (lo w upd : Nat) (s : State) : Host.Outcome State Fault Refusal :=
  s.go (regOk reg && decide (lo + w ≤ reg.name.row.width)) (fun b => b.rclRead reg lo w upd)

/-- MIRROR_ENERGY_READ (R458). -/
def execMirrorEnergyRead (s : State) : Host.Outcome State Fault Refusal :=
  s.go (true) (fun b => b.mirrorEnergy)

/-- REGISTER_WRITE (R7). -/
def execRegisterWrite (reg : RegRef) (v : RegVal) (s : State) : Host.Outcome State Fault Refusal :=
  s.go (regOk reg && !ownRow reg.name) (fun b => b.registerWrite reg v)

/-- MIRROR_REFRESH (R458). -/
def execMirrorRefresh (avgMw avgK : Nat) (s : State) : Host.Outcome State Fault Refusal :=
  s.go (true) (fun b => b.mirrorRefresh avgMw avgK)

end Sys2Proof.Machine
end

