-- ==== Sys2Proof/Machine/ExecPower.lean ====
section
/-!
DEFINITION. What the commands do: power, clocks, thermal protection (chapter 12). Each is its effect on the module, for operands that exist.
-/
namespace Sys2Proof.Machine

/-- INPUT_SAMPLE (R433). -/
def execInputSample (mv ma : Nat) (s : State) : Host.Outcome State Fault Refusal :=
  s.go (true) (fun b => b.inputSample mv ma)

/-- INPUT_FAULT (R433). -/
def execInputFault (s : State) : Host.Outcome State Fault Refusal :=
  s.go (true) (fun b => b.inputFault)

/-- CAPPER_TICK (R442). -/
def execCapperTick (meas issue : Nat) (parts : List (Nat × Nat × Nat)) (s : State) : Host.Outcome State Fault Refusal :=
  s.go (true) (fun b => b.capperTick meas issue parts)

/-- TRIM_TICK (R443). -/
def execTrimTick (avg : Nat) (s : State) : Host.Outcome State Fault Refusal :=
  s.go (true) (fun b => b.trimTick avg)

/-- ATTRIBUTION_SCALE (R441). -/
def execAttributionScale (meter model : Nat) (s : State) : Host.Outcome State Fault Refusal :=
  s.go (true) (fun b => b.attribution meter model)

/-- BUBBLE_WINDOW (R440). -/
def execBubbleWindow (core taperNs : Nat) (cyc : Option Nat) (s : State) : Host.Outcome State Fault Refusal :=
  s.go (coreNo core) (fun b => b.bubbleWindow core taperNs cyc)

/-- DROOP_ONSET (R444). -/
def execDroopOnset (cl : Nat) (s : State) : Host.Outcome State Fault Refusal :=
  s.go (clNo cl) (fun b => b.droopOnset cl)

/-- DROOP_RECOVERY (R444). -/
def execDroopRecovery (cl : Nat) (s : State) : Host.Outcome State Fault Refusal :=
  s.go (clNo cl) (fun b => b.droopRecovery cl)

/-- DROOP_CLEAR (R444). -/
def execDroopClear (cl : Nat) (s : State) : Host.Outcome State Fault Refusal :=
  s.go (clNo cl) (fun b => b.droopClear cl)

/-- FREQ_STEP (R439). -/
def execFreqStep (d : Nat) (s : State) : Host.Outcome State Fault Refusal :=
  s.go (dieNo d) (fun b => b.freqStep d)

/-- THERMAL_SAMPLE (R448). -/
def execThermalSample (xs : List (Nat × Nat)) (s : State) : Host.Outcome State Fault Refusal :=
  s.go (xs.all (fun x => decide (x.1 < 82))) (fun b => b.thermalSample xs)

/-- THERMAL_LIMIT_TICK (R449). -/
def execThermalLimitTick (s : State) : Host.Outcome State Fault Refusal :=
  s.go (true) (fun b => b.thermalTick)

/-- COOLANT_STOP (R452). -/
def execCoolantStop (s : State) : Host.Outcome State Fault Refusal :=
  s.go (true) (fun b => b.coolantStop)

/-- COOLANT_RESTORED (R453). -/
def execCoolantRestored (s : State) : Host.Outcome State Fault Refusal :=
  s.go (true) (fun b => b.coolantRestored)

/-- PHASE_SHUTOFF (R404). -/
def execPhaseShutoff (d rail : Nat) (s : State) : Host.Outcome State Fault Refusal :=
  s.go (dieNo d && decide (rail < 4)) (fun b => b.phaseShutoff d rail)

/-- CLUSTER_GATE (R435). -/
def execClusterGate (cl : Nat) (s : State) : Host.Outcome State Fault Refusal :=
  s.go (clNo cl) (fun b => b.clusterGate cl)

/-- CLUSTER_WAKE (R435). -/
def execClusterWake (cl : Nat) (s : State) : Host.Outcome State Fault Refusal :=
  s.go (clNo cl) (fun b => b.clusterWake cl)

/-- DOZE_WAKE_COMPLETE (R556). -/
def execDozeWakeComplete (s : State) : Host.Outcome State Fault Refusal :=
  s.go (true) (fun b => b.wakeAll)

end Sys2Proof.Machine
end

