-- ==== Sys2Proof/Machine/ExecStart.lean ====
section
/-!
DEFINITION. What the commands do: start-up and resets (chapter 16). Each is its effect on the module, for operands that exist.
-/
namespace Sys2Proof.Machine

/-- INPUT_APPLIED (R543). -/
def execInputApplied (mv : Nat) (ok : Bool) (s : State) : Host.Outcome State Fault Refusal :=
  s.go (true) (fun b => b.inputApplied mv ok)

/-- BOOT_ROM (R514). -/
def execBootRom (fails : List (Nat × Nat × Nat)) (s : State) : Host.Outcome State Fault Refusal :=
  s.go (true) (fun b => b.bootStage fails)

/-- DISCOVERY (R29). -/
def execDiscovery (answered : Nat) (seat : Option SeatInfo) (s : State) : Host.Outcome State Fault Refusal :=
  s.go (true) (fun b => b.discoveryStage answered seat)

/-- WELT_TRAINING (R16). -/
def execWeltTraining (repairs : List (Nat × Nat × Nat × Nat)) (s : State) : Host.Outcome State Fault Refusal :=
  s.go (true) (fun b => b.weltStage repairs)

/-- HBM_TRAINING (R214). -/
def execHbmTraining (up : HbmUp) (s : State) : Host.Outcome State Fault Refusal :=
  s.go (up.errs.all (fun e => pcNo e.1)) (fun b => b.memoryStage up.failed up.errs)

/-- STARTUP_AWL_TESTS (R543). -/
def execStartupAwlTests (bad : List (Nat × Nat × Nat)) (s : State) : Host.Outcome State Fault Refusal :=
  s.go (true) (fun b => b.testStage bad)

/-- PACKAGE_READY (R543). -/
def execPackageReady (ms : Nat) (s : State) : Host.Outcome State Fault Refusal :=
  s.go (true) (fun b => b.packageReady ms)

/-- BOOT_WATCHDOG_EXPIRY (R516). -/
def execBootWatchdogExpiry (s : State) : Host.Outcome State Fault Refusal :=
  s.go (true) (fun b => b.watchdogExpiry)

/-- COLD_RESET (R549). -/
def execColdReset (s : State) : Host.Outcome State Fault Refusal :=
  s.go (true) (fun b => b.coldReset)

/-- PACKAGE_RESET (R552). -/
def execPackageReset (s : State) : Host.Outcome State Fault Refusal :=
  s.go (true) (fun b => b.packageReset)

/-- DIE_RESET (R549). -/
def execDieReset (d : Nat) (s : State) : Host.Outcome State Fault Refusal :=
  s.go (dieNo d) (fun b => b.dieReset d)

/-- COBBLER_RESET (R549). -/
def execCobblerReset (d : Nat) (s : State) : Host.Outcome State Fault Refusal :=
  s.go (dieNo d) (fun b => b.cobblerReset d)

/-- CLUSTER_RESET (R551). -/
def execClusterReset (cl : Nat) (s : State) : Host.Outcome State Fault Refusal :=
  s.go (clNo cl) (fun b => b.clusterResetCmd cl)

/-- FUNCTION_LEVEL_RESET (R470). -/
def execFunctionLevelReset (f : Nat) (s : State) : Host.Outcome State Fault Refusal :=
  s.go (fnNo f) (fun b => b.flr f)

/-- PERST_N_ASSERT (R547). -/
def execPerstNAssert (s : State) : Host.Outcome State Fault Refusal :=
  s.go (true) (fun b => b.perstAssert)

/-- PERST_N_DEASSERT (R569). -/
def execPerstNDeassert (s : State) : Host.Outcome State Fault Refusal :=
  s.go (true) (fun b => b.perstDeassert)

/-- HOST_LINK_TRAINING (R571). -/
def execHostLinkTraining (rate width best : Nat) (s : State) : Host.Outcome State Fault Refusal :=
  s.go (true) (fun b => b.hostLink rate width best)

/-- RAILS (R566). -/
def execRails (failed : List (Nat × Nat)) (s : State) : Host.Outcome State Fault Refusal :=
  s.go (true) (fun b => b.railsUp failed)

end Sys2Proof.Machine
end

