-- ==== Sys2Proof/Machine/ExecStep.lean ====
section
/-!
DEFINITION. What the commands do: the sequencer and the training step (chapter 07). Each is its effect on the module, for operands that exist.
-/
namespace Sys2Proof.Machine

/-- QUEUE_ENTRY_ISSUE (R257); `rd.own` is a cobbler's own descriptor (R170, R139), and `rd.parity` says that the entry fails its parity (R381). -/
def execQueueEntryIssue (q : QueueAt) (rd : EntryRead) (s : State) : Host.Outcome State Fault Refusal :=
  s.go (queueNo q.cl q.q) (fun b => if rd.parity then (b.entryParity q.cl q.q).flowsFollow b else b.queueIssue q.cl q.q rd.own)

/-- WAIT_ENTRY (R257). -/
def execWaitEntry (cl q : Nat) (s : State) : Host.Outcome State Fault Refusal :=
  s.go (queueNo cl q) (fun b => b.waitEntry cl q)

/-- ENGINE_COMPLETION (R261). -/
def execEngineCompletion (cl n : Nat) (cf : Bool) (s : State) : Host.Outcome State Fault Refusal :=
  s.go (clNo cl) (fun b => (b.completion cl n cf).flowsFollow b)

/-- FEED_FETCH (R265). -/
def execFeedFetch (p : Nat) (again : Bool) (waited : Nat) (s : State) : Host.Outcome State Fault Refusal :=
  s.go (partNo p) (fun b => b.feedFetch p again waited)

/-- ATTEMPT_START (R266); `x.parity` names the units whose shared registers fail their parity (R403). -/
def execAttemptStart (x : PartStart) (s : State) : Host.Outcome State Fault Refusal :=
  s.go (partNo x.part && x.parity.all unitNo) (fun b => b.startAttempt x.part x.parity)

/-- CLOSING_WORD_SEND (R272). -/
def execClosingWordSend (p : Nat) (s : State) : Host.Outcome State Fault Refusal :=
  s.go (partNo p) (fun b => b.closingWordSend p)

/-- CLOSE_WORD (R371). -/
def execCloseWord (e : Nat) (msg : Msg) (s : State) : Host.Outcome State Fault Refusal :=
  s.go (eyeNo e) (fun b => b.closeWord e msg)

/-- CLOSE_RESULT (R276). -/
def execCloseResult (p : Nat) (x : Option (Nat × Msg)) (s : State) : Host.Outcome State Fault Refusal :=
  s.go (partNo p) (fun b => b.closeResult p x)

/-- NAME_LIST (R372). -/
def execNameList (e : Nat) (msg : Msg) (s : State) : Host.Outcome State Fault Refusal :=
  s.go (eyeNo e) (fun b => b.nameList e msg)

/-- NAME_RESULT (R275). -/
def execNameResult (p : Nat) (x : Option (Nat × Msg)) (s : State) : Host.Outcome State Fault Refusal :=
  s.go (partNo p) (fun b => b.nameResult p x)

/-- CLOSE_TIMEOUT (R289). -/
def execCloseTimeout (p : Nat) (s : State) : Host.Outcome State Fault Refusal :=
  s.go (partNo p) (fun b => b.closeTimeout p)

/-- DROP_NOTICE (R285). -/
def execDropNotice (e : Nat) (msg : Msg) (s : State) : Host.Outcome State Fault Refusal :=
  s.go (eyeNo e) (fun b => b.dropNotice e msg)

/-- DROP_ACK (R285). -/
def execDropAck (e : Nat) (msg : Msg) (s : State) : Host.Outcome State Fault Refusal :=
  s.go (eyeNo e) (fun b => b.dropAck e msg)

/-- ATTEMPT_ABORT (R287). -/
def execAttemptAbort (e : Nat) (msg : Msg) (s : State) : Host.Outcome State Fault Refusal :=
  s.go (eyeNo e) (fun b => b.attemptAbort e msg)

/-- STEP_BOUNDARY (R268). -/
def execStepBoundary (p ms : Nat) (s : State) : Host.Outcome State Fault Refusal :=
  s.go (partNo p) (fun b => (b.stepBoundary p ms).flowsFollow b)

/-- SUSPENSION_POINT (R369). -/
def execSuspensionPoint (h : Nat) (s : State) : Host.Outcome State Fault Refusal :=
  s.go (word32 h) (fun b => b.suspensionPoint h)

end Sys2Proof.Machine
end

