-- ==== Sys2Proof/Machine/ExecVector.lean ====
section
/-!
DEFINITION. What the commands do: vector descriptors and instructions (chapter 04). Each is its effect on the module, for operands that exist.
-/
namespace Sys2Proof.Machine

/-- VECTOR_NOP (R139). -/
def execVectorNop (cl q : Nat) (s : State) : Host.Outcome State Fault Refusal :=
  s.go (queueNo cl q) (fun b => b.runVec cl q 0 none)

/-- VECTOR_RUN (R137). -/
def execVectorRun (cl q : Nat) (k : Option VFault) (stalls : VStalls) (s : State) : Host.Outcome State Fault Refusal :=
  s.go (queueNo cl q) (fun b => (b.runVec cl q 3 k).vecStalls (b.engTake cl q 8 12 3) stalls.bankWait stalls.depStall stalls.tileCe stalls.rngStall (k.any (fun f => f.rng)))

/-- VEC_INSTR_NOP (R142). -/
def execVecInstrNop (core : Nat) (ops : VOps) (s : State) : Host.Outcome State Fault Refusal :=
  s.go (coreNo core && vOpsOk ops) (fun b => b.vOne core 0 0 ops)

/-- END (R142). -/
def execEndProg (core : Nat) (ops : VOps) (s : State) : Host.Outcome State Fault Refusal :=
  s.go (coreNo core && vOpsOk ops) (fun b => b.vOne core 0 1 ops)

/-- SETVL (R142). -/
def execSetvl (core : Nat) (ops : VOps) (s : State) : Host.Outcome State Fault Refusal :=
  s.go (coreNo core && vOpsOk ops) (fun b => b.vOne core 0 2 ops)

/-- SETRC (R142). -/
def execSetrc (core : Nat) (ops : VOps) (s : State) : Host.Outcome State Fault Refusal :=
  s.go (coreNo core && vOpsOk ops) (fun b => b.vOne core 0 3 ops)

/-- ACCREL (R135). -/
def execAccrel (core : Nat) (ops : VOps) (s : State) : Host.Outcome State Fault Refusal :=
  s.go (coreNo core && vOpsOk ops) (fun b => b.vOne core 0 4 ops)

/-- FADD (R143). -/
def execFadd (core : Nat) (ops : VOps) (s : State) : Host.Outcome State Fault Refusal :=
  s.go (coreNo core && vOpsOk ops) (fun b => b.vOne core 1 0 ops)

/-- FSUB (R143). -/
def execFsub (core : Nat) (ops : VOps) (s : State) : Host.Outcome State Fault Refusal :=
  s.go (coreNo core && vOpsOk ops) (fun b => b.vOne core 1 1 ops)

/-- FMUL (R143). -/
def execFmul (core : Nat) (ops : VOps) (s : State) : Host.Outcome State Fault Refusal :=
  s.go (coreNo core && vOpsOk ops) (fun b => b.vOne core 1 2 ops)

/-- FFMA (R143). -/
def execFfma (core : Nat) (ops : VOps) (s : State) : Host.Outcome State Fault Refusal :=
  s.go (coreNo core && vOpsOk ops) (fun b => b.vOne core 1 3 ops)

/-- FMAX (R142). -/
def execFmax (core : Nat) (ops : VOps) (s : State) : Host.Outcome State Fault Refusal :=
  s.go (coreNo core && vOpsOk ops) (fun b => b.vOne core 1 4 ops)

/-- FMIN (R142). -/
def execFmin (core : Nat) (ops : VOps) (s : State) : Host.Outcome State Fault Refusal :=
  s.go (coreNo core && vOpsOk ops) (fun b => b.vOne core 1 5 ops)

/-- FABS (R142). -/
def execFabs (core : Nat) (ops : VOps) (s : State) : Host.Outcome State Fault Refusal :=
  s.go (coreNo core && vOpsOk ops) (fun b => b.vOne core 1 6 ops)

/-- FNEG (R142). -/
def execFneg (core : Nat) (ops : VOps) (s : State) : Host.Outcome State Fault Refusal :=
  s.go (coreNo core && vOpsOk ops) (fun b => b.vOne core 1 7 ops)

/-- FMOV (R142). -/
def execFmov (core : Nat) (ops : VOps) (s : State) : Host.Outcome State Fault Refusal :=
  s.go (coreNo core && vOpsOk ops) (fun b => b.vOne core 1 8 ops)

/-- CVTFI (R142). -/
def execCvtfi (core : Nat) (ops : VOps) (s : State) : Host.Outcome State Fault Refusal :=
  s.go (coreNo core && vOpsOk ops) (fun b => b.vOne core 1 9 ops)

/-- CVTIF (R142). -/
def execCvtif (core : Nat) (ops : VOps) (s : State) : Host.Outcome State Fault Refusal :=
  s.go (coreNo core && vOpsOk ops) (fun b => b.vOne core 1 10 ops)

/-- IADD (R142). -/
def execIadd (core : Nat) (ops : VOps) (s : State) : Host.Outcome State Fault Refusal :=
  s.go (coreNo core && vOpsOk ops) (fun b => b.vOne core 2 0 ops)

/-- ISUB (R142). -/
def execIsub (core : Nat) (ops : VOps) (s : State) : Host.Outcome State Fault Refusal :=
  s.go (coreNo core && vOpsOk ops) (fun b => b.vOne core 2 1 ops)

/-- IMUL (R142). -/
def execImul (core : Nat) (ops : VOps) (s : State) : Host.Outcome State Fault Refusal :=
  s.go (coreNo core && vOpsOk ops) (fun b => b.vOne core 2 2 ops)

/-- IMAX (R142). -/
def execImax (core : Nat) (ops : VOps) (s : State) : Host.Outcome State Fault Refusal :=
  s.go (coreNo core && vOpsOk ops) (fun b => b.vOne core 2 3 ops)

/-- IMIN (R142). -/
def execImin (core : Nat) (ops : VOps) (s : State) : Host.Outcome State Fault Refusal :=
  s.go (coreNo core && vOpsOk ops) (fun b => b.vOne core 2 4 ops)

/-- IAND (R142). -/
def execIand (core : Nat) (ops : VOps) (s : State) : Host.Outcome State Fault Refusal :=
  s.go (coreNo core && vOpsOk ops) (fun b => b.vOne core 2 5 ops)

/-- IOR (R142). -/
def execIor (core : Nat) (ops : VOps) (s : State) : Host.Outcome State Fault Refusal :=
  s.go (coreNo core && vOpsOk ops) (fun b => b.vOne core 2 6 ops)

/-- IXOR (R142). -/
def execIxor (core : Nat) (ops : VOps) (s : State) : Host.Outcome State Fault Refusal :=
  s.go (coreNo core && vOpsOk ops) (fun b => b.vOne core 2 7 ops)

/-- ISHL (R142). -/
def execIshl (core : Nat) (ops : VOps) (s : State) : Host.Outcome State Fault Refusal :=
  s.go (coreNo core && vOpsOk ops) (fun b => b.vOne core 2 8 ops)

/-- ISHR (R142). -/
def execIshr (core : Nat) (ops : VOps) (s : State) : Host.Outcome State Fault Refusal :=
  s.go (coreNo core && vOpsOk ops) (fun b => b.vOne core 2 9 ops)

/-- IMOV (R142). -/
def execImov (core : Nat) (ops : VOps) (s : State) : Host.Outcome State Fault Refusal :=
  s.go (coreNo core && vOpsOk ops) (fun b => b.vOne core 2 10 ops)

/-- RCP (R144). -/
def execRcp (core : Nat) (ops : VOps) (s : State) : Host.Outcome State Fault Refusal :=
  s.go (coreNo core && vOpsOk ops) (fun b => b.vOne core 3 0 ops)

/-- RSQRT (R144). -/
def execRsqrt (core : Nat) (ops : VOps) (s : State) : Host.Outcome State Fault Refusal :=
  s.go (coreNo core && vOpsOk ops) (fun b => b.vOne core 3 1 ops)

/-- SQRT (R144). -/
def execSqrt (core : Nat) (ops : VOps) (s : State) : Host.Outcome State Fault Refusal :=
  s.go (coreNo core && vOpsOk ops) (fun b => b.vOne core 3 2 ops)

/-- EXP2 (R144). -/
def execExp2 (core : Nat) (ops : VOps) (s : State) : Host.Outcome State Fault Refusal :=
  s.go (coreNo core && vOpsOk ops) (fun b => b.vOne core 3 3 ops)

/-- LOG2 (R144). -/
def execLog2 (core : Nat) (ops : VOps) (s : State) : Host.Outcome State Fault Refusal :=
  s.go (coreNo core && vOpsOk ops) (fun b => b.vOne core 3 4 ops)

/-- TANH (R144). -/
def execTanh (core : Nat) (ops : VOps) (s : State) : Host.Outcome State Fault Refusal :=
  s.go (coreNo core && vOpsOk ops) (fun b => b.vOne core 3 5 ops)

/-- ERF (R144). -/
def execErf (core : Nat) (ops : VOps) (s : State) : Host.Outcome State Fault Refusal :=
  s.go (coreNo core && vOpsOk ops) (fun b => b.vOne core 3 6 ops)

/-- RED_SUM (R152). -/
def execRedSum (core : Nat) (ops : VOps) (s : State) : Host.Outcome State Fault Refusal :=
  s.go (coreNo core && vOpsOk ops) (fun b => b.vOne core 4 0 ops)

/-- SUMSQ (R152). -/
def execSumsq (core : Nat) (ops : VOps) (s : State) : Host.Outcome State Fault Refusal :=
  s.go (coreNo core && vOpsOk ops) (fun b => b.vOne core 4 1 ops)

/-- PROD (R151). -/
def execProd (core : Nat) (ops : VOps) (s : State) : Host.Outcome State Fault Refusal :=
  s.go (coreNo core && vOpsOk ops) (fun b => b.vOne core 4 2 ops)

/-- RED_MAX (R154). -/
def execRedMax (core : Nat) (ops : VOps) (s : State) : Host.Outcome State Fault Refusal :=
  s.go (coreNo core && vOpsOk ops) (fun b => b.vOne core 4 3 ops)

/-- RED_MIN (R154). -/
def execRedMin (core : Nat) (ops : VOps) (s : State) : Host.Outcome State Fault Refusal :=
  s.go (coreNo core && vOpsOk ops) (fun b => b.vOne core 4 4 ops)

/-- ARGMAX (R154). -/
def execArgmax (core : Nat) (ops : VOps) (s : State) : Host.Outcome State Fault Refusal :=
  s.go (coreNo core && vOpsOk ops) (fun b => b.vOne core 4 5 ops)

/-- ARGMIN (R154). -/
def execArgmin (core : Nat) (ops : VOps) (s : State) : Host.Outcome State Fault Refusal :=
  s.go (coreNo core && vOpsOk ops) (fun b => b.vOne core 4 6 ops)

/-- ISUM (R152). -/
def execIsum (core : Nat) (ops : VOps) (s : State) : Host.Outcome State Fault Refusal :=
  s.go (coreNo core && vOpsOk ops) (fun b => b.vOne core 4 8 ops)

/-- RED_IMAX (R151). -/
def execRedImax (core : Nat) (ops : VOps) (s : State) : Host.Outcome State Fault Refusal :=
  s.go (coreNo core && vOpsOk ops) (fun b => b.vOne core 4 9 ops)

/-- RED_IMIN (R151). -/
def execRedImin (core : Nat) (ops : VOps) (s : State) : Host.Outcome State Fault Refusal :=
  s.go (coreNo core && vOpsOk ops) (fun b => b.vOne core 4 10 ops)

/-- LPERM (R155). -/
def execLperm (core : Nat) (ops : VOps) (s : State) : Host.Outcome State Fault Refusal :=
  s.go (coreNo core && vOpsOk ops) (fun b => b.vOne core 5 0 ops)

/-- RPERM (R155). -/
def execRperm (core : Nat) (ops : VOps) (s : State) : Host.Outcome State Fault Refusal :=
  s.go (coreNo core && vOpsOk ops) (fun b => b.vOne core 5 1 ops)

/-- LBCAST (R155). -/
def execLbcast (core : Nat) (ops : VOps) (s : State) : Host.Outcome State Fault Refusal :=
  s.go (coreNo core && vOpsOk ops) (fun b => b.vOne core 5 2 ops)

/-- RBCAST (R155). -/
def execRbcast (core : Nat) (ops : VOps) (s : State) : Host.Outcome State Fault Refusal :=
  s.go (coreNo core && vOpsOk ops) (fun b => b.vOne core 5 3 ops)

/-- LROT (R155). -/
def execLrot (core : Nat) (ops : VOps) (s : State) : Host.Outcome State Fault Refusal :=
  s.go (coreNo core && vOpsOk ops) (fun b => b.vOne core 5 4 ops)

/-- FCMP (R142). -/
def execFcmp (core : Nat) (ops : VOps) (s : State) : Host.Outcome State Fault Refusal :=
  s.go (coreNo core && vOpsOk ops) (fun b => b.vOne core 6 0 ops)

/-- ICMP (R142). -/
def execIcmp (core : Nat) (ops : VOps) (s : State) : Host.Outcome State Fault Refusal :=
  s.go (coreNo core && vOpsOk ops) (fun b => b.vOne core 6 1 ops)

/-- PAND (R142). -/
def execPand (core : Nat) (ops : VOps) (s : State) : Host.Outcome State Fault Refusal :=
  s.go (coreNo core && vOpsOk ops) (fun b => b.vOne core 6 2 ops)

/-- POR (R142). -/
def execPor (core : Nat) (ops : VOps) (s : State) : Host.Outcome State Fault Refusal :=
  s.go (coreNo core && vOpsOk ops) (fun b => b.vOne core 6 3 ops)

/-- PXOR (R142). -/
def execPxor (core : Nat) (ops : VOps) (s : State) : Host.Outcome State Fault Refusal :=
  s.go (coreNo core && vOpsOk ops) (fun b => b.vOne core 6 4 ops)

/-- PNOT (R142). -/
def execPnot (core : Nat) (ops : VOps) (s : State) : Host.Outcome State Fault Refusal :=
  s.go (coreNo core && vOpsOk ops) (fun b => b.vOne core 6 5 ops)

/-- PTRI (R142). -/
def execPtri (core : Nat) (ops : VOps) (s : State) : Host.Outcome State Fault Refusal :=
  s.go (coreNo core && vOpsOk ops) (fun b => b.vOne core 6 6 ops)

/-- DROP (R148). -/
def execDrop (core : Nat) (ops : VOps) (s : State) : Host.Outcome State Fault Refusal :=
  s.go (coreNo core && vOpsOk ops) (fun b => b.vOne core 6 7 ops)

/-- VLD (R147). -/
def execVld (core : Nat) (ops : VOps) (s : State) : Host.Outcome State Fault Refusal :=
  s.go (coreNo core && vOpsOk ops) (fun b => b.vOne core 7 0 ops)

/-- VST (R149). -/
def execVst (core : Nat) (ops : VOps) (s : State) : Host.Outcome State Fault Refusal :=
  s.go (coreNo core && vOpsOk ops) (fun b => b.vOne core 7 1 ops)

/-- VEC_BANK_TIMEOUT (R136). -/
def execVecBankTimeout (core : Nat) (s : State) : Host.Outcome State Fault Refusal :=
  s.go (coreNo core) (fun b => b.vBankTimeout core)

end Sys2Proof.Machine
end

