-- ==== Sys2Proof/Machine/Dispatch.lean ====
section
/-!
DEFINITION. One arm for each command.
-/
namespace Sys2Proof.Machine

/-- The effect of a command on everything but the queue. -/
def exec (i : Instr) (s : State) : Host.Outcome State Fault Refusal :=
  match i with
  | .identify f m => Sys2Proof.Machine.execIdentify f m s
  | .queryStateSummary f m => Sys2Proof.Machine.execQueryStateSummary f m s
  | .queryStatePartition f m => Sys2Proof.Machine.execQueryStatePartition f m s
  | .queryStateOperation f m => Sys2Proof.Machine.execQueryStateOperation f m s
  | .queryStateGenerations f m => Sys2Proof.Machine.execQueryStateGenerations f m s
  | .queryStateRegisters f m => Sys2Proof.Machine.execQueryStateRegisters f m s
  | .queryStateUnits f m => Sys2Proof.Machine.execQueryStateUnits f m s
  | .loadLast f m sections => Sys2Proof.Machine.execLoadLast f m sections s
  | .unloadLast f m => Sys2Proof.Machine.execUnloadLast f m s
  | .runSteps f m => Sys2Proof.Machine.execRunSteps f m s
  | .suspendBoundary f m => Sys2Proof.Machine.execSuspendBoundary f m s
  | .suspendNow f m => Sys2Proof.Machine.execSuspendNow f m s
  | .resume f m => Sys2Proof.Machine.execResume f m s
  | .cancel f m => Sys2Proof.Machine.execCancel f m s
  | .replayStep f m partner bad => Sys2Proof.Machine.execReplayStep f m partner bad s
  | .reshard f m sections moves => Sys2Proof.Machine.execReshard f m sections moves s
  | .reshardDrained p => Sys2Proof.Machine.execReshardDrained p s
  | .secureStateNow f m => Sys2Proof.Machine.execSecureStateNow f m s
  | .secureStateAtStep f m => Sys2Proof.Machine.execSecureStateAtStep f m s
  | .secureStateExport f m => Sys2Proof.Machine.execSecureStateExport f m s
  | .secureStatePolicy f m => Sys2Proof.Machine.execSecureStatePolicy f m s
  | .secureStatePolicyOff f m => Sys2Proof.Machine.execSecureStatePolicyOff f m s
  | .restoreState f m partner bad => Sys2Proof.Machine.execRestoreState f m partner bad s
  | .awlTest f m => Sys2Proof.Machine.execAwlTest f m s
  | .scrub f m => Sys2Proof.Machine.execScrub f m s
  | .setPowerModuleCap f m => Sys2Proof.Machine.execSetPowerModuleCap f m s
  | .setPowerPartitionCap f m => Sys2Proof.Machine.execSetPowerPartitionCap f m s
  | .setPowerOpPoint f m => Sys2Proof.Machine.execSetPowerOpPoint f m s
  | .setPowerState f m => Sys2Proof.Machine.execSetPowerState f m s
  | .setPowerCapperCfg f m => Sys2Proof.Machine.execSetPowerCapperCfg f m s
  | .setPartitionDefine f m => Sys2Proof.Machine.execSetPartitionDefine f m s
  | .setPartitionDelete f m => Sys2Proof.Machine.execSetPartitionDelete f m s
  | .readRecorder f m bad0 bad1 => Sys2Proof.Machine.execReadRecorder f m bad0 bad1 s
  | .clearRecorder f m => Sys2Proof.Machine.execClearRecorder f m s
  | .unlockChallenge f m => Sys2Proof.Machine.execUnlockChallenge f m s
  | .unlockResponse f m => Sys2Proof.Machine.execUnlockResponse f m s
  | .unlockResponseRelock f m => Sys2Proof.Machine.execUnlockResponseRelock f m s
  | .fwUpdate f m => Sys2Proof.Machine.execFwUpdate f m s
  | .attest f m => Sys2Proof.Machine.execAttest f m s
  | .hostRequest f m msg => Sys2Proof.Machine.execHostRequest f m msg s
  | .responseRead f m => Sys2Proof.Machine.execResponseRead f m s
  | .mbxRequestTimeout f m => Sys2Proof.Machine.execMbxRequestTimeout f m s
  | .mbxLockRead f m owner => Sys2Proof.Machine.execMbxLockRead f m owner s
  | .mbxLockRelease f m v owner => Sys2Proof.Machine.execMbxLockRelease f m v owner s
  | .mbxLockBreak mask => Sys2Proof.Machine.execMbxLockBreak mask s
  | .opCompletionCommit h => Sys2Proof.Machine.execOpCompletionCommit h s
  | .dblFeedProdWrite f p v => Sys2Proof.Machine.execDblFeedProdWrite f p v s
  | .dblResetCold v => Sys2Proof.Machine.execDblResetCold v s
  | .dblResetPackage v => Sys2Proof.Machine.execDblResetPackage v s
  | .dblResetLapse => Sys2Proof.Machine.execDblResetLapse s
  | .bar2Write x xs => Sys2Proof.Machine.execBar2Write x xs s
  | .bar2Read x n => Sys2Proof.Machine.execBar2Read x n s
  | .debugWindowAccess a w => Sys2Proof.Machine.execDebugWindowAccess a w s
  | .secFailedClear v => Sys2Proof.Machine.execSecFailedClear v s
  | .eyePauseWrite e mask => Sys2Proof.Machine.execEyePauseWrite e mask s
  | .eyeHoldWrite e => Sys2Proof.Machine.execEyeHoldWrite e s
  | .awlCmdFence u => Sys2Proof.Machine.execAwlCmdFence u s
  | .awlCmdReturn u => Sys2Proof.Machine.execAwlCmdReturn u s
  | .awlCmdTest u => Sys2Proof.Machine.execAwlCmdTest u s
  | .awlCmdMakeSpare u => Sys2Proof.Machine.execAwlCmdMakeSpare u s
  | .awlCmdFail u => Sys2Proof.Machine.execAwlCmdFail u s
  | .relayStart => Sys2Proof.Machine.execRelayStart s
  | .relayComplete errs wbad => Sys2Proof.Machine.execRelayComplete errs wbad s
  | .wltFenceWrite o v => Sys2Proof.Machine.execWltFenceWrite o v s
  | .wltUnfenceWrite o v => Sys2Proof.Machine.execWltUnfenceWrite o v s
  | .evgComplete d t src served => Sys2Proof.Machine.execEvgComplete d t src served s
  | .evgQConsWrite d t v => Sys2Proof.Machine.execEvgQConsWrite d t v s
  | .evgQEnable d t v => Sys2Proof.Machine.execEvgQEnable d t v s
  | .evgMaskWrite d t g v => Sys2Proof.Machine.execEvgMaskWrite d t g v s
  | .rclRead reg lo w upd => Sys2Proof.Machine.execRclRead reg lo w upd s
  | .mirrorEnergyRead => Sys2Proof.Machine.execMirrorEnergyRead s
  | .registerWrite reg v => Sys2Proof.Machine.execRegisterWrite reg v s
  | .mirrorRefresh avgMw avgK => Sys2Proof.Machine.execMirrorRefresh avgMw avgK s
  | .arrayNop cl q => Sys2Proof.Machine.execArrayNop cl q s
  | .matmul cl q ph rngStall => Sys2Proof.Machine.execMatmul cl q ph rngStall s
  | .accClear cl q ph => Sys2Proof.Machine.execAccClear cl q ph s
  | .vectorNop cl q => Sys2Proof.Machine.execVectorNop cl q s
  | .vectorRun cl q k stalls => Sys2Proof.Machine.execVectorRun cl q k stalls s
  | .vecInstrNop core ops => Sys2Proof.Machine.execVecInstrNop core ops s
  | .endProg core ops => Sys2Proof.Machine.execEndProg core ops s
  | .setvl core ops => Sys2Proof.Machine.execSetvl core ops s
  | .setrc core ops => Sys2Proof.Machine.execSetrc core ops s
  | .accrel core ops => Sys2Proof.Machine.execAccrel core ops s
  | .fadd core ops => Sys2Proof.Machine.execFadd core ops s
  | .fsub core ops => Sys2Proof.Machine.execFsub core ops s
  | .fmul core ops => Sys2Proof.Machine.execFmul core ops s
  | .ffma core ops => Sys2Proof.Machine.execFfma core ops s
  | .fmax core ops => Sys2Proof.Machine.execFmax core ops s
  | .fmin core ops => Sys2Proof.Machine.execFmin core ops s
  | .fabs core ops => Sys2Proof.Machine.execFabs core ops s
  | .fneg core ops => Sys2Proof.Machine.execFneg core ops s
  | .fmov core ops => Sys2Proof.Machine.execFmov core ops s
  | .cvtfi core ops => Sys2Proof.Machine.execCvtfi core ops s
  | .cvtif core ops => Sys2Proof.Machine.execCvtif core ops s
  | .iadd core ops => Sys2Proof.Machine.execIadd core ops s
  | .isub core ops => Sys2Proof.Machine.execIsub core ops s
  | .imul core ops => Sys2Proof.Machine.execImul core ops s
  | .imax core ops => Sys2Proof.Machine.execImax core ops s
  | .imin core ops => Sys2Proof.Machine.execImin core ops s
  | .iand core ops => Sys2Proof.Machine.execIand core ops s
  | .ior core ops => Sys2Proof.Machine.execIor core ops s
  | .ixor core ops => Sys2Proof.Machine.execIxor core ops s
  | .ishl core ops => Sys2Proof.Machine.execIshl core ops s
  | .ishr core ops => Sys2Proof.Machine.execIshr core ops s
  | .imov core ops => Sys2Proof.Machine.execImov core ops s
  | .rcp core ops => Sys2Proof.Machine.execRcp core ops s
  | .rsqrt core ops => Sys2Proof.Machine.execRsqrt core ops s
  | .sqrt core ops => Sys2Proof.Machine.execSqrt core ops s
  | .exp2 core ops => Sys2Proof.Machine.execExp2 core ops s
  | .log2 core ops => Sys2Proof.Machine.execLog2 core ops s
  | .tanh core ops => Sys2Proof.Machine.execTanh core ops s
  | .erf core ops => Sys2Proof.Machine.execErf core ops s
  | .redSum core ops => Sys2Proof.Machine.execRedSum core ops s
  | .sumsq core ops => Sys2Proof.Machine.execSumsq core ops s
  | .prod core ops => Sys2Proof.Machine.execProd core ops s
  | .redMax core ops => Sys2Proof.Machine.execRedMax core ops s
  | .redMin core ops => Sys2Proof.Machine.execRedMin core ops s
  | .argmax core ops => Sys2Proof.Machine.execArgmax core ops s
  | .argmin core ops => Sys2Proof.Machine.execArgmin core ops s
  | .isum core ops => Sys2Proof.Machine.execIsum core ops s
  | .redImax core ops => Sys2Proof.Machine.execRedImax core ops s
  | .redImin core ops => Sys2Proof.Machine.execRedImin core ops s
  | .lperm core ops => Sys2Proof.Machine.execLperm core ops s
  | .rperm core ops => Sys2Proof.Machine.execRperm core ops s
  | .lbcast core ops => Sys2Proof.Machine.execLbcast core ops s
  | .rbcast core ops => Sys2Proof.Machine.execRbcast core ops s
  | .lrot core ops => Sys2Proof.Machine.execLrot core ops s
  | .fcmp core ops => Sys2Proof.Machine.execFcmp core ops s
  | .icmp core ops => Sys2Proof.Machine.execIcmp core ops s
  | .pand core ops => Sys2Proof.Machine.execPand core ops s
  | .por core ops => Sys2Proof.Machine.execPor core ops s
  | .pxor core ops => Sys2Proof.Machine.execPxor core ops s
  | .pnot core ops => Sys2Proof.Machine.execPnot core ops s
  | .ptri core ops => Sys2Proof.Machine.execPtri core ops s
  | .drop core ops => Sys2Proof.Machine.execDrop core ops s
  | .vld core ops => Sys2Proof.Machine.execVld core ops s
  | .vst core ops => Sys2Proof.Machine.execVst core ops s
  | .vecBankTimeout core => Sys2Proof.Machine.execVecBankTimeout core s
  | .engineNop q ph => Sys2Proof.Machine.execEngineNop q ph s
  | .finScan cl q ph => Sys2Proof.Machine.execFinScan cl q ph s
  | .finApply cl q ph rngStall => Sys2Proof.Machine.execFinApply cl q ph rngStall s
  | .finApplyReissue cl q on fetched ph => Sys2Proof.Machine.execFinApplyReissue cl q on fetched ph s
  | .save cl q ph => Sys2Proof.Machine.execSave cl q ph s
  | .load cl q ph => Sys2Proof.Machine.execLoad cl q ph s
  | .free cl q ph => Sys2Proof.Machine.execFree cl q ph s
  | .gather cl q ph => Sys2Proof.Machine.execGather cl q ph s
  | .scatter cl q ph => Sys2Proof.Machine.execScatter cl q ph s
  | .sort cl q ph => Sys2Proof.Machine.execSort cl q ph s
  | .param cl q ph => Sys2Proof.Machine.execParam cl q ph s
  | .cast cl q ph rngStall => Sys2Proof.Machine.execCast cl q ph rngStall s
  | .amax cl q ph => Sys2Proof.Machine.execAmax cl q ph s
  | .reshardCopy cl q ph => Sys2Proof.Machine.execReshardCopy cl q ph s
  | .wcopy cl q ph => Sys2Proof.Machine.execWcopy cl q ph s
  | .dmaCopy cl q ph => Sys2Proof.Machine.execDmaCopy cl q ph s
  | .dmaIn cl q ph => Sys2Proof.Machine.execDmaIn cl q ph s
  | .dmaOut cl q ph => Sys2Proof.Machine.execDmaOut cl q ph s
  | .dmaZero cl q ph => Sys2Proof.Machine.execDmaZero cl q ph s
  | .contextDiscard cl x => Sys2Proof.Machine.execContextDiscard cl x s
  | .queueEntryIssue q rd => Sys2Proof.Machine.execQueueEntryIssue q rd s
  | .waitEntry cl q => Sys2Proof.Machine.execWaitEntry cl q s
  | .engineCompletion cl n cf => Sys2Proof.Machine.execEngineCompletion cl n cf s
  | .feedFetch p again waited => Sys2Proof.Machine.execFeedFetch p again waited s
  | .attemptStart x => Sys2Proof.Machine.execAttemptStart x s
  | .closingWordSend p => Sys2Proof.Machine.execClosingWordSend p s
  | .closeWord e msg => Sys2Proof.Machine.execCloseWord e msg s
  | .closeResult p x => Sys2Proof.Machine.execCloseResult p x s
  | .nameList e msg => Sys2Proof.Machine.execNameList e msg s
  | .nameResult p x => Sys2Proof.Machine.execNameResult p x s
  | .closeTimeout p => Sys2Proof.Machine.execCloseTimeout p s
  | .dropNotice e msg => Sys2Proof.Machine.execDropNotice e msg s
  | .dropAck e msg => Sys2Proof.Machine.execDropAck e msg s
  | .attemptAbort e msg => Sys2Proof.Machine.execAttemptAbort e msg s
  | .stepBoundary p ms => Sys2Proof.Machine.execStepBoundary p ms s
  | .suspensionPoint h => Sys2Proof.Machine.execSuspensionPoint h s
  | .collectiveArmReport p q t => Sys2Proof.Machine.execCollectiveArmReport p q t s
  | .allReduce p q lf => Sys2Proof.Machine.execAllReduce p q lf s
  | .reduceScatter p q lf => Sys2Proof.Machine.execReduceScatter p q lf s
  | .allGather p q lf => Sys2Proof.Machine.execAllGather p q lf s
  | .broadcast p q lf => Sys2Proof.Machine.execBroadcast p q lf s
  | .send p q lf => Sys2Proof.Machine.execSend p q lf s
  | .recv p q lf => Sys2Proof.Machine.execRecv p q lf s
  | .a2aDispatch p q lf => Sys2Proof.Machine.execA2aDispatch p q lf s
  | .a2aCombine p q lf => Sys2Proof.Machine.execA2aCombine p q lf s
  | .put p q lf => Sys2Proof.Machine.execPut p q lf s
  | .collectiveComplete p q => Sys2Proof.Machine.execCollectiveComplete p q s
  | .contrib e msg lf => Sys2Proof.Machine.execContrib e msg lf s
  | .partialSum e msg lf => Sys2Proof.Machine.execPartialSum e msg lf s
  | .result e msg lf => Sys2Proof.Machine.execResult e msg lf s
  | .a2aRows e msg lf => Sys2Proof.Machine.execA2aRows e msg lf s
  | .a2aCount e msg => Sys2Proof.Machine.execA2aCount e msg s
  | .cack e msg => Sys2Proof.Machine.execCack e msg s
  | .partner e msg => Sys2Proof.Machine.execPartner e msg s
  | .heritageStepStatus e overflow error abort samples step again => Sys2Proof.Machine.execHeritageStepStatus e overflow error abort samples step again s
  | .collectiveOrderTimeout p q => Sys2Proof.Machine.execCollectiveOrderTimeout p q s
  | .lacTimeout p q => Sys2Proof.Machine.execLacTimeout p q s
  | .linkDown e => Sys2Proof.Machine.execLinkDown e s
  | .dataFlit e raw => Sys2Proof.Machine.execDataFlit e raw s
  | .idleFlit e ack credit fix => Sys2Proof.Machine.execIdleFlit e ack credit fix s
  | .nak x seq => Sys2Proof.Machine.execNak x seq s
  | .replayTimeout e => Sys2Proof.Machine.execReplayTimeout e s
  | .heartbeat x seq => Sys2Proof.Machine.execHeartbeat x seq s
  | .heartbeatSend e => Sys2Proof.Machine.execHeartbeatSend e s
  | .heartbeatSilence e => Sys2Proof.Machine.execHeartbeatSilence e s
  | .flitLockLoss e => Sys2Proof.Machine.execFlitLockLoss e s
  | .pause x mask => Sys2Proof.Machine.execPause x mask s
  | .unpause x => Sys2Proof.Machine.execUnpause x s
  | .coastDone x => Sys2Proof.Machine.execCoastDone x s
  | .pauseTmo e => Sys2Proof.Machine.execPauseTmo e s
  | .hold x => Sys2Proof.Machine.execHold x s
  | .degrade x lane tx => Sys2Proof.Machine.execDegrade x lane tx s
  | .laneFailure e lane => Sys2Proof.Machine.execLaneFailure e lane s
  | .identity x id => Sys2Proof.Machine.execIdentity x id s
  | .creditInit x cr => Sys2Proof.Machine.execCreditInit x cr s
  | .trainingStageTimeout e => Sys2Proof.Machine.execTrainingStageTimeout e s
  | .detectRetry e found => Sys2Proof.Machine.execDetectRetry e found s
  | .eyeletTrainingComplete e tx rx => Sys2Proof.Machine.execEyeletTrainingComplete e tx rx s
  | .cableInserted n => Sys2Proof.Machine.execCableInserted n s
  | .weltHeartbeatSend d retries => Sys2Proof.Machine.execWeltHeartbeatSend d retries s
  | .dieLossDetect o d => Sys2Proof.Machine.execDieLossDetect o d s
  | .dieLossBroadcast o d => Sys2Proof.Machine.execDieLossBroadcast o d s
  | .routeInstall => Sys2Proof.Machine.execRouteInstall s
  | .weltLaneRepair d n tx => Sys2Proof.Machine.execWeltLaneRepair d n tx s
  | .cobblerHeartbeat d => Sys2Proof.Machine.execCobblerHeartbeat d s
  | .cobblerSilent o d => Sys2Proof.Machine.execCobblerSilent o d s
  | .masterClaim d => Sys2Proof.Machine.execMasterClaim d s
  | .dieRejoin d w failed => Sys2Proof.Machine.execDieRejoin d w failed s
  | .dieAdmission d => Sys2Proof.Machine.execDieAdmission d s
  | .rejoinDeadline d => Sys2Proof.Machine.execRejoinDeadline d s
  | .seatWrite edge a xs => Sys2Proof.Machine.execSeatWrite edge a xs s
  | .seatRead edge a n => Sys2Proof.Machine.execSeatRead edge a n s
  | .seatDoorbell edge n => Sys2Proof.Machine.execSeatDoorbell edge n s
  | .seatDown => Sys2Proof.Machine.execSeatDown s
  | .hbmRead fw blk err demoted => Sys2Proof.Machine.execHbmRead fw blk err demoted s
  | .hbmWrite at_ pay a err => Sys2Proof.Machine.execHbmWrite at_ pay a err s
  | .hbmRowRepair pc errs => Sys2Proof.Machine.execHbmRowRepair pc errs s
  | .hbmScrubRead op x err => Sys2Proof.Machine.execHbmScrubRead op x err s
  | .rowTrackerExpiry st row => Sys2Proof.Machine.execRowTrackerExpiry st row s
  | .insoleScrub cl ce ue => Sys2Proof.Machine.execInsoleScrub cl ce ue s
  | .witnessCompare cl w => Sys2Proof.Machine.execWitnessCompare cl w s
  | .handover cl n cf => Sys2Proof.Machine.execHandover cl n cf s
  | .awlTestStart u cf => Sys2Proof.Machine.execAwlTestStart u cf s
  | .awlTestResult u pass stage sig => Sys2Proof.Machine.execAwlTestResult u pass stage sig s
  | .faultWindowExpiry u => Sys2Proof.Machine.execFaultWindowExpiry u s
  | .drainTimeout u w1 w2 => Sys2Proof.Machine.execDrainTimeout u w1 w2 s
  | .twinRequest e msg => Sys2Proof.Machine.execTwinRequest e msg s
  | .twinReply e msg => Sys2Proof.Machine.execTwinReply e msg s
  | .partnerUnusableNotice e msg => Sys2Proof.Machine.execPartnerUnusableNotice e msg s
  | .partnerLayerCommit p => Sys2Proof.Machine.execPartnerLayerCommit p s
  | .flashLayerCommit p => Sys2Proof.Machine.execFlashLayerCommit p s
  | .secureReport e msg => Sys2Proof.Machine.execSecureReport e msg s
  | .inputApplied mv ok => Sys2Proof.Machine.execInputApplied mv ok s
  | .bootRom fails => Sys2Proof.Machine.execBootRom fails s
  | .discovery answered seat => Sys2Proof.Machine.execDiscovery answered seat s
  | .weltTraining repairs => Sys2Proof.Machine.execWeltTraining repairs s
  | .hbmTraining up => Sys2Proof.Machine.execHbmTraining up s
  | .startupAwlTests bad => Sys2Proof.Machine.execStartupAwlTests bad s
  | .packageReady ms => Sys2Proof.Machine.execPackageReady ms s
  | .bootWatchdogExpiry => Sys2Proof.Machine.execBootWatchdogExpiry s
  | .coldReset => Sys2Proof.Machine.execColdReset s
  | .packageReset => Sys2Proof.Machine.execPackageReset s
  | .dieReset d => Sys2Proof.Machine.execDieReset d s
  | .cobblerReset d => Sys2Proof.Machine.execCobblerReset d s
  | .clusterReset cl => Sys2Proof.Machine.execClusterReset cl s
  | .functionLevelReset f => Sys2Proof.Machine.execFunctionLevelReset f s
  | .perstNAssert => Sys2Proof.Machine.execPerstNAssert s
  | .perstNDeassert => Sys2Proof.Machine.execPerstNDeassert s
  | .hostLinkTraining rate width best => Sys2Proof.Machine.execHostLinkTraining rate width best s
  | .inputSample mv ma => Sys2Proof.Machine.execInputSample mv ma s
  | .inputFault => Sys2Proof.Machine.execInputFault s
  | .capperTick meas issue parts => Sys2Proof.Machine.execCapperTick meas issue parts s
  | .trimTick avg => Sys2Proof.Machine.execTrimTick avg s
  | .attributionScale meter model => Sys2Proof.Machine.execAttributionScale meter model s
  | .bubbleWindow core taperNs cyc => Sys2Proof.Machine.execBubbleWindow core taperNs cyc s
  | .droopOnset cl => Sys2Proof.Machine.execDroopOnset cl s
  | .droopRecovery cl => Sys2Proof.Machine.execDroopRecovery cl s
  | .droopClear cl => Sys2Proof.Machine.execDroopClear cl s
  | .freqStep d => Sys2Proof.Machine.execFreqStep d s
  | .thermalSample xs => Sys2Proof.Machine.execThermalSample xs s
  | .thermalLimitTick => Sys2Proof.Machine.execThermalLimitTick s
  | .coolantStop => Sys2Proof.Machine.execCoolantStop s
  | .coolantRestored => Sys2Proof.Machine.execCoolantRestored s
  | .phaseShutoff d rail => Sys2Proof.Machine.execPhaseShutoff d rail s
  | .clusterGate cl => Sys2Proof.Machine.execClusterGate cl s
  | .clusterWake cl => Sys2Proof.Machine.execClusterWake cl s
  | .dozeWakeComplete => Sys2Proof.Machine.execDozeWakeComplete s
  | .eventRaise d src kind => Sys2Proof.Machine.execEventRaise d src kind s
  | .holdoffExpiry d g => Sys2Proof.Machine.execHoldoffExpiry d g s
  | .coalesceTimer f => Sys2Proof.Machine.execCoalesceTimer f s
  | .recorderEntry x bad0 bad1 => Sys2Proof.Machine.execRecorderEntry x bad0 bad1 s
  | .recorderForward d => Sys2Proof.Machine.execRecorderForward d s
  | .unlockExpiry => Sys2Proof.Machine.execUnlockExpiry s
  | .challengeExpiry => Sys2Proof.Machine.execChallengeExpiry s
  | .cobblerMessage dst src msg => Sys2Proof.Machine.execCobblerMessage dst src msg s
  | .clusterMailbox cl msg => Sys2Proof.Machine.execClusterMailbox cl msg s
  | .dieDoorbell d bit => Sys2Proof.Machine.execDieDoorbell d bit s
  | .i3cRead addr off n => Sys2Proof.Machine.execI3cRead addr off n s
  | .i3cEnergyRead addr => Sys2Proof.Machine.execI3cEnergyRead addr s
  | .i3cRefresh avgMw => Sys2Proof.Machine.execI3cRefresh avgMw s
  | .rstdaa => Sys2Proof.Machine.execRstdaa s
  | .entdaa a => Sys2Proof.Machine.execEntdaa a s
  | .setdasa st a => Sys2Proof.Machine.execSetdasa st a s
  | .getpid addr => Sys2Proof.Machine.execGetpid addr s
  | .getbcr addr => Sys2Proof.Machine.execGetbcr addr s
  | .getdcr addr => Sys2Proof.Machine.execGetdcr addr s
  | .getstatus addr => Sys2Proof.Machine.execGetstatus addr s
  | .flitTime e => Sys2Proof.Machine.execFlitTime e s
  | .rails failed => Sys2Proof.Machine.execRails failed s
  | .cableRemoved n => Sys2Proof.Machine.execCableRemoved n s
  | .securingReadComplete p hold => Sys2Proof.Machine.execSecuringReadComplete p hold s

end Sys2Proof.Machine
end

