-- ==== Sys2Proof/Safety.lean ====
section
/-!
DEFINITION. The terms that claims use: what a command does, requests that stand in a mailbox, cores ready for an instruction, and the invariant that every step keeps.
-/
namespace Sys2Proof.Machine

/-- The command answers a next state whose module is `b`; the queue is left alone. -/
def Does (c : Instr) (s : State) (b : Blk) : Prop := exec c s = .next { s with blk := b }

/-- The command answers a next state whose module satisfies `P`; the queue is left alone. -/
def Yields (c : Instr) (s : State) (P : Blk → Prop) : Prop := ∃ b, exec c s = .next { s with blk := b } ∧ P b

/-- A request of a command's code that the master takes (R463, R466, R517, R548): it stands in a mailbox that the function has, start-up has ended, at most 15
messages wait behind the mailbox's response, and in recovery mode the mailbox is host mailbox 0. -/
def Stands (b : Blk) (f m code : Nat) : Prop :=
  f < 9 ∧ m < fnMailboxes f ∧ b.reqFull f m = true ∧ 5 ≤ b.stage ∧ (b.queued f m).length < 16 ∧ (b.stage = 8 → f = 0 ∧ m = 0) ∧ (b.reqOf f m).code = code

/-- A request that none of the checks of R474 turns away: the command is known, its issuer and the module's state allow it, and neither its own state condition, its
payload, its handle nor a want of room does. -/
def Passes (b : Blk) (r : Req) (stateBad payBad handleBad busy : Bool) : Prop :=
  (∃ w, cmdRow r.code = some w ∧ b.issuerOk r w = true ∧ b.moduleOk r w = true) ∧ stateBad = false ∧ payBad = false ∧ handleBad = false ∧ busy = false

/-- A core that issues an instruction word now (R137, R140 to R142): its engine is not fenced, the word passes its checks, and its accumulator sources are held. -/
def CoreReady (b : Blk) (core : Nat) (w : VWord) : Prop :=
  core < 180 ∧ vOpsOk w.f = true ∧ b.rf ⟨.SEQ_VEC_STATE, core, 0⟩ Fld.SEQ_VEC_STATE_FENCED = 0 ∧ w.ok (b.vctx core).split = true ∧ b.vWaits (b.vctx core) w = false

/-- Everything of the module but the vector engine's own registers, tiles, predicates and runs stands as before; queue results may be noted. -/
def VecOnly (b c : Blk) : Prop :=
  c.cores = b.cores ∧ c.ins = b.ins ∧ c.hbm = b.hbm ∧ c.parts = b.parts ∧ c.units = b.units ∧ c.hostMem = b.hostMem ∧ c.mbx = b.mbx ∧
  (∀ g : RegRef, regOk g = true → g.name ≠ .SEQ_VEC_STATE → g.name ≠ .SEQ_VEC_FLAGS → g.name ≠ .SEQ_VEC_FAULT → g.name ≠ .SEQ_VEC_INSTR_CNT → g.name ≠ .SEQ_VEC_DESC_CNT →
    g.name ≠ .SEQ_RNG_RECOMP → c.rd g = b.rd g)

/-- The tiles of two modules differ at most in one tile of one core. -/
def TilesBut (b c : Blk) (core t : Nat) : Prop :=
  ∀ core' t' r l, core' < 180 → t' < 32 → r < 16 → l < 128 → (core' ≠ core ∨ t' ≠ t) → c.vec.tile core' t' r l = b.vec.tile core' t' r l

/-- The predicates of two modules agree. -/
def PredsSame (b c : Blk) : Prop := ∀ core p r l, c.vec.pred core p r l = b.vec.pred core p r l

/-- What fuses, straps and manufacture fix: the part number, the identity words, the straps of IOD0, the hashes of the vendor's keys, those revoked, and the device
secret (R13, R28, R43, R511, R526). -/
def Blk.fuses (b : Blk) : Sku × List (Nat × BitVec 128) × (Nat × Nat) × List (BitVec 256) × List Bool × BitVec 256 :=
  (b.pkg.sku, b.pkg.ident, (b.pkg.hostStrap, b.pkg.flashStrap), b.sec.vendorKeys, b.sec.revoked, b.sec.uds)

/-- Every position that the part number populates holds an identity word of its own kind and position (R28, R30). -/
def Blk.genuine (b : Blk) : Prop :=
  ∀ d, d < 10 → b.pkg.sku.populated d = true → idKind (b.identWord d) = kindOf d ∧ bits (b.identWord d) 4 4 = d

end Sys2Proof.Machine
end

