-- ==== Sys2Proof/Certificates/Slice0/Obligations.lean ====
section
/-!
DEFINITION. The statements for the provers. Hypotheses speak of the state and the operands alone; a conclusion `Does c s b` is that the command answers the next
state whose module is exactly `b`, which states its frame too.
-/
open Sys2Proof Sys2Proof.Machine

/-- R473, R476: the short commands that ask. Each, standing in its mailbox with a payload of its form, is answered OK with what it asks for, and nothing else of
the module changes but the mailbox. R7, R476, R541 class 4 and 5 of QUERY_STATE: the words of a die's register block, and the state words of every unit of the dies that are up, reach the host
buffer; the registers read are those of the die named, RCL fields read are cleared, and the units read are compared with the cobbler's table (R402). Where it rests on a choice of the model: log entries 12, 73 and 96. -/
def Obligations.QueriesAnswer : Prop :=
  (∀ (s : State) (f m : Nat),
    let b := s.blk
    let r := b.reqOf f m
    (Stands b f m 0x01 → Passes b r false (!r.reservedOk []) false false →
      Does (.identify f m) s (b.reply r .ok 0 (leBytes 8 (b.rn ⟨.IDENT_PART, 0, 0⟩) ++ leBytes 4 (b.rn ⟨.IDENT_PRESENT, 0, 0⟩) ++
        leBytes 4 (b.rn ⟨.IDENT_MASTER, 0, 0⟩) ++ leBytes 4 b.sec.fwVersion ++ leBytes 2 3 ++ leBytes 2 (fnId f) ++ leBytes 1 (b.fnPart f) ++
        leBytes 1 (fnMailboxes f) ++ leBytes 2 (64 - b.opsOpen)))) ∧
    (Stands b f m 0x02 → r.u 0 1 = 0 → Passes b r false (!r.reservedOk [(0, 1)]) false false →
      Does (.queryStateSummary f m) s ((b.reply r .ok 0 ((Config.summary b.fresh).take 240)).tick)) ∧
    (∀ x, Stands b f m 0x02 → r.u 0 1 = 1 → b.part (r.u 1 1) = some x →
      Passes b r (decide (r.u 1 1 ≤ 7) && (b.part (r.u 1 1)).isNone) (!r.reservedOk [(0, 2)] || decide (7 < r.u 1 1)) false false →
      Does (.queryStatePartition f m) s (b.reply r .ok 0 (b.partPayload (r.u 1 1) x))) ∧
    (∀ o, Stands b f m 0x02 → r.u 0 1 = 2 → b.handleOp r = some o → Passes b r false (!r.reservedOk [(0, 1)]) false false →
      Does (.queryStateOperation f m) s
        (b.reply r .ok o.handle (leBytes 2 o.st.code ++ leBytes 2 o.kind.command ++ leBytes 2 o.status ++ leBytes 2 0 ++ leBytes 4 o.progress))) ∧
    (∀ c, Stands b f m 0x02 → r.u 0 1 = 3 → b.hostWrite (r.u 16 8) (b.genList (r.u 1 1)) = some c →
      Passes b r (decide (r.u 1 1 ≤ 7) && (b.part (r.u 1 1)).isNone) (!r.reservedOk [(0, 2), (16, 8)] || decide (7 < r.u 1 1)) false false →
      Does (.queryStateGenerations f m) s (c.reply r .ok 0 (leBytes 4 (b.genList (r.u 1 1)).length)))) ∧
  (∀ (s : State) (f m : Nat) (q : RegBlk) (c : Blk),
    let b := s.blk
    let r := b.reqOf f m
    let y := b.blockRead (r.u 2 1) q (r.u 4 1) (r.u 12 4 / 4) (r.u 8 4)
    let us := (((List.range 10).filter b.up).map unitsOf).flatten
    let xs := (us.map (fun u => leBytes 4 u ++ leBytes 4 (b.regView (unitReg u)).toNat)).flatten
    (Stands b f m 0x02 → r.u 0 1 = 4 → blkOrder[r.u 3 1]? = some q → b.up (r.u 2 1) = true → y.2.hostWrite (r.u 16 8) y.1 = some c →
      Passes b r false (!r.reservedOk [(0, 1), (2, 3), (8, 16)] || decide (9 < r.u 2 1) || decide (18 < r.u 3 1) || decide (8 < r.u 4 1) ||
        decide (2 ^ 20 < r.u 12 4) || decide (r.u 8 4 % 4 ≠ 0) || decide (r.u 12 4 % 4 ≠ 0)) false false →
      Does (.queryStateRegisters f m) s (c.reply r .ok 0 (leBytes 4 y.1.length))) ∧
    (Stands b f m 0x02 → r.u 0 1 = 5 → b.hostWrite (r.u 16 8) xs = some c → Passes b r false (!r.reservedOk [(0, 1), (16, 8)]) false false →
      Does (.queryStateUnits f m) s
        (((c.reply r .ok 0 (leBytes 4 xs.length)).parts.foldl (fun d (x : Nat × Part) => d.crossCheck x.1) (c.reply r .ok 0 (leBytes 4 xs.length))).flowsFollow b)))

/-- R436, R438, R441 to R443, R476: SET_POWER. A request whose WHICH is the command's bit alone, accepted, sets what the bit names and is answered OK: the module cap
clamped between a quarter and all of the part number's highest input power, a partition's cap, the host's operating point, IDLE or DOZE, and the capper's gain
(0 stands for 16), method and trim. Where it rests on a choice of the model: log entry 88. -/
def Obligations.SetPowerSets : Prop :=
  ∀ (s : State) (f m : Nat),
    let b := s.blk
    let r := b.reqOf f m
    let pay := !r.reservedOk [(0, 10)]
    Stands b f m 0x40 →
    (r.u 0 1 = 1 → Passes b r false pay false false →
      Does (.setPowerModuleCap f m) s
        (((b.wr (pwrReg .PWR_CAP) (regClamp b.pkg.sku.maxInput .PWR_CAP (BitVec.ofNat 256 (r.u 2 2 % 65536)))).pwrShow).reply r .ok 0 [])) ∧
    (r.u 0 1 = 2 → r.u 1 1 ≤ 7 → (b.part (r.u 1 1)).isSome = true → Passes b r false pay false false →
      Does (.setPowerPartitionCap f m) s ((b.wn ⟨.PWR_CAP_P, iod0, r.u 1 1⟩ (r.u 4 2)).reply r .ok 0 [])) ∧
    (r.u 0 1 = 4 → r.u 6 1 ≤ 4 → Passes b r false pay false false →
      Does (.setPowerOpPoint f m) s ((({ b with pwr := { b.pwr with hostOp := r.u 6 1 } }).opTargetAll).reply r .ok 0 [])) ∧
    (r.u 0 1 = 8 → r.u 7 1 = 1 → (∀ o ∈ b.mbx.ops, o.kind = .runSteps → o.st.final = true) → Passes b r false pay false false →
      Does (.setPowerState f m) s (b.dozeEnter.reply r .ok 0 [])) ∧
    (r.u 0 1 = 8 → r.u 7 1 = 0 → b.pwr.doze = true → Passes b r false pay false false →
      Does (.setPowerState f m) s (({ b with pwr := { b.pwr with waking := true } }).reply r .ok 0 [])) ∧
    (r.u 0 1 = 16 → r.u 8 1 ≤ 63 → r.u 9 1 ≤ 3 → Passes b r false pay false false →
      Does (.setPowerCapperCfg f m) s
        ((((b.wf (pwrReg .PWR_CAP_CFG) Fld.PWR_CAP_CFG_GAIN (if r.u 8 1 = 0 then 16 else r.u 8 1)).wf (pwrReg .PWR_CAP_CFG) Fld.PWR_CAP_CFG_ATTR
          (r.u 9 1 % 2)).wf (pwrReg .PWR_CAP_CFG) Fld.PWR_CAP_CFG_TRIM (r.u 9 1 / 2 % 2)).reply r .ok 0 []))

/-- R487 to R489, R423: SET_PARTITION and the securing policy. An accepted definition frees the clusters that leave, takes those that enter, stands in the partition
table with its masks, shares and slots, and binds the function's group; a deletion frees the clusters and unbinds the group; either record extends measurement register 7; POLICY stores the policy with its
defaults and the first NEXT_S, POLICY_OFF removes it. Where it rests on a choice of the model: log entries 50, 89, 191 and 226. -/
def Obligations.PartitionsAndPolicy : Prop :=
  ∀ (s : State) (f m : Nat),
    let b := s.blk
    let r := b.reqOf f m
    let p := r.u 0 1
    let slots := (List.range 4).map (fun d => r.u (28 + d) 1)
    let old := b.clustersOf p
    let new := maskList (r.u 8 8) 36
    let freed := (old.filter (fun c => !new.contains c)).foldl (fun c cl => c.freeCluster cl) b
    let taken := (new.filter (fun c => !old.contains c)).foldl (fun c cl => c.takeCluster cl) freed
    let pay := !r.reservedOk [(0, 2), (8, 18), (28, 4)] || decide (7 < p)
    let q : Policy := { layers := if r.u 2 1 = 0 then 3 else r.u 2 1, minSteps := if r.u 20 4 = 0 then 8 else r.u 20 4
                        maxSteps := if r.u 24 4 = 0 then 1000 else r.u 24 4, priorS := if r.u 28 4 = 0 then 86400 else r.u 28 4
                        costMs := if r.u 32 4 = 0 then 500 else r.u 32 4 }
    (Stands b f m 0x41 → r.u 1 1 = 0 → b.partOk p (r.u 8 8) (r.u 16 8) (r.u 24 1) (r.u 25 1) slots = true → Passes b r (b.partBusy p) pay false false →
      Does (.setPartitionDefine f m) s ((((taken.setPart p { clusters := r.u 8 8, eyelets := r.u 16 8, hbmShare := r.u 24 1, flowShare := r.u 25 1
                                                             slots := slots }).bindGroup p true).measRecord r).reply r .ok 0 [])) ∧
    (Stands b f m 0x41 → r.u 1 1 = 1 → Passes b r (b.partBusy p) pay false false →
      Does (.setPartitionDelete f m) s (((((old.foldl (fun c cl => c.freeCluster cl) b).delPart p).bindGroup p false).measRecord r).reply r .ok 0 [])) ∧
    (Stands b f m 0x20 → r.u 1 1 = 3 → Passes b r (!b.isLoaded p || b.unrestored p)
        (!r.reservedOk [(0, 3), (20, 16)] || decide (7 < p) || decide (3 < r.u 2 1) || decide (q.maxSteps < q.minSteps)) false false →
      Does (.secureStatePolicy f m) s ((b.onPart p (fun x => { x with policy := some q, nextS := x.s + q.minSteps })).reply r .ok 0 [])) ∧
    (Stands b f m 0x20 → r.u 1 1 = 4 → Passes b r (!b.isLoaded p || b.unrestored p) (!r.reservedOk [(0, 3)] || decide (7 < p) || decide (3 < r.u 2 1)) false false →
      Does (.secureStatePolicyOff f m) s ((b.onPart p (fun x => { x with policy := none, nextS := 0 })).reply r .ok 0 []))

/-- R528 to R531, R537, R538: the recorder and the debug lock over the mailbox. READ_RECORDER writes the records from the asked place on to the host (of sound records,
with no device failing) and answers their range; CLEAR_RECORDER with its scope records the clear and erases up to a sequence; a challenge is a fresh nonce; a
response of no bytes closes every scope. Where it rests on a choice of the model: log entries 6 and 189. -/
def Obligations.RecorderAndUnlock : Prop :=
  ∀ (s : State) (f m : Nat),
    let b := s.blk
    let r := b.reqOf f m
    let from_ := max (r.u 0 8) b.recd.oldestSeq
    let n := min (r.u 16 4 / 64) (b.recd.nextSeq - from_)
    let recs := (List.range n).filterMap (fun i => b.recFetch (from_ + i) [] [])
    (∀ c, Stands b f m 0x50 → b.hostWrite (r.u 8 8) (recs.map RecEntry.bytes).flatten = some c →
      Passes b r false (!r.reservedOk [(0, 20)] || decide (r.u 16 4 % 64 ≠ 0) || decide (r.u 16 4 < 64) || decide (2 ^ 20 < r.u 16 4)) false false →
      Does (.readRecorder f m [] []) s (c.reply r .ok 0 (leBytes 8 from_ ++ leBytes 8 (from_ + n) ++ leBytes 8 b.recd.oldestSeq ++
        leBytes 4 recs.length ++ [BitVec.ofNat 8 (b2n (decide (r.u 0 8 < b.recd.oldestSeq)))]))) ∧
    (Stands b f m 0x51 → bitOf b.sec.scopes 1 = true → Passes b r false (!r.reservedOk [(0, 8)] || decide (b.recd.nextSeq ≤ r.u 0 8)) false false →
      ∃ c : Blk, Does (.clearRecorder f m) s (c.reply r .ok 0 []) ∧ (∀ x ∈ c.recd.dev0 ++ c.recd.dev1, r.u 0 8 < x.2.seq) ∧ r.u 0 8 < c.recd.oldestSeq ∧
        r.u 0 8 ≤ c.recd.cleared) ∧
    (Stands b f m 0x60 → b.rn ⟨.SEC_UNLOCK_FAIL, iod0, 0⟩ < 8 → Passes b r false (!r.reservedOk []) false false →
      ∃ c : Blk, Yields (.unlockChallenge f m) s (fun d => d.sec.nonce = some (Config.entropy b.fresh) ∧
        d = c.reply r .ok 0 (leBytes 32 (Config.entropy b.fresh).toNat ++ leBytes 4 (bits (b.rn ⟨.IDENT_DIE, 0, iod0⟩) 32 32) ++
          leBytes 8 (b.rn ⟨.IDENT_PART, 0, 0⟩) ++ [BitVec.ofNat 8 b.sec.scopes, 0, 0, 0] ++ leBytes 4 b.recd.bootCnt ++ leBytes 4 300))) ∧
    (Stands b f m 0x61 → r.u 8 4 = 0 → Passes b r false (!r.reservedOk [(0, 12)]) false false →
      Does (.unlockResponseRelock f m) s ((b.scopesClose.measAll 5 (sha256 (List.replicate 52 0))).reply r .ok 0 []))

/-- R473, R474, R479: the long commands that act on a last. Each, accepted while the module does not doze, makes its operation, is answered ACCEPTED, and its work
begins at once: a LOAD_LAST is read and clicked, an UNLOAD_LAST unloads, a run's feed starts afresh, a RESHARD is clicked against the capacity present, a
replay restores the secured state it starts from. Where it rests on a choice of the model: log entries 38, 71, 172 and 220. -/
def Obligations.LastCommandsAccepted : Prop :=
  ∀ (s : State) (f m : Nat) (sections : Last) (moves : List (Nat × BitVec 512)) (partner : Option Gen) (bad : List (Nat × Nat × Nat)),
    let b := s.blk
    let r := b.reqOf f m
    let p := r.u 0 1
    b.pwr.doze = false →
    (Stands b f m 0x10 → Passes b r ((b.part p).isNone || b.isLoaded p || b.exclusiveBusy p) (!r.reservedOk [(0, 1), (4, 4), (8, 8)] || decide (7 < p)) false
        b.opsBusy →
      Does (.loadLast f m sections) s
        (b.startOp r { handle := 0, fn := f, mbx := m, kind := .loadLast, part := p, st := .running } (fun c o => c.loadGo r o sections))) ∧
    (Stands b f m 0x11 → Passes b r (!b.isLoaded p || b.exclusiveBusy p) (!r.reservedOk [(0, 1)] || decide (7 < p)) false b.opsBusy →
      Does (.unloadLast f m) s
        (b.startOp r { handle := 0, fn := f, mbx := m, kind := .unloadLast, part := p, st := .running } (fun c o => c.unloadGo p o))) ∧
    (Stands b f m 0x12 → Passes b r (!b.isLoaded p || b.unrestored p || b.exclusiveBusy p)
        (!r.reservedOk [(0, 2), (4, 8), (16, 12), (32, 8)] || decide (7 < p) || decide (1 < r.u 1 1) || (!decide (r.u 1 1 = 1) && decide (r.u 4 4 = 0)) ||
          decide (r.u 8 4 ≠ b.sOf p % 2 ^ 32) || !feedOk (r.u 16 8) (r.u 24 4)) false b.opsBusy →
      Does (.runSteps f m) s
        (((b.onPart p (fun x => { x with ranRun := true })).feedReset p).startOp r { handle := 0, fn := f, mbx := m, kind := .runSteps, part := p, st := .running, steps := r.u 4 4, until_ := decide (r.u 1 1 = 1), s := r.u 8 4
                                                                                     ring := r.u 16 8, entries := r.u 24 4, consAddr := r.u 32 8 } (fun c _ => c.runGo p))) ∧
    (Stands b f m 0x17 → Passes b r
        (!b.isLoaded p || (b.opOn p (fun k => k == .reshard)).isSome || b.opLive p (fun k => k == .loadLast || k == .unloadLast || k == .restore))
        (!r.reservedOk [(0, 1), (4, 14)] || decide (7 < p) || decide (r.u 16 2 ≠ (b.rf ⟨.LAC_EPOCH, iod0, 0⟩ Fld.LAC_EPOCH_EPOCH + 1) % 4096)) false b.opsBusy →
      Does (.reshard f m sections moves) s
        (b.startOp r { handle := 0, fn := f, mbx := m, kind := .reshard, part := p, st := .queued, epoch := r.u 16 2 }
          (fun c o => c.reshardGo r o sections moves))) ∧
    (Stands b f m 0x16 → Passes b r (!b.isLoaded p || b.unrestored p || b.exclusiveBusy p)
        (!r.reservedOk [(0, 2), (4, 8), (16, 12), (32, if r.u 1 1 = 3 then 20 else 8)] || decide (7 < p) || decide (3 < r.u 1 1) || !decide (r.u 4 4 < r.u 8 4) ||
          !feedOk (r.u 16 8) (r.u 24 4) || !((b.part p).any (fun x => x.digests.any (fun d => decide (d.s = r.u 8 4))))) false b.opsBusy →
      Does (.replayStep f m partner bad) s
        ((b.feedReset p).startOp r { handle := 0, fn := f, mbx := m, kind := .replayStep, part := p, st := .running, s := r.u 4 4, k := r.u 8 4, source := r.u 1 1
                                     ring := r.u 16 8, entries := r.u 24 4, consAddr := r.u 32 8, steps := r.u 8 4 - r.u 4 4 }
          (fun c o => c.replayGo r o partner bad)))

/-- R415, R421, R427, R391, R235, R473: the long commands that secure, export, restore, test and scrub, accepted while the module does not doze. Where it rests on a choice of the model: log entries 80, 126 and 226. -/
def Obligations.CareCommandsAccepted : Prop :=
  ∀ (s : State) (f m : Nat) (partner : Option Gen) (bad : List (Nat × Nat × Nat)),
    let b := s.blk
    let r := b.reqOf f m
    let p := r.u 0 1
    let us := (List.range p).map (fun i => r.u (2 + 2 * i) 2)
    b.pwr.doze = false →
    (Stands b f m 0x20 → r.u 1 1 = 0 →
      Passes b r (!b.isLoaded p || b.unrestored p || b.opLive p OpKind.exclusive || b.isSecuring p) (!r.reservedOk [(0, 3)] || decide (7 < p) || decide (3 < r.u 2 1))
        false b.opsBusy →
      Does (.secureStateNow f m) s
        (b.startOp r { handle := 0, fn := f, mbx := m, kind := .secure, part := p, st := .running, s := b.sOf p, layers := r.u 2 1 }
          (fun c o => c.secureStart p o.handle (r.u 2 1)))) ∧
    (Stands b f m 0x20 → r.u 1 1 = 1 →
      Passes b r (!b.isLoaded p || b.unrestored p) (!r.reservedOk [(0, 3), (4, 4)] || decide (7 < p) || decide (3 < r.u 2 1)) false b.opsBusy →
      Does (.secureStateAtStep f m) s
        (b.startOp r { handle := 0, fn := f, mbx := m, kind := .secure, part := p, st := .queued, s := r.u 4 4, layers := r.u 2 1 }
          (fun c o => if r.u 4 4 ≤ c.sOf p then c.endOp o.handle .secureStepPassed 0 [] else c))) ∧
    (∀ x, Stands b f m 0x20 → r.u 1 1 = 2 → b.flashFile p (r.u 4 4) = some x →
      Passes b r ((b.part p).isNone || b.unrestored p || (b.flashFile p (r.u 4 4)).isNone) (!r.reservedOk [(0, 3), (4, 16)] || decide (7 < p) || decide (3 < r.u 2 1)) false b.opsBusy →
      Does (.secureStateExport f m) s
        (b.startOp r { handle := 0, fn := f, mbx := m, kind := .export_, part := p, st := .running, s := r.u 4 4, slot := x.1, scatter := r.u 8 8
                       nScatter := r.u 16 4, layers := 2 } (fun c o => c.exportGo r o))) ∧
    (Stands b f m 0x21 →
      Passes b r (!b.isLoaded p || b.exclusiveBusy p || b.opLive p (fun k => k == .secure || k == .export_) || b.isSecuring p)
        (!r.reservedOk (if r.u 1 1 = 3 then [(0, 2), (4, 16)] else [(0, 2), (4, 4)]) || decide (7 < p) || decide (3 < r.u 1 1)) false b.opsBusy →
      Does (.restoreState f m partner bad) s
        (b.startOp r { handle := 0, fn := f, mbx := m, kind := .restore, part := p, st := .running, s := r.u 4 4, source := r.u 1 1 }
          (fun c o => c.restoreGo r o partner bad))) ∧
    (Stands b f m 0x30 →
      Passes b r false (!r.reservedOk [(0, 1), (2, 2 * p)] || decide (p = 0) || decide (112 < p) || !us.all (fun u => b.unitExists u && b.present (unitDie u))) false
        b.opsBusy →
      Does (.awlTest f m) s
        (b.startOp r { handle := 0, fn := f, mbx := m, kind := .awlTest, part := 0xFF, st := .queued, units := us, nibbles := us.map (fun _ => 0) }
          (fun c o => o.units.foldl (fun d u => d.askTest u .command) c))) ∧
    (Stands b f m 0x31 →
      Passes b r (decide (p ≤ 7) && (b.part p).isNone)
        (!r.reservedOk [(0, 1), (8, 16)] || (decide (7 < p) && decide (p ≠ 0xFF)) || decide (r.u 16 8 = 0) || !b.scrubRange p (r.u 8 8) (r.u 16 8)) false b.opsBusy →
      Does (.scrub f m) s
        (b.startOp r { handle := 0, fn := f, mbx := m, kind := .scrub, part := p, st := .running, first := r.u 8 8, blocks := r.u 16 8 } (fun c _ => c)))

/-- R478, R479, R520, R527: FW_UPDATE, with no other one waiting, is accepted and runs; ATTEST is accepted with its report made at that moment. In both the response is
ACCEPTED with the operation's handle. Where it rests on a choice of the model: log entries 7, 8 and 9. -/
def Obligations.FirmwareAndAttest : Prop :=
  ∀ (s : State) (f m : Nat),
    let b := s.blk
    let r := b.reqOf f m
    (∀ c o, Stands b f m 0x62 → (∀ x ∈ b.mbx.ops, x.kind = .fwUpdate → x.st.final = true) →
      Passes b r false (!r.reservedOk [(4, 4), (8, 8), (16, 1)] || decide (1 < r.u 16 1)) false b.opsBusy →
      c = b.accept r { handle := 0, fn := f, mbx := m, kind := .fwUpdate, part := 0xFF, st := .running, scatter := r.u 8 8, nScatter := r.u 4 4
                       activate := r.u 16 1 } → c.mbx.ops.getLast? = some o →
      Does (.fwUpdate f m) s (c.fwRun o)) ∧
    (Stands b f m 0x63 → Passes b r false (!r.reservedOk [(0, 44)] || decide (r.u 40 4 < 131072)) false b.opsBusy →
      Does (.attest f m) s (b.accept r { handle := 0, fn := f, mbx := m, kind := .attest, part := 0xFF, st := .running, ended := true, scatter := r.u 32 8
                                         buf := b.attestReport f (r.pay.take 32), result := [(16, 4, (b.attestReport f (r.pay.take 32)).length)] }))

/-- R474: the checks of a request, in their order, and the first that fails is the answer; a LOAD_LAST that fails one is answered with that status and makes no
operation: its whole effect is the response. Where it rests on a choice of the model: log entry 186. -/
def Obligations.ChecksInOrder : Prop :=
  (∀ (b : Blk) (r : Req) (w : CmdRow) (stateBad scopeBad payBad handleBad busy : Bool),
    (cmdRow r.code = none → b.judge r stateBad scopeBad payBad handleBad busy = some .badCommand) ∧
    (cmdRow r.code = some w →
      b.judge r stateBad scopeBad payBad handleBad busy =
        ([(!b.issuerOk r w, Status.refusedFunction), (!b.moduleOk r w || stateBad, .refusedState), (scopeBad, .authFailed), (payBad, .badPayload),
          (handleBad, .refusedHandle), (busy, .refusedBusy)].find? (fun x => x.1)).map (fun x => x.2))) ∧
  ∀ (s : State) (f m : Nat) (sections : Last) (st : Status),
    let b := s.blk
    let r := b.reqOf f m
    let p := r.u 0 1
    Stands b f m 0x10 →
    b.judge r ((b.part p).isNone || b.isLoaded p || b.exclusiveBusy p) false (!r.reservedOk [(0, 1), (4, 4), (8, 8)] || decide (7 < p)) false b.opsBusy =
      some st →
    Does (.loadLast f m sections) s (b.reply r st 0 [])

/-- R290 to R293, R369, R481 to R483: suspension and cancellation. A SUSPEND of a running operation that may be suspended marks it and is answered OK; at its
suspension point the operation reports SUSPENDED with a notice; RESUME continues a suspended one, a run with the barrier ramp; a CANCEL that wins has its effect at once;
an operation whose work has ended is committed. Where it rests on a choice of the model: log entries 93, 94, 95 and 220. -/
def Obligations.OperationsSuspendAndEnd : Prop :=
  ∀ (s : State) (f m h : Nat) (o : LongOp) (c : Blk),
    let b := s.blk
    let r := b.reqOf f m
    (∀ now : Bool, Stands b f m 0x13 → r.u 0 1 = b2n now → b.handleOp r = some o → o.st = .running → suspendable o.kind now = true →
      Passes b r false (!r.reservedOk [(0, 1)]) false false →
      Does (if now then .suspendNow f m else .suspendBoundary f m) s ((b.suspendMark o now).reply r .ok o.handle [])) ∧
    (Stands b f m 0x14 → b.handleOp r = some o → o.st = .suspended → b.pwr.coolStop = false → b.pwr.wait = false → Passes b r false (!r.reservedOk []) false false →
      Does (.resume f m) s (((if o.kind = .runSteps then (b.goOn o).barrierAll else b.goOn o).pwrShow).reply r .ok o.handle [])) ∧
    (Stands b f m 0x15 → b.handleOp r = some o → o.st.final = false → b.cancelEffect o = some c → Passes b r false (!r.reservedOk []) false false →
      Does (.cancel f m) s ((c.pwrShow).reply r .ok o.handle [])) ∧
    (h < 2 ^ 32 → b.op h = some o → o.st = .running → o.susp ≠ .none → o.ended = false → ((o.kind = .runSteps ∨ o.kind = .replayStep) → b.atSuspension o.part = true) →
      Yields (.suspensionPoint h) s (fun d => (d.op h).any (fun x => x.st == .suspended && x.susp == .none) = true)) ∧
    (h < 2 ^ 32 → b.op h = some o → o.ended = true → o.st = .running → o.kind ≠ .fwUpdate →
      Does (.opCompletionCommit h) s (((b.commitEffect o).opCommit h).pwrShow))

/-- R461 to R468: the mailbox. A message written to a free buffer stands there with the sender stamped and FULL set and is submitted; a full buffer drops it; the
host's read of a response frees the buffer, or moves the next message in; a request not taken sets TIMEOUT and stays. A lock read when free names the reader its
owner and answers 0; only the owner's write of 0 releases it; a break frees every lock named. Where it rests on a choice of the model: log entry 141. -/
def Obligations.MailboxTransport : Prop :=
  ∀ (s : State) (f m owner mask : Nat) (msg : List Byte),
    let b := s.blk
    let st : RegRef := ⟨.MBX_STATUS, f, m⟩
    let lock : RegRef := ⟨.MBX_LOCK, owner, m⟩
    f < 9 → m < fnMailboxes f → owner < 9 →
    (msg.length = 256 → b.reqFull f m = false →
      Does (.hostRequest f m msg) s ((({ b with mbx := { b.mbx with req := b.mbx.req.write (256 * mbxNo f m) (msg.take 8 ++ leBytes 2 (fnId f) ++ msg.drop 10) } }).wf
        st Fld.MBX_STATUS_REQ_FULL 1).submit f m)) ∧
    (msg.length = 256 → b.reqFull f m = true → Does (.hostRequest f m msg) s (b.wf st Fld.MBX_STATUS_DROPPED 1)) ∧
    (b.rspFull f m = true → b.queued f m = [] →
      Does (.responseRead f m) s ((({ b with readData := b.mbx.rsp.read (256 * mbxNo f m) 256 }).wf st Fld.MBX_STATUS_RSP_FULL 0).submit f m)) ∧
    (∀ x xs, b.rspFull f m = true → b.queued f m = x :: xs →
      Does (.responseRead f m) s (((({ b with readData := b.mbx.rsp.read (256 * mbxNo f m) 256 }).setQueued f m xs).rspLoad f m x).submit f m)) ∧
    (b.reqFull f m = true → Does (.mbxRequestTimeout f m) s (b.wf st Fld.MBX_STATUS_TIMEOUT 1)) ∧
    (b.rn lock = 0 → Yields (.mbxLockRead f m owner) s (fun d => d.readData = leBytes 4 0 ∧ d.rn lock = fnId f)) ∧
    (b.rn lock = fnId f → Yields (.mbxLockRelease f m 0 owner) s (fun d => d.rn lock = 0)) ∧
    (b.rn lock ≠ fnId f → Does (.mbxLockRelease f m 0 owner) s b) ∧
    (mask < 2 ^ 64 → Yields (.mbxLockBreak mask) s (fun d => ∀ k, k < 16 → d.rn ⟨.MBX_LOCK, 0, k⟩ = if bitOf mask k then 0 else b.rn ⟨.MBX_LOCK, 0, k⟩))

/-- R469, R472, R484, R554, R559: doorbells and messages inside the package. The feed's producer index is written by the physical function or by the partition's own, and by no
other; a reset is armed by its first write, which holds the key and the kind of a reset, and lapses; a message to a cobbler or a cluster whose mailbox is free stands there; a die doorbell sets its bit; nothing passes to or from a fenced die (R37). Where it rests on a choice of the model: log entries 102 and 115. -/
def Obligations.DoorbellsAndMessages : Prop :=
  ∀ (s : State) (f p v d bit dst src cl : Nat) (msg : List Byte),
    let b := s.blk
    (f < 9 → p < 8 → v < 2 ^ 32 → (f = 0 ∨ f = p + 1) → Does (.dblFeedProdWrite f p v) s (b.wn ⟨.DBL_FEED_PROD, 0, p⟩ (v % 65536))) ∧
    (f < 9 → p < 8 → v < 2 ^ 32 → f ≠ 0 → f ≠ p + 1 → Does (.dblFeedProdWrite f p v) s b) ∧
    (v < 2 ^ 32 → bits v 0 3 = 1 → bits v 16 16 = 0xC0B1 → b.stage ≠ 0 → b.stage ≠ 8 → b.pkg.armed = 0 →
      Does (.dblResetCold v) s { b with pkg := { b.pkg with armed := v } }) ∧
    (v < 2 ^ 32 → bits v 0 3 = 2 → bits v 16 16 = 0xC0B1 → b.stage ≠ 0 → b.stage ≠ 8 → b.pkg.armed = 0 →
      Does (.dblResetPackage v) s { b with pkg := { b.pkg with armed := v } }) ∧
    (v < 2 ^ 32 → bits v 0 3 = 1 → bits v 16 16 = 0xC0B1 → b.stage ≠ 0 → b.stage ≠ 8 → b.pkg.armed = v → Does (.dblResetCold v) s (b.askReset 1)) ∧
    (v < 2 ^ 32 → bits v 0 3 = 2 → bits v 16 16 = 0xC0B1 → b.stage ≠ 0 → b.stage ≠ 8 → b.pkg.armed = v → Does (.dblResetPackage v) s (b.askReset 3)) ∧
    (v < 2 ^ 32 → bits v 0 3 ≠ 2 → bits v 16 16 ≠ 0xC0B1 → b.stage ≠ 0 → b.stage ≠ 8 →
      Does (.dblResetCold v) s { b with pkg := { b.pkg with armed := 0 } }) ∧
    Does (.dblResetLapse) s { b with pkg := { b.pkg with armed := 0 } } ∧
    (d < 10 → bit < 32 → b.fenced d = false → (bit < 10 → b.fenced bit = false) → Yields (.dieDoorbell d bit) s (fun c => c.mbx.dieBell = Sp.set 0 b.mbx.dieBell d (setBit (Sp.get 0 b.mbx.dieBell d) bit true))) ∧
    (d < 10 → bit < 32 → (b.fenced d = true ∨ (bit < 10 ∧ b.fenced bit = true)) → Does (.dieDoorbell d bit) s b) ∧
    (dst < 10 → src < 10 → src ≠ dst → msg.length = 256 → (b.fenced src = true ∨ b.fenced dst = true) → Does (.cobblerMessage dst src msg) s b) ∧
    (dst < 10 → src < 10 → src ≠ dst → msg.length = 256 → b.fenced src = false → b.fenced dst = false → slotGet b.mbx.cobbler (dst * 16 + src) = none →
      Yields (.cobblerMessage dst src msg) s (fun c => slotGet c.mbx.cobbler (dst * 16 + src) = some (stampSender (cobblerId src) msg))) ∧
    (cl < 36 → b.up (clDie cl) = true → msg.length = 256 → slotGet b.mbx.cluster cl = none → Yields (.clusterMailbox cl msg) s (fun c => slotGet c.mbx.cluster cl = some (stampSender (cobblerId (clDie cl)) msg)))

/-- R490 to R508: the event gatherer. A completion of what was served lowers the counter and ends the presentation; the consumer index frees room; ENABLE zeroes the
indices and the sequence number; a mask write of the group's owner is taken; an event raises its counter, saturating at 255, and a condition that becomes true
counts one; a hold-off's expiry and the coalescing timer present and signal what waited. Where it rests on a choice of the model: log entries 4, 5 and 223. -/
def Obligations.EventGathererActs : Prop :=
  ∀ (s : State) (d t src served v g f : Nat),
    let b := s.blk
    let e := evDie d t
    let port := evPort d t
    (evPortNo d t = true → src < 2048 → served < 256 → b.evTarget e (src / 32) = t → served ≠ 0 → served ≤ b.evCount e src →
      Sp.get 0 b.evg.level (e * 2048 + src) = 0 →
      Does (.evgComplete d t src served) s (({ b with evg := { b.evg with
        cnt := Sp.set 0 b.evg.cnt (e * 2048 + src) (b.evCount e src - served)
        presented := Sp.set 0 b.evg.presented (e * 2048 + src) 0 } }).evScan e)) ∧
    (evPortNo d t = true → src < 2048 → served < 256 → (b.evTarget e (src / 32) ≠ t ∨ b.evCount e src = 0 ∨ served = 0) →
      Does (.evgComplete d t src served) s (b.bump ⟨.EVG_STRAY_CNT, port, 0⟩)) ∧
    (evPortNo d t = true → v < 2 ^ 32 →
      (b.rf ⟨.EVG_Q_PROD, port, 0⟩ Fld.EVG_Q_PROD_COUNT + 65536 - b.rf ⟨.EVG_Q_CONS, port, 0⟩ Fld.EVG_Q_CONS_COUNT) % 65536 <
        (v % 65536 + 65536 - b.rf ⟨.EVG_Q_CONS, port, 0⟩ Fld.EVG_Q_CONS_COUNT) % 65536 →
      Does (.evgQConsWrite d t v) s b) ∧
    (evPortNo d 0 = true → v < 2 ^ 32 →
      (v % 65536 + 65536 - b.rf ⟨.EVG_Q_CONS, d * 16, 0⟩ Fld.EVG_Q_CONS_COUNT) % 65536 ≤
        (b.rf ⟨.EVG_Q_PROD, d * 16, 0⟩ Fld.EVG_Q_PROD_COUNT + 65536 - b.rf ⟨.EVG_Q_CONS, d * 16, 0⟩ Fld.EVG_Q_CONS_COUNT) % 65536 →
      Does (.evgQConsWrite d 0 v) s (({ b.wf ⟨.EVG_Q_CONS, d * 16, 0⟩ Fld.EVG_Q_CONS_COUNT (v % 65536) with
        evg := { b.evg with full := if v % 65536 = b.rf ⟨.EVG_Q_CONS, d * 16, 0⟩ Fld.EVG_Q_CONS_COUNT then b.evg.full else Sp.set 0 b.evg.full (d * 16) 0 } }).evScan d)) ∧
    (evPortNo d 0 = true → v < 2 ^ 32 → b.rf ⟨.EVG_Q_CFG, d * 16, 0⟩ Fld.EVG_Q_CFG_ENABLE = 0 → bits v 4 1 = 1 →
      Yields (.evgQEnable d 0 v) s (fun c => ∃ a : Blk, c = a.evScan d ∧ a.rn ⟨.EVG_Q_PROD, d * 16, 0⟩ = 0 ∧ a.rn ⟨.EVG_Q_CONS, d * 16, 0⟩ = 0 ∧
        Sp.get 0 a.evg.seq (d * 16) = 0)) ∧
    (evPortNo d t = true → g < 64 → v < 2 ^ 32 → b.evTarget e g = t →
      Does (.evgMaskWrite d t g v) s ((b.wn ⟨.EVG_MASK, e * 16, g⟩ (v % 2 ^ 32)).evScan e)) ∧
    (evPortNo d t = true → g < 64 → v < 2 ^ 32 → b.evTarget e g ≠ t → Does (.evgMaskWrite d t g v) s b) ∧
    (d < 10 → src < 2048 → evExists b.pkg.sku d src = true →
      Does (.eventRaise d src .event) s
        (let c := ({ b with evg := { b.evg with cnt := Sp.set 0 b.evg.cnt (d * 2048 + src) (min 255 (b.evCount d src + 1)) } }).evScan d
         if unitSource d src = true then c.wordsCheck (fun _ => true) else c)) ∧
    (d < 10 → src < 2048 → evExists b.pkg.sku d src = true → Sp.get 0 b.evg.level (d * 2048 + src) = 0 →
      Does (.eventRaise d src .condTrue) s
        (let c := ({ b with evg := { b.evg with level := Sp.set 0 b.evg.level (d * 2048 + src) 1 } }).evRaise d src
         if unitSource d src = true then c.wordsCheck (fun _ => true) else c)) ∧
    (d < 10 → g < 64 → Sp.get 0 b.evg.holdoff (d * 64 + g) ≠ 0 →
      Does (.holdoffExpiry d g) s (({ b with evg := { b.evg with holdoff := Sp.set 0 b.evg.holdoff (d * 64 + g) 0 } }).evScan d)) ∧
    (f < 9 → b.evCoalescing (iod0 * 16 + 1 + f) = true → Sp.get 0 b.evg.coal (iod0 * 16 + 1 + f) ≠ 0 →
      Does (.coalesceTimer f) s (({ b with evg := { b.evg with coal := Sp.set 0 b.evg.coal (iod0 * 16 + 1 + f) 0 } }).msixSend (iod0 * 16 + 1 + f)))

/-- R7, R8, R9: register accesses that have no row of their own. A write to a register whose bits are plainly read-write or read-only, with no clamp and no side effect
(here the queue base of a die's event port), stores the writable bits and keeps the others; a read of an RCL register (here the arrays' dry
count) returns its value and clears it, and an update of the same cycle is applied on top; every other register is as before. -/
def Obligations.RegisterAccess : Prop :=
  ∀ (s : State) (d core upd : Nat) (v : RegVal),
    let b := s.blk
    (d < 10 → Yields (.registerWrite ⟨.EVG_Q_BASE, d * 16, 0⟩ v) s (fun c =>
      c.rd ⟨.EVG_Q_BASE, d * 16, 0⟩ = accessWrite RegName.EVG_Q_BASE.row (b.rd ⟨.EVG_Q_BASE, d * 16, 0⟩) v RegName.EVG_Q_BASE.row.mask ∧
      ∀ r : RegRef, r.key ≠ RegRef.key ⟨.EVG_Q_BASE, d * 16, 0⟩ → c.rd r = b.rd r)) ∧
    (core < 180 → upd < 2 ^ 32 → Yields (.rclRead ⟨.SEQ_ARR_DRY, core, 0⟩ 0 32 upd) s (fun c =>
      c.readData = (leBytes 32 (b.rn ⟨.SEQ_ARR_DRY, core, 0⟩)).take 4 ∧ c.rn ⟨.SEQ_ARR_DRY, core, 0⟩ = upd ∧
      ∀ r : RegRef, r.key ≠ RegRef.key ⟨.SEQ_ARR_DRY, core, 0⟩ → c.rd r = b.rd r))

/-- R528 to R532, R539: the debug lock. A response that is signed by a key which is not revoked, over the nonce, the die, the part and a duration in range, opens its scopes for
that duration, clears the count of failures, extends measurement register 5 and is recorded; one whose signature fails, or whose nonce is not the challenge's, is refused AUTH_FAILED, its
challenge is spent and the failure counted. A duration's end closes every scope, and a challenge lapses. The failed-unit list is erased only with both its scopes open. Where it rests on a choice of the model: log entry 7. -/
def Obligations.DebugLockActs : Prop :=
  ∀ (s : State) (f m v : Nat) (x : List Byte),
    let b := s.blk
    let r := b.reqOf f m
    let u (off n : Nat) : Nat := leNat ((x.drop off).take n)
    let key := digestVal (sha256 ((x.drop 52).take 64))
    let opened : Blk := { b with sec := { b.sec with nonce := none, scopes := b.sec.scopes ||| u 44 1, grantKey := key.toNat % 2 ^ 64, unlocked := true } }
    let measured := ((opened.wn ⟨.SEC_UNLOCK_LEFT, iod0, 0⟩ (u 48 4)).wn ⟨.SEC_UNLOCK_FAIL, iod0, 0⟩ 0).measAll 5 (sha256 (x.take 52))
    let refused := ((({ b with sec := { b.sec with nonce := none } } : Blk).bump ⟨.SEC_UNLOCK_FAIL, iod0, 0⟩).record { code := 0x0011, die := iod0 }).reply r .authFailed 0 []
    (Stands b f m 0x61 → r.u 8 4 = 29908 → Passes b r false (!r.reservedOk [(0, 12)]) false false → b.hostRead (r.u 0 8) 29908 = some x →
      u 0 4 = 0x4B4C4E55 → b.sec.nonce = some (digestVal ((x.drop 4).take 32)) → u 36 4 = bits (b.rn ⟨.IDENT_DIE, 0, iod0⟩) 32 32 →
      u 40 4 = b.rn ⟨.IDENT_PART, 0, 0⟩ % 2 ^ 32 → 1 ≤ u 44 1 → u 44 1 ≤ 7 → 1 ≤ u 48 4 → u 48 4 ≤ 86400 → key ∈ b.sec.bootCfg.unlock →
      Does (.unlockResponse f m) s
        (if Config.slhVerify256s ((x.drop 52).take 64) (x.take 116) (x.drop 116) = true then
          ((if bitOf (u 44 1) 0 && !bitOf b.sec.scopes 0 then measured.clearDet else measured).record
            { code := 0x0010, die := iod0, data := leBytes 4 (u 44 1) ++ leBytes 8 (key.toNat % 2 ^ 64) }).reply r .ok 0 []
        else refused)) ∧
    (Stands b f m 0x61 → r.u 8 4 = 29908 → Passes b r false (!r.reservedOk [(0, 12)]) false false → b.hostRead (r.u 0 8) 29908 = some x →
      b.sec.nonce ≠ some (digestVal ((x.drop 4).take 32)) →
      Does (.unlockResponse f m) s refused) ∧
    (b.sec.scopes ≠ 0 → Does .unlockExpiry s
      ((({ b with sec := { b.sec with scopes := 0, grantKey := 0 } } : Blk).wn ⟨.SEC_UNLOCK_LEFT, iod0, 0⟩ 0).record { code := 0x0012, die := iod0 })) ∧
    Does .challengeExpiry s { b with sec := { b.sec with nonce := none } } ∧
    (v < 2 ^ 32 → bitOf b.sec.scopes 0 = true → bitOf b.sec.scopes 2 = true → bitOf v 0 = true →
      Does (.secFailedClear v) s (({ b with sec := { b.sec with failedA := [], failedB := [] } } : Blk).record { code := 0x0014, die := iod0 })) ∧
    (v < 2 ^ 32 → bitOf b.sec.scopes 0 = false → Does (.secFailedClear v) s (b.bump ⟨.SEC_DBG_DENY_CNT, iod0, 0⟩))

/-- R231, R443, R533, R573: the windows of the host and the power mirror. A BAR2 read delivers payload and changes nothing; a BAR2 write while a run is live, or one that
ends beyond the package's blocks, is discarded and counted; a write inside one block replaces its bytes and renews its aglet. An access through the debug window with its scope closed is denied and counted; with
it open a read delivers the register's word, and a write, which clears FIN_ONLY, writes the register or does what the register's own command does. The mirror shows what it measures, and a read of its energy latches the high word. Where it rests on a choice of the model: log entries 96 and 97. -/
def Obligations.WindowsAndMirror : Prop :=
  ∀ (s : State) (x n a avgMw avgK off k : Nat) (xs : List Byte) (d : Nat) (q : RegBlk) (w : Option Word) (v : Word) (g : RegRef)
    (o : Nat),
    let b := s.blk
    let at_ := b.bar2Base + x
    Does (.bar2Read x n) s { b with readData := b.hbmBytes at_ n } ∧
    (xs ≠ [] → (b.runLive = true ∨ b.dataBlock ((at_ + xs.length - 1) / 4096) = none) →
      Does (.bar2Write x xs) s (b.bump ⟨.HBM_BAR2_DROP, (match b.dataBlock (at_ / 4096) with | some p => pcDie p.1 | none => iod0), 0⟩)) ∧
    (xs ≠ [] → at_ % 4096 + xs.length ≤ 4096 → b.runLive = false → (b.dataBlock (at_ / 4096)).isSome = true → b.parts = [] →
      Does (.bar2Write x xs) s (b.bar2Block (at_ / 4096) (at_ % 4096) xs)) ∧
    (bitOf b.sec.scopes 0 = false →
      Does (.debugWindowAccess a w) s (({ b with readData := if w.isNone then zeros 4 else b.readData } : Blk).bump ⟨.SEC_DBG_DENY_CNT, iod0, 0⟩)) ∧
    (bitOf b.sec.scopes 0 = true → windowAt (a / 4 * 4) = some (d, q, k, off) →
      Does (.debugWindowAccess a none) s { (b.blockRead d q k 1 off).2 with readData := (b.blockRead d q k 1 off).1 }) ∧
    (bitOf b.sec.scopes 0 = true → windowAt (a / 4 * 4) = some (d, q, k, off) → b.up d = true → regFind d q k off = some (g, o) →
      Does (.debugWindowAccess a (some v)) s (if ownRow g.name then b.clearFinOnly.ownWrite g (v.toNat * 2 ^ (8 * o))
        else b.clearFinOnly.regWrite g (BitVec.ofNat 256 (v.toNat * 2 ^ (8 * o))) (byteMask o 4))) ∧
    Yields (.mirrorRefresh avgMw avgK) s (fun c => c.rn ⟨.PWR_MIR_ENERGY, 0, 0⟩ = b.pwr.energyMj % 2 ^ 64 ∧
      c.rn ⟨.PWR_MIR_TEMP, 0, 0⟩ = b.rn (pwrReg .PWR_THERM_STAT) % 2 ^ 32 ∧
      c.rn ⟨.PWR_MIR_INPUT, 0, 0⟩ = min 0xFFFF (b.pwr.inputMv / 10) + 2 ^ 16 * min 0xFFFF (avgMw / 1000)) ∧
    Does .mirrorEnergyRead s { b with pwr := { b.pwr with mirLatch := BitVec.ofNat 32 (b.rn ⟨.PWR_MIR_ENERGY, 0, 0⟩ / 2 ^ 32) }
                                      readData := leBytes 4 (b.rn ⟨.PWR_MIR_ENERGY, 0, 0⟩ % 2 ^ 32) }

/-- R378, R407: the role commands of a cobbler. FENCE makes a unit that is in use FENCED, and leaves one that is FENCED, SUSPECT or TESTING, and the flows of a lacing engine that it takes out of use move on (R387); TEST puts a unit that has not failed
under test, by the awl program of a sound image, defers the test where the unit's work has none to stand in for it, and leaves it queued where its cluster's order does; RETURN is accepted only after
a pass; MAKE_SPARE makes a working or idle core its cluster's stand-in; FAIL puts the unit out of use. A FAILED unit stays FAILED, and the result of a test asked of it is that it does not run. R378, R402: a change of role shows in the unit's state word and in the cobbler's table, and in no other unit's; it is counted as an event and changes no partition,
no memory and no other register outside the event gatherer's. Where it rests on a choice of the model: log entries 50 and 224. -/
def Obligations.RoleCommandsAct : Prop :=
  (∀ (s : State) (u : Nat),
    let b := s.blk
    unitNo u = true → b.present (unitDie u) = true →
    ((b.role u = roActive ∨ b.role u = roSpare ∨ b.role u = roIdle) → Does (.awlCmdFence u) s ((b.setRole u roFenced).flowsFollow b)) ∧
    ((b.role u = roFenced ∨ b.role u = roSuspect ∨ b.role u = roTesting) → Does (.awlCmdFence u) s b) ∧
    (b.role u ≠ roFailed → (∀ t ∈ b.units.running, t.unit ≠ u) → (∀ t ∈ b.units.queue, t.unit ≠ u) → b.sec.loadsOk (awlSection u) = true →
      let t : TestReq := { unit := u, trigger := .command, prevRole := b.role u, deferred := false }
      let waits := (b.askTest u .command).mustDefer t
      let may := (b.askTest u .command).testMay t
      (waits = false → may = true → b.role u ≠ roActive → (unitDie u < 4 → unitSlot u % 16 = 15 → b.clusterWorks (unitCluster u) = true) →
        Yields (.awlCmdTest u) s (fun c => c.role u = roTesting ∧ (∃ x ∈ c.units.running, x.unit = u) ∧ (∀ x ∈ c.units.queue, x.unit ≠ u) ∧
          (∀ v, unitNo v = true → v ≠ u → c.role v = b.role v) ∧ c.hbm = b.hbm ∧ c.ins = b.ins ∧ c.parts = b.parts)) ∧
      (waits = true → Yields (.awlCmdTest u) s (fun c => c.role u = b.role u ∧ c.rf (unitReg u) Fld.AWL_UNIT_DEFERRED = 1 ∧
        (∃ x ∈ c.units.queue, x.unit = u ∧ x.deferred = true) ∧ c.units.running = b.units.running ∧ c.hbm = b.hbm ∧ c.ins = b.ins ∧ c.parts = b.parts)) ∧
      (waits = false → may = false → Does (.awlCmdTest u) s (b.askTest u .command))) ∧
    (b.role u ≠ roFailed → (∃ t ∈ b.units.running, t.unit = u) → (∀ t ∈ b.units.queue, t.unit ≠ u) → Does (.awlCmdTest u) s b) ∧
    (b.role u ≠ roFailed → u ∈ b.units.passed →
      Does (.awlCmdReturn u) s (({ b with units := { b.units with passed := b.units.passed.filter (fun x => x != u) } } : Blk).setRole u (b.roleBack u (b.role u) false))) ∧
    (b.role u ≠ roFailed → u ∉ b.units.passed → Does (.awlCmdReturn u) s b) ∧
    (unitDie u < 4 → unitSlot u % 16 < 5 → (b.role u = roActive ∨ b.role u = roIdle) → Does (.awlCmdMakeSpare u) s (b.setRole u roSpare)) ∧
    Does (.awlCmdFail u) s ((b.failUnit u).flowsFollow b) ∧
    (b.role u = roFailed → Does (.awlCmdFence u) s b ∧ Does (.awlCmdReturn u) s b ∧ Does (.awlCmdMakeSpare u) s b ∧ Does (.awlCmdFail u) s b ∧
      ((∀ t ∈ b.units.queue, t.unit ≠ u) → Yields (.awlCmdTest u) s (fun c => c.role u = roFailed ∧ c.rf ⟨.AWL_LAST, unitDie u, 0⟩ Fld.AWL_LAST_RESULT = 4 ∧
        c.units.running = b.units.running ∧ c.units.queue = b.units.queue)))) ∧
  (∀ (b : Blk) (u v r : Nat), unitNo u = true → unitNo v = true → r ≤ 7 →
    (b.setRole u r).role u = r ∧ Sp.get 6 (b.setRole u r).units.table u = r ∧
    (v ≠ u → (b.setRole u r).role v = b.role v ∧ Sp.get 6 (b.setRole u r).units.table v = Sp.get 6 b.units.table v) ∧
    (∀ g : RegRef, regOk g = true → g.name.row.blk ≠ RegBlk.evg → g ≠ unitReg u → (b.setRole u r).rd g = b.rd g) ∧
    (b.setRole u r).parts = b.parts ∧ (b.setRole u r).hbm = b.hbm ∧ (b.setRole u r).ins = b.ins)

/-- R37, R45, R239, R240, R326, R329: writes of the cobblers. A fence write of one position fences it at the writer, and the first survivor to do so treats the position's
die as lost; the master's unfence write admits a die at its admission point; a re-lay may start only where R239 allows it, and begins where clicking fits; EYE_PAUSE pauses the channels of its mask, and a mask of 0 ends the
pause; a HOLD goes out from a link that has quiesced with nothing left to resend, or whose pause has timed out. Where it rests on a choice of the model: log entries 86, 147, 198 and 211. -/
def Obligations.CobblerWritesAct : Prop :=
  ∀ (s : State) (o p e mask : Nat) (errs : List (Bool × Nat × HbmErr)) (wbad : List (Bool × Nat)),
    let b := s.blk
    let c := b.fenceOn o p
    (o < 10 → p < 11 → p ≠ o →
      Does (.wltFenceWrite o (2 ^ p)) s (if p = 10 then c.seatLost else if c.present p then c.lossOf p else c)) ∧
    (o < 10 → p < 10 → o = b.master → b.mayAdmit p = true → Does (.wltUnfenceWrite o (2 ^ p)) s (b.admitDie p)) ∧
    (∀ v, v < 2 ^ 32 → o < 10 → o ≠ b.master → Does (.wltUnfenceWrite o v) s b) ∧
    (let ps := b.parts.filter (fun x => x.2.loaded)
     let again := ps.foldl (fun (d : Blk × Bool) (x : Nat × Part) => (d.1.reclick x.1, d.2 || (d.1.refit x.1).isSome)) (b, decide (ps = []))
     b.relayMay = true → b.hbm.relaying = [] → Does .relayStart s (if again.2 = true then again.1.relayStart else again.1)) ∧
    (b.relayMay = false → Does .relayStart s b) ∧
    (b.hbm.relaying ≠ [] → Yields (.relayComplete errs wbad) s (fun d => d.hbm.relaying = [])) ∧
    (e < 48 → 0 < mask → mask < 256 → b.eyeFlits e = true →
      Yields (.eyePauseWrite e mask) s (fun d => d.rf ⟨.EYE_PAUSE, e, 0⟩ Fld.EYE_PAUSE_MASK = mask ∧ d.pausing e = true ∧ d.rf (eyeReg e) Fld.EYE_STATE_QUIESCED = 0 ∧
        d.rf (eyeReg e) Fld.EYE_STATE_PAUSE_TMO = 0 ∧ (d.eye e).ctrl = (b.eye e).ctrl ++ [.pause mask] ∧ (d.eye e).replay = (b.eye e).replay ∧
        (∀ f, f ∈ (d.eye e).buf ++ (d.eye e).coast ↔ f ∈ (b.eye e).buf ++ (b.eye e).coast) ∧ (∀ f ∈ (d.eye e).coast, bitOf mask f.vc = true) ∧
        d.parts = b.parts ∧ d.hbm = b.hbm ∧ d.recd = b.recd)) ∧
    (e < 48 → b.pausing e = false → Does (.eyePauseWrite e 0) s (b.wf ⟨.EYE_PAUSE, e, 0⟩ Fld.EYE_PAUSE_MASK 0)) ∧
    (e < 48 → b.eyeUp e = true → (b.rf (eyeReg e) Fld.EYE_STATE_PAUSE_TMO = 1 ∨ (b.eye e).tmoPast = true ∨ (b.rf (eyeReg e) Fld.EYE_STATE_QUIESCED = 1 ∧ (b.eye e).replay = [])) →
      Does (.eyeHoldWrite e) s (((b.eyeCtrl e .hold).wf (eyeReg e) Fld.EYE_STATE_HOLD_SENT 1).setEyeState e 8))

/-- R131, R133, R142: the integer class. An instruction that issues writes each active element of its destination tile with the operation's result on its sources and leaves every other element and every other tile;
shifts take their amount modulo 32, sums and products wrap. -/
def Obligations.IntegerElementwise : Prop :=
  ∀ (s : State) (core op : Nat) (f : VOps) (i : Instr) (g : BitVec 32 → BitVec 32 → BitVec 32),
    let b := s.blk
    let x := b.vctx core
    (i, op, g) ∈ ([(.iadd core f, 0, fun a c => a + c), (.isub core f, 1, fun a c => a - c), (.imul core f, 2, fun a c => a * c),
      (.imax core f, 3, fun a c => if a.toInt < c.toInt then c else a), (.imin core f, 4, fun a c => if a.toInt < c.toInt then a else c),
      (.iand core f, 5, fun a c => a &&& c), (.ior core f, 6, fun a c => a ||| c), (.ixor core f, 7, fun a c => a ^^^ c),
      (.ishl core f, 8, fun a c => a <<< (c.toNat % 32)), (.ishr core f, 9, fun a c => a.sshiftRight (c.toNat % 32)), (.imov core f, 10, fun a _ => a)] :
      List (Instr × Nat × (BitVec 32 → BitVec 32 → BitVec 32))) →
    CoreReady b core ⟨2, op, f⟩ →
    Yields i s (fun c =>
      (∀ r l, r < 16 → l < 128 → c.vec.tile core f.dst r l =
        if b.vactive x f r l then g (b.vsrc x true f.mod f.s1 r l) (b.vsrc x true f.mod f.s2 r l) else b.vec.tile core f.dst r l) ∧
      TilesBut b c core f.dst ∧ PredsSame b c ∧ VecOnly b c)

/-- R133, R142 to R144: the float and special-function classes. Each active element of the destination takes the operation's result on its sources, CVTIF's immediate an integer (R141); the flags raised by
active elements join SEQ_VEC_FLAGS, where they stay, and a poisoned source row poisons the destination's and raises POISON, as does a write to a part of a poisoned row, which stays poisoned (R157). Where it rests on a choice of the model: log entries 16, 162 and 163. -/
def Obligations.FloatElementwise : Prop :=
  ∀ (s : State) (core cls op : Nat) (f : VOps) (i : Instr),
    let b := s.blk
    let x := b.vctx core
    (i, cls, op) ∈ ([(.fadd core f, 1, 0), (.fsub core f, 1, 1), (.fmul core f, 1, 2), (.ffma core f, 1, 3), (.fmax core f, 1, 4), (.fmin core f, 1, 5),
      (.fabs core f, 1, 6), (.fneg core f, 1, 7), (.fmov core f, 1, 8), (.cvtfi core f, 1, 9), (.cvtif core f, 1, 10), (.rcp core f, 3, 0), (.rsqrt core f, 3, 1),
      (.sqrt core f, 3, 2), (.exp2 core f, 3, 3), (.log2 core f, 3, 4), (.tanh core f, 3, 5), (.erf core f, 3, 6)] : List (Instr × Nat × Nat)) →
    CoreReady b core ⟨cls, op, f⟩ →
    let int := decide (cls = 1 ∧ op = 10)
    let v (r l : Nat) := valu cls op (b.vsrc x int f.mod f.s1 r l) (if 2 ≤ vSources cls op then b.vsrc x int f.mod f.s2 r l else 0)
      (if 3 ≤ vSources cls op then b.vsrc x int f.mod f.s3 r l else 0)
    let pois (r : Nat) : Bool := ([f.s1, f.s2, f.s3].take (vSources cls op)).any (fun c => b.vsrcPois x c r (b.vactive x f r))
    Yields i s (fun c =>
      (∀ r l, r < 16 → l < 128 → c.vec.tile core f.dst r l = if b.vactive x f r l then (v r l).1 else b.vec.tile core f.dst r l) ∧
      (∀ r l n, r < 16 → l < 128 → n < 8 → b.vactive x f r l = true → bitOf (v r l).2 n = true → bitOf (c.rn ⟨.SEQ_VEC_FLAGS, core, 0⟩) n = true) ∧
      (∀ n, bitOf (b.rn ⟨.SEQ_VEC_FLAGS, core, 0⟩) n = true → bitOf (c.rn ⟨.SEQ_VEC_FLAGS, core, 0⟩) n = true) ∧
      (∀ r l, r < 16 → l < 128 → b.vactive x f r l = true → pois r = true → c.vec.tilePois core f.dst r = true ∧ bitOf (c.rn ⟨.SEQ_VEC_FLAGS, core, 0⟩) 2 = true) ∧
      (∀ r l m, r < 16 → l < 128 → m < 128 → b.vactive x f r l = true → b.vactive x f r m = false → b.vec.tilePois core f.dst r = true →
        c.vec.tilePois core f.dst r = true ∧ bitOf (c.rn ⟨.SEQ_VEC_FLAGS, core, 0⟩) 2 = true) ∧
      TilesBut b c core f.dst ∧ PredsSame b c ∧ VecOnly b c)

/-- R133, R151 to R154: reductions along the lanes without BCAST and ACCUM. Lane 0 of each present row takes the reduction of the row's active elements where lane 0 is active, every other element of the destination keeps its
contents. R153: the integer reductions of at most 128 words, some of them present. ISUM's tree gives the sum of the present words modulo 2^32; IMAX gives one of the present words, and no present word is
greater. Where it rests on a choice of the model: log entries 17, 18 and 159. -/
def Obligations.ReductionsWriteResult : Prop :=
  (∀ (s : State) (core op : Nat) (f : VOps) (i : Instr),
    let b := s.blk
    let x := b.vctx core
    let elems (r : Nat) := (List.range 128).map (fun l => if b.vactive x f r l then some (b.vsrc x (decide (8 ≤ op)) f.mod f.s1 r l) else none)
    (i, op) ∈ ([(.redSum core f, 0), (.sumsq core f, 1), (.prod core f, 2), (.redMax core f, 3), (.redMin core f, 4), (.argmax core f, 5), (.argmin core f, 6),
      (.isum core f, 8), (.redImax core f, 9), (.redImin core f, 10)] : List (Instr × Nat)) →
    CoreReady b core ⟨4, op, f⟩ → bits f.mod 0 3 = 0 →
    Yields i s (fun c =>
      (∀ r v, r < b.vec.prc1 core → r < 16 → b.vactive x f r 0 = true → redValue op (elems r) = some v → c.vec.tile core f.dst r 0 = v.1) ∧
      (∀ r l, r < 16 → l < 128 → 0 < l → c.vec.tile core f.dst r l = b.vec.tile core f.dst r l) ∧
      TilesBut b c core f.dst ∧ PredsSame b c ∧ VecOnly b c)) ∧
  (∀ (xs : List (Option (BitVec 32))), xs.length ≤ 128 → xs.any Option.isSome = true →
    redValue 8 xs = some (((xs.filterMap id).foldl (fun a w => a + w) 0), 0) ∧
    ∃ m, redValue 9 xs = some (m, 0) ∧ m ∈ xs.filterMap id ∧ ∀ w ∈ xs.filterMap id, w.toInt ≤ m.toInt)

/-- R133, R155, R156: permutations. Each active element takes the source element at its permuted position: lane or row by index (LPERM, RPERM), one lane or row (LBCAST, RBCAST), or rotated within the
present length (LROT); an index out of the present shape gives +0 and raises OOR, which stays; the row of an element read from
a poisoned row, or by a poisoned row of indices, is poisoned, with POISON raised, and a poisoned row written in part stays so (R157). Where it rests on a choice of the model: log entry 20. -/
def Obligations.PermutationsMove : Prop :=
  ∀ (s : State) (core op : Nat) (f : VOps) (i : Instr),
    let b := s.blk
    let x := b.vctx core
    let from_ (r l : Nat) : Option (Nat × Nat) :=
      let idx := (b.vsrc x true f.mod f.s2 r l).toNat
      if op = 0 then (if idx < b.vec.pvl1 core then some (r, idx) else none)
      else if op = 1 then (if idx < b.vec.prc1 core then some (idx, l) else none)
      else if op = 2 then (if bits f.mod 0 7 < b.vec.pvl1 core then some (r, bits f.mod 0 7) else none)
      else if op = 3 then (if bits f.mod 0 4 < b.vec.prc1 core then some (bits f.mod 0 4, l) else none)
      else some (r, (l + bits f.mod 0 7) % b.vec.pvl1 core)
    (i, op) ∈ ([(.lperm core f, 0), (.rperm core f, 1), (.lbcast core f, 2), (.rbcast core f, 3), (.lrot core f, 4)] : List (Instr × Nat)) →
    CoreReady b core ⟨5, op, f⟩ →
    Yields i s (fun c =>
      (∀ r l, r < 16 → l < 128 → c.vec.tile core f.dst r l = if b.vactive x f r l then (match from_ r l with | some p => b.vsrc x false 0 f.s1 p.1 p.2 | none => 0)
        else b.vec.tile core f.dst r l) ∧
      (∀ r l, r < 16 → l < 128 → b.vactive x f r l = true → from_ r l = none → bitOf (c.rn ⟨.SEQ_VEC_FLAGS, core, 0⟩) 4 = true) ∧
      (∀ n, bitOf (b.rn ⟨.SEQ_VEC_FLAGS, core, 0⟩) n = true → bitOf (c.rn ⟨.SEQ_VEC_FLAGS, core, 0⟩) n = true) ∧
      (∀ r l p, r < 16 → l < 128 → b.vactive x f r l = true → from_ r l = some p → b.vsrcPois x f.s1 p.1 (fun k => k == p.2) = true →
        c.vec.tilePois core f.dst r = true ∧ bitOf (c.rn ⟨.SEQ_VEC_FLAGS, core, 0⟩) 2 = true) ∧
      (∀ r l m, r < 16 → l < 128 → m < 128 → b.vactive x f r l = true → b.vactive x f r m = false → b.vec.tilePois core f.dst r = true →
        c.vec.tilePois core f.dst r = true ∧ bitOf (c.rn ⟨.SEQ_VEC_FLAGS, core, 0⟩) 2 = true) ∧
      (∀ r l, r < 16 → l < 128 → op ≤ 1 → b.vactive x f r l = true → b.vsrcPois x f.s2 r (b.vactive x f r) = true →
        c.vec.tilePois core f.dst r = true ∧ bitOf (c.rn ⟨.SEQ_VEC_FLAGS, core, 0⟩) 2 = true) ∧
      TilesBut b c core f.dst ∧ PredsSame b c ∧ VecOnly b c)

/-- R132, R133, R142, R148: the predicate class. Each active element of the destination predicate takes the comparison, the logic, the triangle or the drop decision; P0 reads as all ones whatever is written to it, and no tile changes. Where it rests on a choice of the model: log entries 164 and 204. -/
def Obligations.PredicatesSet : Prop :=
  ∀ (s : State) (core op : Nat) (f : VOps) (i : Instr),
    let b := s.blk
    let x := b.vctx core
    let p1 (r l : Nat) := b.vec.pred core (f.s1 % 8) r l
    let p2 (r l : Nat) := b.vec.pred core (f.s2 % 8) r l
    let rc := b.vrec x (bits f.mod 12 3)
    let v (r l : Nat) : Bool :=
      if op = 0 then fcmp (bits f.mod 16 4) (fdec (b.vsrc x false f.mod f.s1 r l)) (fdec (b.vsrc x false f.mod f.s2 r l))
      else if op = 1 then icmp (bits f.mod 16 4) (b.vsrc x true f.mod f.s1 r l) (b.vsrc x true f.mod f.s2 r l)
      else if op = 2 then p1 r l && p2 r l
      else if op = 3 then p1 r l || p2 r l
      else if op = 4 then p1 r l ^^ p2 r l
      else if op = 5 then !p1 r l
      else if op = 6 then decide (l + bits f.mod 0 8 ≤ r + 16 * x.i + bits f.mod 8 8)
      else decide (bits f.mod 0 12 ≤ (b.vdraw x rc 5).field (rc.logical x.i r (128 * bits f.mod 15 8 + l)))
    (i, op) ∈ ([(.fcmp core f, 0), (.icmp core f, 1), (.pand core f, 2), (.por core f, 3), (.pxor core f, 4), (.pnot core f, 5), (.ptri core f, 6), (.drop core f, 7)] :
      List (Instr × Nat)) →
    CoreReady b core ⟨6, op, f⟩ →
    Yields i s (fun c =>
      (f.dst ≠ 0 → ∀ r l, r < 16 → l < 128 → c.vec.pred core f.dst r l = if b.vactive x f r l then v r l else b.vec.pred core f.dst r l) ∧
      (∀ r l, c.vec.pred core 0 r l = true) ∧
      (∀ core' p r l, core' < 180 → p < 8 → r < 16 → l < 128 → (core' ≠ core ∨ p ≠ f.dst) → c.vec.pred core' p r l = b.vec.pred core' p r l) ∧
      c.vec.tiles = b.vec.tiles ∧ VecOnly b c)

/-- R133, R135, R137, R142: the control class on a core that runs no program. NOP and END write nothing; SETVL and SETRC set the present shape; ACCREL returns the bank that it names, held in VECTOR state, to FREE. -/
def Obligations.ControlInstructions : Prop :=
  ∀ (s : State) (core : Nat) (f : VOps),
    let b := s.blk
    let bk := bankNo core (bits f.mod 0 2) (bits f.mod 2 1)
    slotGet b.vec.runs core = none →
    (CoreReady b core ⟨0, 0, f⟩ → Yields (.vecInstrNop core f) s (fun c => c.vec = b.vec ∧ VecOnly b c)) ∧
    (CoreReady b core ⟨0, 1, f⟩ → Yields (.endProg core f) s (fun c => c.vec = b.vec ∧ VecOnly b c)) ∧
    (CoreReady b core ⟨0, 2, f⟩ → Yields (.setvl core f) s (fun c => c.vec.pvl1 core = bits f.mod 0 8 ∧ c.vec.prc = b.vec.prc ∧ c.vec.tiles = b.vec.tiles ∧ VecOnly b c)) ∧
    (CoreReady b core ⟨0, 3, f⟩ → Yields (.setrc core f) s (fun c => c.vec.prc1 core = bits f.mod 0 5 ∧ c.vec.pvl = b.vec.pvl ∧ c.vec.tiles = b.vec.tiles ∧ VecOnly b c)) ∧
    (CoreReady b core ⟨0, 4, f⟩ → b.cores.bankState bk 0 = 2 → b.cores.bankState bk 1 = 2 →
      Yields (.accrel core f) s (fun c => c.cores.bankState bk 0 = 0 ∧ c.cores.bankState bk 1 = 0 ∧ c.cores.acc = b.cores.acc ∧ c.cores.cb = b.cores.cb ∧ c.vec = b.vec ∧
        c.ins = b.ins ∧ c.hbm = b.hbm ∧ c.parts = b.parts))

/-- R145 to R147, R149, R150: loads and stores between a tile and the core buffer. A load in a format without scales, whose bytes lie in the buffer, gives each active element the value of its code; a
store in such a format writes each active element's code at its place and no other memory. Where it rests on a choice of the model: log entries 19, 160, 165, 202, 203 and 206. -/
def Obligations.LoadStoreMove : Prop :=
  ∀ (s : State) (core : Nat) (f : VOps) (fmt : Fmt),
    let b := s.blk
    let x := b.vctx core
    let rc := b.vrec x (bits f.mod 0 3)
    let n (l : Nat) := 128 * bits f.mod 3 8 + l
    let ps := b.vstPlain x ⟨7, 1, f⟩ rc fmt (bits f.mod 11 2) (bits f.mod 3 8)
    Fmt.ofCode rc.fmt = some fmt → vScaled fmt = 0 → fmt ≠ .ext16 → fmt ≠ .acc32 →
    (CoreReady b core ⟨7, 0, f⟩ → fmt.bits ≠ 4 → (∀ r l, r < 16 → l < 128 → b.vactive x f r l = true → rc.addr x.i r (n l) fmt + ebytes fmt ≤ coreBuf) →
      Yields (.vld core f) s (fun c =>
        (∀ r l, r < 16 → l < 128 → c.vec.tile core f.dst r l = if b.vactive x f r l then
          (vload fmt (b.cores.elem core fmt (rc.addr x.i r (n l) fmt) 0) (.fin false 1) (.fin false 1)).1 else b.vec.tile core f.dst r l) ∧
        TilesBut b c core f.dst ∧ PredsSame b c ∧ VecOnly b c)) ∧
    (CoreReady b core ⟨7, 1, f⟩ → fmt = .bf16 → ps.all (fun p => decide (p.addr + 2 ≤ coreBuf)) = true →
      Yields (.vst core f) s (fun c =>
        c.cores.cb = ps.foldl (fun m p => m.writeNat (core * coreBuf + p.addr) 2 p.code) b.cores.cb ∧ c.cores.acc = b.cores.acc ∧
        (∀ a, (∀ p ∈ ps, a < core * coreBuf + p.addr ∨ core * coreBuf + p.addr + 2 ≤ a) → c.cores.cb.byte a = b.cores.cb.byte a) ∧
        c.vec.tiles = b.vec.tiles ∧ PredsSame b c ∧ c.ins = b.ins ∧ c.hbm = b.hbm ∧ c.parts = b.parts))

/-- R65 to R67, R79, R80: the array descriptors at the head of their queue. One that fails a check at issue returns its status and moves nothing; NOP returns OK; MATMUL, once its banks are the array's, runs and returns
its result word, which a sample that it has just started notes (R206, R272), and a failed check stops its half's contexts, one shared by the halves both (R73); ACC_CLEAR leaves every word of its banks +0, and where a check fails in it returns a FAULT and fences the array (R75, R76). Where it rests on a choice of the model: log entries 24, 154, 155, 156, 199, 200 and 201. -/
def Obligations.ArrayDescriptorsRun : Prop :=
  ∀ (s : State) (cl q n : Nat) (ph : ArrPhys) (f : Flight),
    let b := s.blk
    let core := (b.coreOf f).1
    let d := ArrDesc.parse f.raw
    let st := ArrDesc.check f.raw (b.ectxOf f).part (b.rn ⟨.IDENT_FEATURE_EFF, 0, 0⟩) (b.splitOthers f)
    cl < 36 → q < 16 →
    (b.engTake cl q 0 4 0 = some f → st = .ok → Does (.arrayNop cl q) s (b.returned f 0 0)) ∧
    (b.engTake cl q 0 4 0 = some f → st ≠ .ok → Does (.arrayNop cl q) s (b.returned f st.code 0)) ∧
    (b.engTake cl q 0 4 1 = some f → st ≠ .ok → Does (.matmul cl q ph n) s ((b.returned f st.code 0).rngStalls cl (some f) n (ph.fault.any (fun x => x.rng)))) ∧
    (b.engTake cl q 0 4 1 = some f → st = .ok → b.arrReady core d = true →
      let r := b.matmul cl core (b.coreOf f).2 d ph
      let noted := if (slotGet b.cores.samples cl).any (fun x => x.closed) = true then r.1 else r.1.witMark cl core d f.id f.mbatch f.shared
      Does (.matmul cl q ph n) s ((((noted.sharedStop f r.2).halfStop f r.2).returned f r.2 0).rngStalls cl (some f) n (ph.fault.any (fun x => x.rng)))) ∧
    (b.engTake cl q 0 4 1 = none → Does (.matmul cl q ph n) s b) ∧
    (b.engTake cl q 0 4 2 = some f → st ≠ .ok → Does (.accClear cl q ph) s (b.returned f st.code 0)) ∧
    (b.engTake cl q 0 4 2 = some f → st = .ok → b.arrReady core d = false → Does (.accClear cl q ph) s b) ∧
    (b.engTake cl q 0 4 2 = some f → st = .ok → b.arrReady core d = true → ph.fault = none →
      Yields (.accClear cl q ph) s (fun c => c.seq = (b.returned f 0 0).seq ∧ c.cores.cb = b.cores.cb ∧ c.ins = b.ins ∧ c.hbm = b.hbm ∧
        (∀ p ∈ d.named, ∀ m j, m < 128 → d.col0 ≤ j → j < d.col0 + d.cols → Sp.get 0 c.cores.acc (bankNo core p.1 d.bank * 2 ^ 14 + 128 * m + j) = 0) ∧
        (∀ k, (∀ p ∈ d.named, k / 2 ^ 14 ≠ bankNo core p.1 d.bank) → Sp.get 0 c.cores.acc k = Sp.get 0 b.cores.acc k))) ∧
    (∀ x, b.engTake cl q 0 4 2 = some f → st = .ok → b.arrReady core d = true → ph.fault = some x → x.rng = false → x.array < 4 → d.split = false →
      Yields (.accClear cl q ph) s (fun c => (∀ g ∈ c.seq.flights, g.id = f.id → g.ran = true ∧ g.result = some (arrResult .fault false false true false)) ∧
        bitOf (c.rf ⟨.SEQ_ARR_STATE, core, 0⟩ Fld.SEQ_ARR_STATE_FENCE_W) x.array = true ∧ bitOf (c.rf ⟨.SEQ_ARR_STATE, core, 0⟩ Fld.SEQ_ARR_STATE_FENCE_E) x.array = true ∧
        c.ins = b.ins ∧ c.hbm = b.hbm ∧ c.parts = b.parts))

/-- R66, R79, R167, R207: what the array descriptors may change. A MATMUL that no defect disturbs writes words in the banks it names alone, and leaves the core buffer, the vector engine, the memories and the partitions as they were,
but the witness buffer of its cluster, where a sampled accumulation's lines are copied (R167, R207). At the head of their queue, with their checks passed and their array free, NOP, MATMUL and ACC_CLEAR run to their result, and each leaves every
word of the banks that it does not name, the core buffer, the vector engine, HBM and the partitions as they were; NOP leaves all words, and NOP and ACC_CLEAR the insole too. Where it rests on a choice of the model: log entry 199. -/
def Obligations.MatmulFrame : Prop :=
  (∀ (b : Blk) (cl core sched : Nat) (d : ArrDesc) (ph : ArrPhys), ph.upsets = [] → d.mRows ≤ 128 → d.half ≤ 1 →
    let c := (b.matmul cl core sched d ph).1
    (∀ k, (∀ p ∈ d.named, k / 2 ^ 14 ≠ bankNo core p.1 d.bank) → Sp.get 0 c.cores.acc k = Sp.get 0 b.cores.acc k) ∧
    c.cores.cb = b.cores.cb ∧ c.cores.lines = b.cores.lines ∧ c.vec = b.vec ∧ c.ins.aglets = b.ins.aglets ∧
    (∀ k, (k / 2 ^ 27 ≠ cl ∨ k % 2 ^ 27 < 0x7A00000) → c.ins.data.byte k = b.ins.data.byte k) ∧ c.hbm = b.hbm ∧ c.parts = b.parts ∧ c.seq = b.seq) ∧
  (∀ (s : State) (cl q n : Nat) (ph : ArrPhys) (f : Flight),
    let b := s.blk
    let core := (b.coreOf f).1
    let d := ArrDesc.parse f.raw
    let same (c : Blk) : Prop := (∀ k, (∀ p ∈ d.named, k / 2 ^ 14 ≠ bankNo core p.1 d.bank) → Sp.get 0 c.cores.acc k = Sp.get 0 b.cores.acc k) ∧
      c.cores.cb = b.cores.cb ∧ c.cores.lines = b.cores.lines ∧ c.vec = b.vec ∧ c.hbm = b.hbm ∧ c.parts = b.parts ∧
      ∀ g ∈ c.seq.flights, g.id = f.id → g.ran = true ∧ g.result.isSome = true
    cl < 36 → q < 16 → ph.upsets = [] → ph.fault = none →
    ArrDesc.check f.raw (b.ectxOf f).part (b.rn ⟨.IDENT_FEATURE_EFF, 0, 0⟩) (b.splitOthers f) = .ok →
    (b.engTake cl q 0 4 0 = some f → Yields (.arrayNop cl q) s (fun c => same c ∧ c.cores.acc = b.cores.acc ∧ c.ins = b.ins)) ∧
    (b.engTake cl q 0 4 1 = some f → b.arrReady core d = true → Yields (.matmul cl q ph n) s same) ∧
    (b.engTake cl q 0 4 2 = some f → b.arrReady core d = true → Yields (.accClear cl q ph) s (fun c => same c ∧ c.ins = b.ins)))

/-- R61: integer products. While every partial sum over the bands lies in the range of an int32, the accumulator word gains the exact sum of the products, and nothing saturates. -/
def Obligations.IntegerProductsExact : Prop :=
  ∀ (w : BitVec 32) (bands : List (List Int)), (∀ x ∈ bands, x.length = 32) →
    (∀ n, n ≤ bands.length → -2147483648 ≤ w.toInt + (bands.take n).flatten.sum ∧ w.toInt + (bands.take n).flatten.sum ≤ 2147483647) →
    accTile 3 w (bands.flatten.map (fun (x : Int) => FVal.ofRat ((x : Int) : Rat))) = (BitVec.ofInt 32 (w.toInt + bands.flatten.sum), false)

/-- R137, R139, R157: the vector descriptors at the head of their queue. A fenced core takes none. One that fails a check at issue returns its status; NOP returns OK; RUN on a core whose engine is free takes the core and runs its program; a program that
waits for a FREE bank beyond the limit ends with VEC_BANK_TIMEOUT and its record. Where it rests on a choice of the model: log entries 34, 161, 204 and 205. -/
def Obligations.VectorDescriptorsRun : Prop :=
  ∀ (s : State) (cl q core : Nat) (k : Option VFault) (st : VStalls) (f : Flight) (r : Vrun),
    let b := s.blk
    let c := (b.coreOf f).1
    let chk := vecCheck f.raw (b.ectxOf f).part (b.ectxOf f).cobbler
    let w := b.vFetch core r
    let fuel := dsc f.raw 2 0 16 * (dsc f.raw 1 14 10 + 1) + 1
    let free := b.rf ⟨.SEQ_VEC_STATE, c, 0⟩ Fld.SEQ_VEC_STATE_FENCED = 0
    cl < 36 → q < 16 →
    (b.engTake cl q 8 12 0 = some f → free → f.pending = 0 → chk = .ok → Does (.vectorNop cl q) s (b.returned f 0 0)) ∧
    (b.engTake cl q 8 12 0 = some f → free → f.pending = 0 → chk ≠ .ok → Does (.vectorNop cl q) s (b.returned f chk.code 0)) ∧
    (b.engTake cl q 8 12 3 = none → Does (.vectorRun cl q k st) s b) ∧
    (b.engTake cl q 8 12 0 = some f → ¬ free → Does (.vectorNop cl q) s b) ∧
    (b.engTake cl q 8 12 3 = some f → free → f.pending = 0 → chk = .ok → slotGet b.vec.runs c = none →
      Does (.vectorRun cl q k st) s (((((b.setFlight ({ f with pending := 1 } : Flight)).vStart c cl f.raw f.recomp).vRunAll c k fuel).vSync c).vecStalls (some f)
        st.bankWait st.depStall st.tileCe st.rngStall (k.any (fun x => x.rng)))) ∧
    (core < 180 → slotGet b.vec.runs core = some r → r.result = none → r.waiting = true →
      (w.f.accs (vSources w.cls w.op)).any (fun x => (if r.split then [r.half] else [0, 1]).any (fun h =>
        decide (b.cores.bankState (bankNo core (accArr x) (accBank x)) h = 0))) = true →
      Does (.vecBankTimeout core) s (((b.vRecord core 6 0 0 0).vFinish core .bankTimeout).vSync core))

/-- R168, R171 to R175, R181, R185, R188, R192, R198 to R204: the descriptors of the cluster engines. The one at the head of its queue, taken by the command of its engine and operation,
runs as the engine's chapter says, with the insole errors that its reads meet counted first; its result word, error register and any recompute segment are noted, and it is marked where its source
or destination is the seat's aperture; the commands that draw random fields also count their stalls; RESHARD_COPY runs only behind an epoch fence, when the collectives of the old epoch have completed (R204, R363); a queue whose head is another's is left alone. Where it rests on a choice of the model: log entries 25, 54, 55, 168, 207, 208, 209 and 211. -/
def Obligations.EngineDescriptorsRun : Prop :=
  ∀ (s : State) (cl q n mode : Nat) (ph : EngPhys) (p : EPhys) (f : Flight) (i : Instr) (lo hi op : Nat) (run : Blk → ECtx → BitVec 512 → EPhys → EOut),
    let b := s.blk
    let does (r : Blk → ECtx → BitVec 512 → EPhys → EOut) : Blk :=
      Blk.engDone f (r (b.insErrs ph) (b.ectxOf f) f.raw ph.fault) (b.meetsSeat (fun c => r c (b.ectxOf f) f.raw ph.fault))
    let fenced := (∃ d ∈ b.iodsUp, b.rf ⟨.LAC_EPOCH, d, 0⟩ Fld.LAC_EPOCH_FENCING = 1) ∧ b.drained = true
    let scan := finScan (b.insErrs ph) (b.ectxOf f) f.raw ph.fault
    cl < 36 → q < 16 →
    ((i, lo, hi, op, run) ∈ ([(.save cl q ph, 0x11, 0x11, 1, stashOp), (.load cl q ph, 0x11, 0x11, 2, stashOp), (.free cl q ph, 0x11, 0x11, 3, stashOp),
        (.gather cl q ph, 0x12, 0x12, 1, gatherRun), (.scatter cl q ph, 0x12, 0x12, 2, gatherRun), (.sort cl q ph, 0x12, 0x12, 3, gatherRun), (.param cl q ph, 0x12, 0x12, 4, gatherRun),
        (.amax cl q ph, 0x13, 0x13, 2, layoutRun), (.wcopy cl q ph, 0x13, 0x13, 4, layoutRun)] : List (Instr × Nat × Nat × Nat × (Blk → ECtx → BitVec 512 → EPhys → EOut))) →
      (b.engTake cl q lo hi op = some f → Does i s ((does run).segIssueDie (clDie cl))) ∧ (b.engTake cl q lo hi op = none → Does i s b)) ∧
    (b.engTake cl q 0x10 0x17 0 = some f → Does (.engineNop ⟨cl, q⟩ p) s (Blk.engDone f (engNop b (b.ectxOf f) f.raw p))) ∧
    (b.engTake cl q 0x10 0x17 0 = none → Does (.engineNop ⟨cl, q⟩ p) s b) ∧
    (fenced → b.engTake cl q 0x13 0x13 3 = some f → Does (.reshardCopy cl q ph) s ((does layoutRun).segIssueDie (clDie cl))) ∧
    (¬ fenced → Does (.reshardCopy cl q ph) s b) ∧
    (b.engTake cl q 0x10 0x10 1 = some f → scan.st.rank = 0 → Does (.finScan cl q ph) s (Blk.engDone f scan)) ∧
    (b.engTake cl q 0x10 0x10 1 = some f → scan.st.rank ≠ 0 → Does (.finScan cl q ph) s (Blk.engDone f { scan with b := scan.b.scanNote f })) ∧
    (b.engTake cl q 0x10 0x10 2 = some f → Does (.finApply cl q ph n) s (((does finApply).segIssueDie (clDie cl)).rngStalls cl (some f) n ph.rng)) ∧
    (b.engTake cl q 0x13 0x13 1 = some f → Does (.cast cl q ph n) s (((does layoutRun).segIssueDie (clDie cl)).rngStalls cl (some f) n ph.rng)) ∧
    ((i, mode) ∈ ([(.dmaCopy cl q ph, 0), (.dmaIn cl q ph, 1), (.dmaOut cl q ph, 2), (.dmaZero cl q ph, 3)] : List (Instr × Nat)) →
      b.engTake cl q 0x14 0x17 1 = some f → (DmaDesc.parse f.raw).mode = mode → Does i s (does dmaRun))

/-- R171, R174, R193: a descriptor of another partition than its queue's ends with PARTITION, moves nothing and writes nothing; a LOAD of an entry that holds nothing completes with MISSING and moves nothing; an entry of a dropped micro-batch is retired without a descriptor being issued. Where it rests on a choice of the model: log entries 25, 30, 208 and 212. -/
def Obligations.DescriptorsThatMoveNothing : Prop :=
  (∀ (b : Blk) (x : ECtx) (raw : BitVec 512) (ph : EPhys), dsc raw 0 6 3 ≠ x.part →
    (∀ run fields, (run, fields) ∈ ([(dmaRun, dmaFields), (finScan, finFields), (finApply, finFields), (stashRun, stashFields), (gatherRun, gthFields), (layoutRun, layFields)] :
        List ((Blk → ECtx → BitVec 512 → EPhys → EOut) × List (Nat × Nat × Nat))) →
      reservedZero raw ([(0, 0, 9), (0, 16, 16), (1, 0, 8)] ++ fields) = true → (run b x raw ph).b = b ∧ (run b x raw ph).st = .partition ∧ (run b x raw ph).wr = [])) ∧
  (∀ (b : Blk) (x : ECtx) (d : StashDesc) (dst : Loc) (ph : EPhys), slotGet b.stash.ents (4096 * x.cl + d.entry) = none → stashLoad b x d dst ph = { b := b, st := .missing }) ∧
  (∀ (b : Blk) (x : ECtx) (d e : StashDesc) (dst : Loc) (ph : EPhys), d.entry = e.entry →
    stashLoad (stashFree b x e).b x d dst ph = { b := (stashFree b x e).b, st := .missing }) ∧
  ∀ (s : State) (cl q p : Nat) (e : Entry),
    let b := s.blk
    cl < 36 → q < 16 → b.queueLive cl q = some p → b.headEntry cl q = some e → e.legal = true → e.kind = 0 → (b.stepOf p).dropped e.mbatch = true →
    b.ctr cl (ctrOf (b.rf (qReg cl q) Fld.SEQ_Q_BIND) e.raw) ≠ 0 →
    Yields (.queueEntryIssue ⟨cl, q⟩ ⟨none, false⟩) s (fun c => c.seq = b.seq)

/-- R177, R178: the checks of a block on COPY and IN, in their order, with what is delivered. A bad aglet or payload CRC delivers it poisoned with AGLET_CRC; then a poison flag POISON_IN; then a tag, format or epoch that differs, poisoned with
AGLET_ID; a version that differs, or the stale flag, delivers it as read with VERSION; a block that passes is delivered as read. DMA_ZERO and DMA_COPY of one block between memories, where the addresses are granted: ZERO leaves a block of zeros with a generated aglet, COPY the block as its check delivers it, with the aglet unchanged where it passes; one block is counted. Where it rests on a choice of the model: log entries 25 and 150. -/
def Obligations.BlocksAreCheckedAndMoved : Prop :=
  (∀ (x : Block) (e : Expect),
    let a := Aglet.parse x.agl
    let crc := agletCrcOk x.agl && decide ((crc32c x.pay).toNat = a.pcrc)
    let ident := decide (a.tag = e.tag) && (decide (e.format = 0) || decide (a.format = e.format)) && (match e.epoch with | some v => decide (a.epoch = v) | none => true)
    (crc = false → x.check e = (.agletCrc, x.poisoned)) ∧
    (crc = true → a.poison = true → x.check e = (.poisonIn, x.poisoned)) ∧
    (crc = true → a.poison = false → ident = false → x.check e = (.agletId, x.poisoned)) ∧
    (∀ v, crc = true → a.poison = false → ident = true → e.version = some v → (a.version ≠ v ∨ a.stale = true) → x.check e = (.version, x)) ∧
    (crc = true → a.poison = false → ident = true → e.version = none → x.check e = (.ok, x)) ∧
    (∀ v, crc = true → a.poison = false → ident = true → e.version = some v → a.version = v → a.stale = false → x.check e = (.ok, x))) ∧
  ∀ (b : Blk) (x : ECtx) (raw : BitVec 512) (a c : Nat),
    let d := DmaDesc.parse raw
    let agl : Aglet := { pcrc := 0, tag := d.tag, version := d.version, format := d.format, flags := 0, epoch := d.epoch, kind := d.kind, samples := d.samples }
    let b1 := b.bump ⟨.SEQ_DMA_BLK_CNT, x.cl, 0⟩
    let ex : Expect := { tag := d.tag, format := d.format, epoch := some d.epoch, version := if d.chkVer then some d.version else none }
    headCheck x raw dmaFields = none → dsc raw 0 0 6 = 1 → d.blocks = 1 → d.sStride = 0 → d.dStride = 0 → locOf x.cl d.dst = some (.hbm (4096 * a)) →
    b.locOk x (.hbm (4096 * a)) 4096 = true → b.pkg.sku.seat = false →
    (d.mode = 3 → dmaRun b x raw none = { b := b1.hbmPut a (Block.make (zeros 4096) agl false true false x.replay), wr := [.hbm (4096 * a)] }) ∧
    (d.mode = 0 → locOf x.cl d.src = some (.hbm (4096 * c)) → b.locOk x (.hbm (4096 * c)) 4096 = true → (b.hbmGet c).isSome = true →
      ((b.locBlock (.hbm (4096 * c))).check ex).1 = .ok →
      dmaRun b x raw none = { b := b1.hbmPut a (b.locBlock (.hbm (4096 * c))), wr := [.hbm (4096 * a)] })
/-- R255 to R259, R261: the sequencer. An entry whose wait is passed, whose phase is open and for which the scoreboard has room enters it, patched, as the newest descriptor, and its
queue moves on; a WAIT entry retires; each reloads its counter where it asks. A returned descriptor of status OK leaves the scoreboard and lowers its counter by
one; another status is acted on. An entry that may not issue stays; FIN_APPLY, the cobbler's own too, waits for phase UPD (R187); an entry of a dropped micro-batch, or of a skipped update, retires without issue. An entry that fails its parity is a fault of the sequencer (R381), and a descriptor of the
cobbler's own takes the queue's engine beside the program (R139, R170). Where it rests on a choice of the model: log entries 52, 157, 158 and 223. -/
def Obligations.QueueEntriesIssue : Prop :=
  ∀ (s : State) (cl q p n res : Nat) (e : Entry) (f : Flight) (cf : Bool) (mine : BitVec 512) (own : Option (BitVec 512)),
    let b := s.blk
    let engine := b.rf (qReg cl q) Fld.SEQ_Q_BIND
    let after := if e.waitEn && e.rearm then b.rearm cl e.ctr else b
    let k := ctrOf (b.bindOf f) f.raw
    (cl < 36 → q < 16 → b.queueLive cl q = some p → b.headEntry cl q = some e → e.legal = true →
      (e.kind = 0 → b.passes p cl q e = false → b.entryOpen p engine e = true → b.waitOk cl e = true → b.boardRoom cl q = true → b.unitUp (codeUnit cl engine) = true →
        Does (.queueEntryIssue ⟨cl, q⟩ ⟨none, false⟩) s ((after.advance cl q e).launch p cl q e false 0) ∧
        Yields (.queueEntryIssue ⟨cl, q⟩ ⟨none, false⟩) s (fun c => c.hbm = b.hbm ∧ c.ins = b.ins ∧ c.parts = b.parts ∧ c.seq.store = b.seq.store ∧
          ∃ g : Flight, c.seq.flights = b.seq.flights ++ [g] ∧ g.id = b.seq.next ∧ g.cl = cl ∧ g.queue = q ∧ g.raw = (after.advance cl q e).patched p cl e ∧
            g.mbatch = e.mbatch ∧ g.shared = e.shared ∧ g.phase = e.phase ∧ (g.result = none ↔ opKnown engine g.raw = true))) ∧
      (e.kind = 0 → b.passes p cl q e = false → (b.entryOpen p engine e = false ∨ b.waitOk cl e = false ∨ b.boardRoom cl q = false) →
        Does (.queueEntryIssue ⟨cl, q⟩ ⟨none, false⟩) s b) ∧
      (e.kind = 0 → b.passes p cl q e = true → Does (.queueEntryIssue ⟨cl, q⟩ ⟨none, false⟩) s
        (((b.advance cl q e).slotEnd cl e.phase e.slot e.mbatch).signal cl (ctrOf engine e.raw) e.mbatch e.shared)) ∧
      (e.kind = 1 → b.passes p cl q e = false → b.phaseOpen p e.phase = true → b.waitOk cl e = true →
        Does (.waitEntry cl q) s ((after.advance cl q e).slotEnd cl e.phase e.slot e.mbatch)) ∧
      (e.kind = 1 → b.passes p cl q e = true → Does (.waitEntry cl q) s ((b.advance cl q e).slotEnd cl e.phase e.slot e.mbatch)) ∧
      (e.kind = 1 → b.passes p cl q e = false → b.waitOk cl e = false → Does (.waitEntry cl q) s b)) ∧
    (cl < 36 → q < 16 → b.queueLive cl q = some p → b.headEntry cl q = some e →
      Does (.queueEntryIssue ⟨cl, q⟩ ⟨own, true⟩) s ((b.unitFault (clUnit cl 15) .fault true e.mbatch e.shared false).flowsFollow b)) ∧
    (cl < 36 → q < 16 → b.up (clDie cl) = true → b.boardRoom cl q = true → b.unitUp (codeUnit cl engine) = true → b.ownOpen cl engine mine = true →
      Yields (.queueEntryIssue ⟨cl, q⟩ ⟨some mine, false⟩) s (fun c => (opKnown engine mine = true → c.regs = b.regs) ∧ c.hbm = b.hbm ∧ c.ins = b.ins ∧ c.parts = b.parts ∧
        ∃ g : Flight, c.seq.flights = b.seq.flights ++ [g] ∧ g.id = b.seq.next ∧ g.cl = cl ∧ g.queue = q ∧ g.raw = mine ∧ g.cobbler = true ∧
          (g.result = none ↔ opKnown engine mine = true))) ∧
    (cl < 36 → q < 16 → b.ownOpen cl engine mine = false → Does (.queueEntryIssue ⟨cl, q⟩ ⟨some mine, false⟩) s b) ∧
    (cl < 36 → (b.flightsOf cl)[n]? = some f → f.result = some res → finStopped (b.bindOf f) f.raw (res % 256) = false → (res % 256 < 0x20 ∨ res % 256 = 0x32) →
      Does (.engineCompletion cl n cf) s ((b.retire f res cf).flowsFollow b)) ∧
    (cl < 36 → (b.flightsOf cl)[n]? = some f → f.result = some 0 → f.parent = 0 → f.record = false → f.late = false → (∀ g ∈ b.seq.flights, g.seg = []) →
        k < 255 → b.ctr cl k ≠ 0 →
      Yields (.engineCompletion cl n cf) s (fun c => c.seq.flights = b.seq.flights.filter (fun g => g.id != f.id) ∧ c.ctr cl k = b.ctr cl k - 1 ∧ c.hbm = b.hbm ∧ c.ins = b.ins)) ∧
    (cl < 36 → (b.flightsOf cl)[n]? = some f → f.result = none → Does (.engineCompletion cl n cf) s b)

/-- R78, R160, R161, R176, R190, R287: a context of an aborted attempt is discarded and completes DISCARDED, with the flags that it has raised, counted on its core and left in its engine's error register; a sample of it is abandoned; what an array, a vector program or an engine has begun leaves its
banks, stored lines or written blocks poisoned, and an engine stopped in the middle those that it has done. A FIN_APPLY, a descriptor whose check has failed and one that completed at once are left. A stopped FIN_APPLY goes on
from the next unit where a twin has written the one it stopped at, and from the same unit where its gradient passes its check again. Where it rests on a choice of the model: log entries 157, 169, 179 and 211. -/
def Obligations.ContextsEnd : Prop :=
  ∀ (s : State) (cl q on n k m : Nat) (done : Option Nat) (fetched : Option (List Byte × BitVec 128)) (ph : EngPhys) (f : Flight),
    let b := s.blk
    let code := b.bindOf f
    let left (f : Flight) : Blk := (b.discardEffect f).setFlight { f with ran := true, result := some (b.discardWord f) }
    let word (o : EOut) : Nat := if o.st = .fault then 0x32 + 256 * o.fl else o.st.code
    let next (k : Nat) : Flight := { f with raw := finFrom f.raw k, skipped := false, ran := false, errIdx := 0, result := none, onCl := some on }
    (cl < 36 → (b.flightsOf cl)[n]? = some f → (b.stepOf ((b.partOf cl).getD 0xFF)).aborted = true → b.kept f = false →
      ((f.ran = true ∨ bindKind code < 2 ∨ done = none) →
        Does (.contextDiscard cl ⟨n, done⟩) s ((if f.result.isNone then (left f).descCount f else left f).discardErr f (b.discardWord f))) ∧
      (f.ran = false → bindKind code = 2 → Does (.contextDiscard cl ⟨n, some m⟩) s (((b.discardAt f m).b.discardErr f (word (b.discardAt f m))).setFlight
        { f with ran := true, result := some (word (b.discardAt f m)) }))) ∧
    (cl < 36 → (b.flightsOf cl)[n]? = some f → b.kept f = true → Does (.contextDiscard cl ⟨n, done⟩) s b) ∧
    ((code = 0x10 ∧ opOf code f.raw = 2) ∨ (∃ r, f.result = some r ∧ (r % 256 = 0x30 ∨ r % 256 = 0x31)) → b.kept f = true) ∧
    (b.discardWord f % 256 = 0x32) ∧ (b.begun f = false → b.discardEffect f = b.witDrop f) ∧
    (cl < 36 → q < 16 → on < 36 → clDie on = clDie cl → b.unitUp (clUnit on 5) = true →
      b.seq.flights.find? (fun g => g.cl == cl && g.queue == q && g.skipped) = some f →
      ((b.unitTwinned f = true ∧ k = f.errIdx + 1) ∨
        (b.unitTwinned f = false ∧ b.unitBlockOk (((b.stoppedAt f).2[2]?).getD none) (b.stoppedAt f).1.tagG 0x01 (b.stoppedAt f).1.ver = true ∧ k = f.errIdx)) →
      dsc (finFrom f.raw k) 3 0 24 ≠ 0 →
      Does (.finApplyReissue cl q on fetched ph) s
        ((Blk.engDone (next k) (finApply ((b.setFlight (next k)).insErrs ph) (b.ectxOf (next k)) (finFrom f.raw k) ph.fault)).rngFault (next k) ph.rng))

/-- R265, R266, R281, R584: the feed and the start of an attempt. A ring entry that carries the wanted step, its tokens and batch record readable, is taken; an empty ring is
waited for, and the wait counted. An attempt starts every live cluster afresh, restarts the contexts of the collectives, takes the next attempt number, and raises the barrier
ramp; one that is to halt is aborted at its start, and one that a peer has already aborted starts aborted; drops that notices brought for it before its start are its own (R285); a sequencer fault that discarded
descriptors have left is treated before it (R258). The flows of a lacing engine that the start fences move on (R387). A parity error of the registers that every cluster holds alike is a fault of its holder (R403). Where it rests on a choice of the model: log entries 61, 65, 133, 221 and 223. -/
def Obligations.FeedAndAttempts : Prop :=
  ∀ (s : State) (p waited u : Nat) (o : LongOp) (l : Last) (x : Part),
    let b := s.blk
    let st := b.stepOf p
    let prod := b.rn ⟨.DBL_FEED_PROD, 0, p⟩ % 65536
    let there := b.pins.linkUp && decide ((prod + 65536 - st.fed % 65536) % 65536 ≠ 0)
    let take := b.feedTake p o l st.fed (b.sOf p + (st.fed - st.cons)) false
    let attempt := if st.state = 0 then 0 else st.attempt + 1
    let drop := if st.state = 0 then [] else st.drop
    let b1 := if attempt = 0 then b.onStep p (fun s => { s with pathBlk := [] }) else b
    let gone := st.aborts.contains (b.nextAttempt p)
    let count (c : Blk) (cl : Nat) : Blk := if st.state = 2 ∧ st.outcome = .replay then c.bump ⟨.SEQ_REPLAY_CNT, cl, 0⟩ else c
    let begun := (((b1.liveClusters p).foldl (fun c cl => (count c cl).clusterStart p cl) b1).lacStart p attempt).onStep p (fun s =>
      { s.begin attempt drop with
        aborted := gone, allIn := gone, aborts := s.aborts.filter (fun x => x != b.nextAttempt p), dropNotes := s.dropNotes.filter (fun x => x.1 != b.nextAttempt p) })
    let started := (st.dropNotes.filter (fun x => x.1 == b.nextAttempt p)).foldl (fun c x => (c.dropUnion p x.2).flag p fDrop) begun
    let ready := (started.crossCheck p).barrierAll
    p < 8 → b.part p = some x →
    (b.feedOp p = some o → b.lastOf p = some l → o.entries ≠ 0 → o.st = .running →
      (st.fed < st.cons + 2 → there = true → (take.stepOf p).fed ≠ st.fed → Does (.feedFetch p false waited) s (feedCond take p false)) ∧
      (st.fed = st.cons → there = false →
        Does (.feedFetch p false waited) s (((feedCond b p true).liveClusters p).foldl (fun c cl => c.bump ⟨.SEQ_FEED_WAIT, cl, 0⟩ waited) (feedCond b p true))) ∧
      (st.cons + 2 ≤ st.fed → Does (.feedFetch p false waited) s b)) ∧
    (b.mayStart p = true → x.recast = [] → (∀ a ∈ x.twins, a.fin = true) → b.owedBy p = [] → st.reclick = false → b.recorded p = none → st.abortNext = 0 →
      Does (.attemptStart ⟨p, []⟩) s (ready.flowsFollow b) ∧
      (unitNo u = true → Does (.attemptStart ⟨p, [u]⟩) s ((if ready.holdsShared p u then
        ready.unitFault u .fault (decide (unitSlot u % 16 ≠ 13)) 0xFFFF true false else ready).flowsFollow b))) ∧
    (b.mayStart p = true → b.owedBy p = [] → st.reclick = false → b.recorded p = none → st.abortNext ≠ 0 →
      Does (.attemptStart ⟨p, []⟩) s
        ((((feedCond started p false).onStep p (fun s => { s with flags := fHalt, haltWhy := s.abortNext })).abortAttempt p).flowsFollow b)) ∧
    (b.mayStart p = true → b.owedBy p ≠ [] → st.abortNext ≠ 0 → Does (.attemptStart ⟨p, []⟩) s ((b.settle p).flowsFollow b)) ∧
    (b.mayStart p = false → Does (.attemptStart ⟨p, []⟩) s b)

/-- R266: the four acts of an attempt's start on a cluster, and their frame: SEQ_RNG_STEP holds the step, every counter of the schedule its first value, every queue stands at its
first entry, the underflow counts are clear; no other cluster's registers change. Where it rests on a choice of the model: log entry 65. -/
def Obligations.ClusterStartsAfresh : Prop :=
  ∀ (b : Blk) (p cl : Nat), cl < 36 → (∀ v, b.variantOf p = some v → ∀ sch ∈ v.sched, ∀ z ∈ sch.ctrs, z.1 < 256) →
    (b.clusterStart p cl).rn ⟨.SEQ_RNG_STEP, cl, 0⟩ = b.sOf p % 2 ^ 32 ∧
    (∀ q, q < 16 → (b.clusterStart p cl).rf (qReg cl q) Fld.SEQ_Q_POS = 0 ∧
      (b.clusterStart p cl).rf (qReg cl q) Fld.SEQ_Q_LENGTH = b.rf (qReg cl q) Fld.SEQ_Q_LENGTH ∧ (b.clusterStart p cl).rf (qReg cl q) Fld.SEQ_Q_BIND = b.rf (qReg cl q) Fld.SEQ_Q_BIND) ∧
    (∀ v sch n i r, b.variantOf p = some v → v.sched.find? (fun (z : Sched) => z.cl == cl) = some sch → n < 255 → (sch.ctrs.map (fun z => z.1)).Nodup → (n, i, r) ∈ sch.ctrs →
      (b.clusterStart p cl).ctr cl n = i % 65536 ∧ (b.clusterStart p cl).rf (ctrReg cl n) Fld.SEQ_CTR_RELOAD = r % 65536) ∧
    (b.clusterStart p cl).rn ⟨.FIN_UF_FLUSHED, cl, 0⟩ = 0 ∧ (b.clusterStart p cl).rn ⟨.FIN_UF_WRITTEN, cl, 0⟩ = 0 ∧
    (∀ g : RegRef, regOk g = true → g.at_ ≠ cl → (b.clusterStart p cl).rd g = b.rd g) ∧
    (b.clusterStart p cl).hbm = b.hbm ∧ (b.clusterStart p cl).ins = b.ins ∧ (b.clusterStart p cl).parts = b.parts ∧ (b.clusterStart p cl).seq = b.seq
/-- R272 to R276, R285, R287, R289, R371, R372: the messages of a closing. The closing word of a package whose entries have retired goes out with the flags of its attempt; a child's word or
list enters its parent's count of children; the root's combined word is the result, and a member takes its parent's; a member that hears nothing halts with CLOSING_TIMEOUT; a drop notice of the attempt in force enters the drop set, one of an attempt to come is kept for its start, and each is acknowledged; an acknowledgement ends
its wait; an abort of the attempt in force discards its contexts and passes down the tree, and one of an attempt that this member has not started yet is kept for its start. A message for another member is relayed. Where it rests on a choice of the model: log entries 56, 66, 68, 132 and 217. -/
def Obligations.ClosingMessagesAct : Prop :=
  ∀ (s : State) (p e : Nat) (m : Msg) (l : Last),
    let b := s.blk
    let st := b.stepOf p
    let got := b.eyeTake e (b.takeVc e m.vc)
    let here := b.eyeExists e = true ∧ b.miswired e = false ∧ b.msgArrived e m = true ∧ b.partOfEye e = some p ∧ l.cut.any (fun c => c.eye == e) = true
    let kid := m.src ∈ childRanks l.rank l.members
    let passed := (((if l.rank = 0 then [] else [parentRank l.rank]) ++ childRanks l.rank l.members).filter (fun r => decide (r ≠ m.src))).foldl
      (fun (d : Blk) r => d.msgSend p { (d.mkMsg p 0x46 r 0) with step := m.step, attempt := m.attempt }) got
    p < 8 → e < 48 → b.lastOf p = some l →
    (st.state = 1 → st.sent = false → st.held = false → b.wordReady p = true →
      (b.recorded p = none → st.drop = [] → st.carry = false →
        Does (.closingWordSend p) s ((b.onStep p (fun t => { t with
          state := 2, outcome := .none, sent := true, round := 1, dropNow := []
          local_ := cword st.flags st.attempt (if decide (st.flags &&& fHalt ≠ 0) then st.haltWhy else 0) (b.sOf p) st.count })).closeTry p)) ∧
      (st.carry = true → Yields (.closingWordSend p) s (fun c => cwHas (c.stepOf p).local_ fFault = true ∧ (c.stepOf p).carry = false))) ∧
    ((st.state ≠ 1 ∨ st.sent = true ∨ b.wordReady p = false) → Does (.closingWordSend p) s b) ∧
    (m.kind = 0x40 → here → m.dst = l.rank → kid →
      Does (.closeWord e m) s ((got.onStep p (fun t => { t with kids := t.kids.filter (fun x => x.1 != m.src) ++ [(m.src, m.words.headD 0)] })).closeTry p)) ∧
    (l.rank = 0 → st.rootOut = true → st.sent = true → st.round = 3 → Does (.closeResult p none) s (b.takeResult p st.result)) ∧
    (m.kind = 0x41 → here → m.dst = l.rank → l.rank ≠ 0 → m.src = parentRank l.rank → st.sent = true → st.round = 3 → m.cseq = 3 →
      Does (.closeResult p (some (e, m))) s (got.takeResult p (m.words.headD 0))) ∧
    (m.kind = 0x42 → here → m.dst = l.rank → kid → m.names.length < 470 → slotGet st.kidNames (m.src + 2 ^ 20) = none → m.src < 2 ^ 20 →
      Does (.nameList e m) s ((got.onStep p (fun t => { t with
        kidNames := t.kidNames.filter (fun x => x.1 != m.src + 2 ^ 20 && x.1 != m.src) ++ [(m.src, m.names)] })).nameTry p)) ∧
    (l.rank = 0 → st.rootOut = true → st.round = 2 →
      Does (.nameResult p none) s (((childRanks l.rank l.members).foldl (fun d r => d.sendNames p 0x43 r st.names) b).namesDone p)) ∧
    (st.state = 2 → st.sent = true → st.outcome = .none → Does (.closeTimeout p) s (b.haltJob p 9)) ∧
    (st.outcome ≠ .none → Does (.closeTimeout p) s b) ∧
    (m.kind = 0x44 → here → m.dst = l.rank → b.attemptAhead p m.step m.attempt = false → (st.open? = false ∨ m.step ≠ b.sOf p % 65536 ∨ m.attempt ≠ st.attempt) →
      Does (.dropNotice e m) s (got.msgSend p (got.mkMsg p 0x45 m.src 0))) ∧
    (m.kind = 0x44 → here → m.dst = l.rank → b.attemptAhead p m.step m.attempt = true →
      Does (.dropNotice e m) s (let c := got.onStep p (fun t => { t with dropNotes := t.dropNotes ++ [((m.step, m.attempt), m.names.map (fun r => (r.mb, r.samples)))] })
        c.msgSend p (c.mkMsg p 0x45 m.src 0))) ∧
    (m.kind = 0x44 → here → m.dst = l.rank → m.step = b.sOf p % 65536 → m.attempt = st.attempt → st.open? = true →
      Does (.dropNotice e m) s (let c := (got.dropUnion p (m.names.map (fun r => (r.mb, r.samples)))).flag p fDrop; c.msgSend p (c.mkMsg p 0x45 m.src 0))) ∧
    (m.kind = 0x45 → here → m.dst = l.rank →
      Does (.dropAck e m) s (got.onStep p (fun t => { t with notices := t.notices.filter (fun r => decide (r ≠ m.src)) })) ∧
      Yields (.dropAck e m) s (fun c => m.src ∉ (c.stepOf p).notices)) ∧
    (m.kind = 0x46 → here → m.dst = l.rank → m.step = b.sOf p % 65536 → m.attempt = st.attempt → st.open? = true →
      Does (.attemptAbort e m) s ((passed.onStep p (fun t => { t with aborted := true, allIn := true })).discardAll p)) ∧
    (m.kind = 0x46 → here → m.dst = l.rank → m.step = b.sOf p % 65536 → (st.state = 0 ∨ st.attempt < m.attempt) →
      Does (.attemptAbort e m) s (passed.onStep p (fun t => { t with aborts := t.aborts ++ [(m.step, m.attempt)] }))) ∧
    (m.kind = 0x46 → here → m.dst ≠ l.rank →
      Does (.attemptAbort e m) s (got.relayMsg p e m))

/-- R273, R371: a node combines its own closing word with a child's. Each flag is the OR of both, the reason the larger, the count the sum, held at its largest value; MISMATCH is set where attempt or step
differ or the sum passes that value; and the order of the children does not matter. -/
def Obligations.ClosingWordsCombine : Prop :=
  ∀ (own kid kid' : Nat),
    let w := cwCombine own kid
    let bad := cwAttempt own ≠ cwAttempt kid ∨ cwStep own ≠ cwStep kid ∨ 0xFFFFFFFF < cwCount own + cwCount kid
    (∀ i, i < 6 → bitOf w i = (bitOf own i || bitOf kid i)) ∧ (bitOf w 6 = true ↔ bitOf own 6 = true ∨ bitOf kid 6 = true ∨ bad) ∧ bitOf w 7 = false ∧
    cwReason w = max (cwReason own) (cwReason kid) ∧ cwAttempt w = cwAttempt own ∧ cwStep w = cwStep own ∧ cwCount w = min (cwCount own + cwCount kid) 0xFFFFFFFF ∧
    cwCombine (cwCombine own kid) kid' = cwCombine (cwCombine own kid') kid

/-- R276: the outcome of a closing is that of the first row of the table that holds, for every result of the rounds. `w1` is the result of round 1, `w3` that of round 3 where it ran; an update's count that is zero or not divisible
is the matter of R277. -/
def Obligations.ClosingOutcome : Prop :=
  ∀ (w1 : Nat) (w3 : Option Nat) (names : List NameRec) (budget maxA a replica : Nat),
    let v := decideOutcome w1 w3 names budget maxA a replica
    let mismatch := cwHas w1 fMismatch = true ∨ ∃ w, w3 = some w ∧ cwHas w fMismatch = true
    let fault := cwHas w1 fFault = true
    let stale := cwHas w1 fStale = true
    let named := (∃ r ∈ names, r.kind = 2) ∧ ∀ r ∈ names, r.kind ≠ 3
    let dirty := ∃ w, w3 = some w ∧ cwHas w fDirty = true
    let next (o : Outcome) : Prop := (a + 1 < maxA → v.out = o) ∧ (maxA ≤ a + 1 → v.out = .halt ∧ v.why = 5)
    let counted := cwCount (w3.getD w1) ≠ 0 ∧ cwCount (w3.getD w1) % replica = 0
    (mismatch → v.out = .halt ∧ v.why = 6) ∧
    (¬mismatch → cwHas w1 fHalt = true → v.out = .halt ∧ v.why = cwReason w1) ∧
    (¬mismatch → cwHas w1 fHalt = false →
      ((fault ∨ stale) → a < budget → next .replay) ∧
      (fault → budget ≤ a → ¬stale → named → next .dropAttempt) ∧
      (fault → budget ≤ a → (stale ∨ ¬named) → v.out = .halt ∧ v.why = 3) ∧
      (¬fault → stale → budget ≤ a → v.out = .halt ∧ v.why = 4) ∧
      (¬fault → ¬stale → dirty → next .dropAttempt) ∧
      (¬fault → ¬stale → ¬dirty → cwHas w1 fNonfinite = true → v.out = .skip) ∧
      (¬fault → ¬stale → ¬dirty → cwHas w1 fNonfinite = false → cwHas w1 fDrop = true → counted → v.out = .applyDrop ∧ v.n = cwCount (w3.getD w1) / replica) ∧
      (¬fault → ¬stale → ¬dirty → cwHas w1 fNonfinite = false → cwHas w1 fDrop = false → counted → v.out = .apply ∧ v.n = cwCount (w3.getD w1) / replica))

/-- R268, R269, R297: the step boundary. Once every UPD entry has retired, and where a change of outliving state waits the POST entries too, the step number advances by one, the step ends and is counted, and the digests are kept with
its outcome; before that STEP_BOUNDARY changes nothing. Where it rests on a choice of the model: log entries 137 and 227. -/
def Obligations.StepBoundaryAdvances : Prop :=
  ∀ (s : State) (p ms : Nat) (x : Part),
    let b := s.blk
    p < 8 → b.part p = some x →
    (b.atBoundary p = false → Does (.stepBoundary p ms) s b) ∧
    (b.atBoundary p = true → x.finLeft = [] → b.boundaryWork p (x.s + 1) = false → b.mbx.ops = [] → b.units.badBlk = [] →
      Yields (.stepBoundary p ms) s (fun c => c.sOf p = x.s + 1 ∧ (c.stepOf p).ended = x.step.ended + 1 ∧ (c.stepOf p).cons = x.step.cons + 1))
/-- R342 to R345, R349, R353 to R358, R363, R366: collectives. The first zero of an arm counter is reported; an armed collective whose turn has come starts, counted with its live samples, and does all that has arrived for it; one whose addresses lie outside the partition completes
LAC_ADDRESS and moves nothing; one with a flow that no usable eyelet leads to completes LAC_NO_ROUTE (R365); one whose flows have finished completes; one that waits for its predecessor, or for a chunk, too long ends with its timeout; a drained RESHARD moves, advances the epoch and opens the fence. Where it rests on a choice of the model: log entries 74, 178, 215, 219 and 229. -/
def Obligations.CollectivesRun : Prop :=
  ∀ (s : State) (p q t op : Nat) (i : Instr) (x : CollAt) (w : Flow) (y : Part) (lf : Bool),
    let b := s.blk
    let live := (b.stepOf p).count
    let begun := ((b.onColl p q (fun c => { c with started := true, live := live, ver := b.collVersion x })).onPart p (fun z => { z with flows := z.flows.map (fun (v : Flow) =>
      if v.relay || v.cseq != q then v else { v with state := 2, version := (b.collVersion x).getD 0 }) })).lacShow
    p < 8 → b.collAt p q = some x →
    ((i, op) ∈ ([(.allReduce p q lf, 1), (.reduceScatter p q lf, 2), (.allGather p q lf, 3), (.broadcast p q lf, 4), (.send p q lf, 5), (.recv p q lf, 6),
        (.a2aDispatch p q lf, 7), (.a2aCombine p q lf, 8), (.put p q lf, 9)] : List (Instr × Nat)) → x.d.op = op →
      (b.mayColl x = true → b.collAddrOk x = true → lf = false → Does i s (match (begun.flowsOf p q).find? (fun v => begun.cutTo p v.peer == []) with
        | some v => (begun.collNote p q lacNoRoute v.peer 0).collEnd p q
        | none => match begun.collAt p q with | none => begun | some z => (((begun.earlyCheck z).ownMove z).earlyAcks p q).collRun p q)) ∧
      (b.mayColl x = true → b.collAddrOk x = true → lf = true → Does i s (begun.lacFaultOn p q (b.leadOf q))) ∧
      (b.mayColl x = true → b.collAddrOk x = false →
        Does i s (((b.onColl p q (fun c => { c with started := true })).collNote p q lacAddress 0xFFFF 0).collEnd p q) ∧
        ((∀ t ∈ x.d.sigs, tripOk t = false) → Yields i s (fun c => c.hbm = b.hbm))) ∧
      (b.mayColl x = false → Does i s b)) ∧
    (t < 4 → tripOk (x.d.arms.getD t 0) = true → (b.stepOf p).aborted = false → b.ctr (tripCl (x.d.arms.getD t 0)) (tripCtr (x.d.arms.getD t 0)) = 0 →
      b.fencing (b.leadOf q) = false → b.partOf (tripCl (x.d.arms.getD t 0)) = some p →
      Does (.collectiveArmReport p q t) s (let c := b.onColl p q (fun c => { c with reports := setBit c.reports t true })
        if (c.collAt p q).any c.armed = true then
          c.onPart p (fun z => { z with flows := z.flows.map (fun (v : Flow) => if v.relay || v.cseq != q || v.state != 0 then v else { v with state := 1 }) })
        else c)) ∧
    (t < 4 → b.ctr (tripCl (x.d.arms.getD t 0)) (tripCtr (x.d.arms.getD t 0)) ≠ 0 → Does (.collectiveArmReport p q t) s b) ∧
    (x.st.started = true → x.st.complete = false → b.collDone x = true → Does (.collectiveComplete p q) s (b.collEnd p q)) ∧
    (b.collDone x = false → Does (.collectiveComplete p q) s b) ∧
    (b.armed x = true → x.st.started = false → x.st.complete = false → x.d.pred ≠ q → b.part p = some y → (∀ c ∈ y.colls, c.cseq = x.d.pred → c.started = false) →
      Does (.collectiveOrderTimeout p q) s (((b.bump ⟨.LAC_ORDER_TMO_CNT, b.leadOf q, 0⟩).collNote p q lacOrder 0xFFFF 0).collEnd p q)) ∧
    (q ≠ 0xFFFF → x.st.started = true → x.st.complete = false → (b.flowsOf p q).find? (fun v => b.outstanding x v) = some w →
      Does (.lacTimeout p q) s (((b.bump ⟨.LAC_TIMEOUT_CNT, b.leadOf q, 0⟩).collNote p q lacTimeout w.peer w.done).collEnd p q)) ∧
    (b.drained = false → Does (.reshardDrained p) s b) ∧
    (∀ o z, b.opOn p (fun k => k == .reshard) = some o → b.part p = some y → y.reshard = some z → o.st = .running → o.ended = false → b.drained = true → z.moves = [] →
      Yields (.reshardDrained p) s (fun c => ∀ d, 4 ≤ d → d < 10 → b.up d = true → z.epoch < 4096 →
        c.rf ⟨.LAC_EPOCH, d, 0⟩ Fld.LAC_EPOCH_EPOCH = z.epoch ∧ c.rf ⟨.LAC_EPOCH, d, 0⟩ Fld.LAC_EPOCH_FENCING = 0))

/-- R346, R347, R353, R354, R359 to R362: data messages. The eyelet is one that the cut names, and the message stands there. A chunk of an earlier step or attempt is discarded and counted; a later one stays in the link buffer; one of the step and attempt in force goes into its flow, or, held already, has
its acknowledgement repeated; an acknowledgement moves its flow on; the counts of a dispatch are kept; a partner's chunk of an earlier attempt is counted as stale, one from another member is refused, one taken before has its acknowledgement repeated, and a securing's directory block begins its count anew; an older member's step status becomes its closing word. R347, R350, R351: the age of a chunk is judged by step, modulo 65,536 over a window of 32,768, then by attempt: nothing is later or earlier than itself, and of two places, not opposite in the window, one is later exactly where the other is earlier. An integer sum over the members
does not depend on the order of the contributions, and saturates. Where it rests on a choice of the model: log entries 42, 67, 134, 210, 215 and 217. -/
def Obligations.ChunksAreJudgedAndSummed : Prop :=
  (∀ (s : State) (e p kind : Nat) (m : Msg) (i : Instr) (x : CollAt) (l : Last) (w : Flow),
    let b := s.blk
    let got := b.eyeTake e (b.takeVc e m.vc)
    let age := chunkAge w.step w.attempt m.step m.attempt
    e < 48 → b.eyeExists e = true → b.miswired e = false → b.msgArrived e m = true → b.partOfEye e = some p → b.lastOf p = some l →
    l.cut.any (fun c => c.eye == e) = true → m.dst = l.rank →
    ((i, kind) ∈ ([(.contrib e m false, 1), (.partialSum e m false, 2), (.result e m false, 3), (.a2aRows e m false, 4)] : List (Instr × Nat)) → m.kind = kind →
      b.collAt p m.cseq = some x →
      (b.rxFlow x m = none → Does i s got) ∧
      (b.rxFlow x m = some w →
        (age = 1 → b.epochAhead x m = false → Does i s (got.bump ⟨.LAC_STALE_CHUNK_CNT, eyeDie e, 0⟩)) ∧
        (age = 2 → Does i s b) ∧ (b.epochAhead x m = true → Does i s b) ∧
        (age = 0 → b.epochAhead x m = false → x.st.complete = false → Does i s (got.chunkTake x w e m)) ∧
        (age = 0 → b.epochAhead x m = false → m.chunk < w.done → Does i s (got.cackSend x w)))) ∧
    (m.kind = 5 → b.collAt p m.cseq = some x → b.rxFlow x m = some w → age = 1 → Does (.a2aCount e m) s (got.bump ⟨.LAC_STALE_CHUNK_CNT, eyeDie e, 0⟩)) ∧
    (m.kind = 5 → b.collAt p m.cseq = some x → b.rxFlow x m = some w → age = 2 → Does (.a2aCount e m) s b) ∧
    (m.kind = 5 → b.collAt p m.cseq = some x → b.rxFlow x m = some w → age = 0 →
      Does (.a2aCount e m) s ((got.onColl p m.cseq (fun y => { y with
        counts := y.counts.filter (fun n => n.1 != x.ms.idxOf m.src) ++ [(x.ms.idxOf m.src, m.words.getD 0 0, m.words.getD 1 0)] })).collRun p m.cseq)) ∧
    (m.kind = 6 → m.cseq ≠ 0xFFFF →
      (got.flowsOf p m.cseq).find? (fun v => !v.recv && v.peer == m.src && decide (chunkAge v.step v.attempt m.step m.attempt = 0) && decide (v.acked < m.words.headD 0) && decide (m.words.headD 0 ≤ v.done)) = some w →
      Does (.cack e m) s (((got.tick.ctxTouch (eyeDie e) w.ctx).onFlow p w.ctx (fun f => { f with acked := m.words.headD 0, prog := got.shankNow (eyeDie e) })).pump p m.cseq)) ∧
    (m.kind = 6 → m.cseq ≠ 0xFFFF → (∀ v ∈ got.flowsOf p m.cseq, v.recv = false → v.peer = m.src → chunkAge v.step v.attempt m.step m.attempt ≠ 0) →
      Does (.cack e m) s got) ∧
    (∀ y, m.kind = 7 → b.part p = some y →
      let late := if m.cseq = 0xFFFF then 0 else chunkAge y.ctxOf.1 y.ctxOf.2 m.step m.attempt
      (late = 1 → Does (.partner e m) s (got.bump ⟨.LAC_STALE_CHUNK_CNT, eyeDie e, 0⟩)) ∧ (late = 2 → Does (.partner e m) s b) ∧
      (late = 0 → m.src ≠ l.partner.1 → Does (.partner e m) s (got.tick.wn ⟨.LAC_ERR, eyeDie e, 0⟩
        (0x18 + 2 ^ 8 * 9 + 2 ^ 16 * m.cseq + 2 ^ 32 * m.src + 2 ^ 48 * (m.chunk % 2 ^ 24) + 2 ^ 72 * ((got.shankNow (eyeDie e)).toNat % 2 ^ 40)))) ∧
      (late = 0 → m.src = l.partner.1 → m.cseq ≠ 0xFFFF → m.chunk < (got.putRx p m).done →
        m.chunk * (((l.putOf m.cseq).map (fun z => z.cblk)).getD 4) + m.blocks.length ≤ l.partner.2.2.2 → Does (.partner e m) s (got.putAck p m (got.putRx p m).done)) ∧
      (m.src = l.partner.1 → m.cseq = 0xFFFF → m.chunk = 0 → m.blocks = [] →
        Does (.partner e m) s (((got.onPart p (fun z => { z with
          puts := z.puts.filter (fun v => v.cseq != 0xFFFF) ++ [{ got.putRx p m with done := 1, held := [] }] })).bump ⟨.LAC_CHUNK_RX_CNT, eyeDie e, 0⟩).putAck p m 1))) ∧
    (∀ (c : EyeCut) (overflow error abort : Bool) (samples step again : Nat), l.cut.find? (fun z => z.eye == e) = some c → l.gens.getD c.peer 0 ≠ 0 →
      c.peer ∈ childRanks l.rank l.members →
      Does (.heritageStepStatus e overflow error abort samples step again) s
        (((b.eyeTake e 0).onStep p (fun st => { st with kids := st.kids.filter (fun z => z.1 != c.peer) ++
          [(c.peer, cword ((if overflow then fNonfinite else 0) + (if error then fFault else 0) + (if abort then fHalt else 0)) (again % 16) (if abort then 3 else 0) step samples)] })).closeTry p)) ∧
    (∀ (c : EyeCut) (overflow error abort : Bool) (samples step again : Nat), l.cut.find? (fun z => z.eye == e) = some c → l.gens.getD c.peer 0 ≠ 0 →
      c.peer ∉ childRanks l.rank l.members → c.peer ≠ 0 →
      Does (.heritageStepStatus e overflow error abort samples step again) s
        ((b.eyeTake e 0).msgSend p { ((b.eyeTake e 0).mkMsg p 0x40 (parentRank c.peer) 1) with src := c.peer, step := step % 65536, attempt := again % 16, words :=
          [cword ((if overflow then fNonfinite else 0) + (if error then fFault else 0) + (if abort then fHalt else 0)) (again % 16) (if abort then 3 else 0) step samples] }))) ∧
  ((∀ s a s' a' : Nat, (chunkAge s a s' a' = 0 ↔ s % 65536 = s' % 65536 ∧ a = a') ∧
    ((s + 32768) % 65536 ≠ s' % 65536 → s' < 65536 → s < 65536 → (chunkAge s a s' a' = 2 ↔ chunkAge s' a' s a = 1)) ∧
    (∀ k, 0 < k → k < 32768 → chunkAge s a ((s + k) % 65536) a' = 2)) ∧
  (∀ (dr : Draw) (base : Nat) (xs ys : List (List Byte)), xs ≠ [] → xs.Perm ys →
    reduceBlock .int16 3 dr base xs = reduceBlock .int16 3 dr base ys) ∧
  (∀ (dr : Draw) (base k : Nat) (xs : List (List Byte)), xs ≠ [] → k < 2048 →
    sint 16 (Fmt.int16.getElem (fun j => (reduceBlock .int16 3 dr base xs).1.getD j 0) k) =
      max (-32768) (min 32767 ((xs.map (fun v => sint 16 (Fmt.int16.getElem (fun j => v.getD j 0) k))).sum))))

/-- R302 to R306, R308, R310 to R314, R325, R327: flits. Every flit that arrives counts its corrected symbols and gives its ACK and credit return. A flit that cannot be decoded is counted and asked for once; one that was accepted before is dropped; the one expected is stored, in the
coast buffer while its channel is paused, and spends one credit; one without credit is an error. A NAK or a timeout starts the resend, and a flit resent for the eighth time sends the link to retrain. The transmitter sends CTRL flits first, then data by channel, else IDLE: 256 bytes, dealt onto the lanes. Where it rests on a choice of the model: log entries 44, 45, 48, 213 and 214. -/
def Obligations.FlitsAct : Prop :=
  ∀ (s : State) (e seq : Nat) (raw ys : List Byte) (fixed : List Nat) (hd : RxHead),
    let b := s.blk
    let x := b.eye e
    let h := FlitHead.parse (leNat (ys.take 8))
    let vc := b.wireVc e h.vc
    let d : DataFlit := { vc := vc, som := h.som, eom := h.eom, pay := (ys.drop 8).take 236 }
    let bad := (b.flitSeen e fixed).bump ⟨.EYE_FLIT_ERR_CNT, e, 0⟩
    let b1 := (b.flitSeen e fixed).flitHeader e h.ack h.crVc h.crCnt
    let x1 := b1.eye e
    let ahead := (h.seq + 4096 - x1.rx) % 4096
    let room := x1.room.getD vc 0
    let paused := b1.pausing e && bitOf (b1.pauseMask e) vc
    let y : Eye := { x1 with rx := (x1.rx + 1) % 4096, nakOut := false, lostSeq := none, got := true }
    let back := ((b.setEye e { x with fresh := x.fresh && decide (seq ≠ 1) }).flitSeen e hd.fix).flitHeader e ((seq + 4095) % 4096) hd.crVc hd.crCnt
    let k := (seq + 4096 - (back.eye e).base) % 4096
    e < 48 → hd.ok = true → b.eyeUp e = true →
    (raw.length = 256 → flitDecode raw = (none, fixed) → x.nakOut = false → x.lostSeq = none →
      Does (.dataFlit e raw) s (((bad.setEye e { bad.eye e with nakOut := true }).eyeCtrl e (.nak x.rx)).bump ⟨.EYE_NAK_CNT, e, 0⟩)) ∧
    (raw.length = 256 → flitDecode raw = (some ys, fixed) → h.typ = 1 → leNat (ys.take 8) < 2 ^ 43 →
      (2048 ≤ ahead → Does (.dataFlit e raw) s b1) ∧
      (ahead = 0 → room ≠ 0 → tooLong d = false → (bitOf x1.skip vc = false ∨ h.som = true) → paused = false →
        Does (.dataFlit e raw) s (((b1.setEye e y).bump ⟨.EYE_RX_FLITS, e, 0⟩).setEye e
          { y with skip := setBit x1.skip vc false, room := setAt x1.room vc (room - 1), buf := x1.buf ++ [d] })) ∧
      (ahead = 0 → room ≠ 0 → tooLong d = false → (bitOf x1.skip vc = false ∨ h.som = true) → paused = true →
        Yields (.dataFlit e raw) s (fun c => (c.eye e).coast = x1.coast ++ [d] ∧ (c.eye e).buf = x1.buf ∧ (c.eye e).rx = (x1.rx + 1) % 4096)) ∧
      (ahead = 0 → room = 0 → Yields (.dataFlit e raw) s (fun c => (c.eye e).buf = x1.buf ∧ (c.eye e).coast = x1.coast ∧ (c.eye e).rx = x1.rx))) ∧
    Does (.idleFlit e hd.ack (hd.crVc, hd.crCnt) hd.fix) s ((b.flitSeen e hd.fix).flitHeader e hd.ack hd.crVc hd.crCnt) ∧
    (seq < 4096 → k < (back.eye e).replay.length → Does (.nak ⟨e, hd⟩ seq) s ((back.setEye e { back.eye e with again := k + 1 }).bump ⟨.EYE_REPLAY_CNT, e, 0⟩)) ∧
    (seq < 4096 → (back.eye e).replay.length ≤ k → Does (.nak ⟨e, hd⟩ seq) s back) ∧
    (x.replay ≠ [] → Does (.replayTimeout e) s ((b.setEye e { x with again := 1 }).bump ⟨.EYE_REPLAY_CNT, e, 0⟩)) ∧
    (x.replay = [] → Does (.replayTimeout e) s b) ∧
    (∀ j, b.coastReady e = false → x.ctrl = [] → x.again = j + 1 → j < x.replay.length →
      Yields (.flitTime e) s (fun z => (z.eye e).replay = x.replay ∧ z.readData.length = 256 ∧ (7 ≤ x.times.getD j 0 → z.eyeState e = 7) ∧
        (x.times.getD j 0 < 7 → z.eyeState e = b.eyeState e ∧ (z.eye e).again = if j + 1 < x.replay.length then j + 2 else 0))) ∧
    (∀ c cs, b.coastReady e = false → x.again = 0 → x.replay.length < 1024 → x.ctrl = c :: cs → c.unseq = false →
      Yields (.flitTime e) s (fun z => (z.eye e).ctrl = cs ∧ (z.eye e).replay = x.replay ++ [.ctrl c] ∧ (z.eye e).tx = (x.tx + 1) % 4096 ∧ (z.eye e).queue = x.queue)) ∧
    (∀ f, b.coastReady e = false → x.again = 0 → x.replay.length < 1024 → x.ctrl = [] → b.ready e 0 = true → (x.recent.filter id).length < 32 → x.queue.find? (fun g => g.vc == 0) = some f →
      Yields (.flitTime e) s (fun z => (z.eye e).queue = takeFlit 0 x.queue ∧ (z.eye e).replay = x.replay ++ [.data f] ∧ (z.eye e).cred.getD 0 0 = x.cred.getD 0 0 - 1)) ∧
    (b.coastReady e = false → x.again = 0 → x.ctrl = [] → x.queue = [] →
      Yields (.flitTime e) s (fun z => z.readData.length = 256 ∧ (z.eye e).tx = x.tx ∧ (z.eye e).replay = x.replay ∧ (z.eye e).line = laneDeal (b.txLanes e) x.sent z.readData))

/-- R304: the code of a flit corrects any one wrong byte: whatever byte of whatever flit arrives changed, the flit is decoded as it was sent, and the place is known. Where it rests on a choice of the model: log entry 44. -/
def Obligations.OneWrongByteIsCorrected : Prop :=
  ∀ (h : FlitHead) (pay : List Byte) (i : Nat) (v : Byte), pay.length ≤ 236 → i < 256 →
    let f := flitBytes h pay
    f.length = 256 ∧ flitDecode f = (some f, []) ∧ (v ≠ f.getD i 0 → flitDecode (f.set i v) = (some f, [i]))

/-- R303, R310, R316, R317, R322 to R329, R365: heartbeats, lanes and pauses of an eyelet in service. A heartbeat one above the last is noted, a later one counts those missing, one not above it takes the link down; silence takes it down unless the peer holds; loss of lock retrains it. A sequenced CTRL flit acts where
it is the one expected; one accepted before does nothing more, a later one is asked for again. A lane lost by a link of four retrains it on three; a PAUSE stops new messages; COAST_DONE quiesces a pausing link, a timeout is counted once, and for the HOLD of a quiesced link is noted; HOLD holds it. Where it rests on a choice of the model: log entries 47, 48, 176, 213 and 214. -/
def Obligations.LinkHealthActs : Prop :=
  ∀ (s : State) (i : Instr) (e lane mask q n : Nat) (hd : RxHead),
    let b := s.blk
    let r := eyeReg e
    let f : RxFlit := ⟨e, hd⟩
    let g := (b.flitSeen e hd.fix).flitHeader e hd.ack hd.crVc hd.crCnt
    let x := g.eye e
    let ahead := (hd.seq + 4096 - x.rx) % 4096
    let t := g.setEye e { x with rx := (x.rx + 1) % 4096, nakOut := false, lostSeq := none, got := true }
    e < 48 → hd.ok = true →
    (b.eyeUp e = true →
      (x.hbRx = none → Does (.heartbeat f n) s (g.setEye e { x with hbRx := some n })) ∧
      (x.hbRx = some q → n ≤ q → Does (.heartbeat f n) s (g.eyeDown e 9)) ∧
      (x.hbRx = some q → n = q + 1 → Does (.heartbeat f n) s (g.setEye e { x with hbRx := some n })) ∧
      (x.hbRx = some q → q + 1 < n → Does (.heartbeat f n) s (((g.setEye e { x with hbRx := some n }).bump ⟨.EYE_HB_MISS_CNT, e, 0⟩ (n - q - 1)).eyeEvent e 4)) ∧
      Does (.heartbeatSend e) s ((b.setEye e { b.eye e with hbTx := ((b.eye e).hbTx + 1) % 2 ^ 32 }).eyeCtrl e (.heartbeat (b.eye e).hbTx (b.hbState e))) ∧
      ((b.eye e).hold = false → Does (.heartbeatSilence e) s (b.eyeDown e 9)) ∧ ((b.eye e).hold = true → Does (.heartbeatSilence e) s b) ∧
      Does (.flitLockLoss e) s (b.eyeRetrain e) ∧
      (i ∈ [.pause f (mask % 256), .unpause f, .coastDone f, .hold f, .degrade f (lane % 4) false, .degrade f (lane % 4) true] →
        (2048 ≤ ahead → Does i s g) ∧
        (0 < ahead → ahead < 2048 → x.nakOut = false → x.lostSeq = none →
          Does i s (((g.setEye e { x with nakOut := true }).eyeCtrl e (.nak x.rx)).bump ⟨.EYE_NAK_CNT, e, 0⟩))) ∧
      (lane < 4 → b.rf r Fld.EYE_STATE_RX_LANES = 15 → b.rf r Fld.EYE_STATE_REV = 3 →
        Yields (.laneFailure e lane) s (fun c => c.eyeState e = 7 ∧ c.rf r Fld.EYE_STATE_RX_LANES = 15 - 2 ^ lane ∧ c.rf r Fld.EYE_STATE_TX_LANES = b.rf r Fld.EYE_STATE_TX_LANES ∧
          (c.eye e).ctrl.take ((b.eye e).ctrl.length + 1) = (b.eye e).ctrl ++ [.degrade lane false] ∧ (c.eye e).replay = (b.eye e).replay)) ∧
      (ahead = 0 → lane < 4 → b.rf r Fld.EYE_STATE_TX_LANES = 15 → b.rf r Fld.EYE_STATE_REV = 3 →
        Yields (.degrade f lane true) s (fun c => c.eyeState e = 7 ∧ c.rf r Fld.EYE_STATE_TX_LANES = 15 - 2 ^ lane)) ∧
      (ahead = 0 → lane < 4 → b.rf r Fld.EYE_STATE_TX_LANES = 15 → b.rf r Fld.EYE_STATE_REV = 1 → Yields (.degrade f lane true) s (fun c => c.eyeState e = 9 ∧ (c.eye e).replay = [])) ∧
      (ahead = 0 → mask < 256 → Yields (.pause f mask) s (fun c => c.rf ⟨.EYE_PAUSE, e, 0⟩ Fld.EYE_PAUSE_PEER_MASK = b.wireMask e mask ∧ c.rf r Fld.EYE_STATE_PAUSED = 1 ∧ (c.eye e).coastDue = true ∧
        (c.eye e).queue = x.queue)) ∧
      (ahead = 0 → Yields (.unpause f) s (fun c => c.rf ⟨.EYE_PAUSE, e, 0⟩ Fld.EYE_PAUSE_PEER_MASK = 0 ∧ c.rf r Fld.EYE_STATE_PAUSED = 0)) ∧
      (ahead = 0 → b.pausing e = true → Yields (.coastDone f) s (fun c => c.rf r Fld.EYE_STATE_QUIESCED = 1 ∧ (c.eye e).coast = x.coast)) ∧
      (ahead = 0 → b.pausing e = false → Does (.coastDone f) s t) ∧
      (ahead = 0 → Does (.hold f) s ((t.setEye e { t.eye e with hold := true }).setEyeState e 8))) ∧
    (b.pausing e = true → b.rf r Fld.EYE_STATE_QUIESCED = 0 → b.rf r Fld.EYE_STATE_PAUSE_TMO = 0 →
      Does (.pauseTmo e) s ((((b.wf r Fld.EYE_STATE_PAUSE_TMO 1).bump ⟨.EYE_PAUSE_TMO_CNT, e, 0⟩).eyeEvent e 2).record { code := 0x0041, die := eyeDie e, data := [BitVec.ofNat 8 e] })) ∧
    (b.rf r Fld.EYE_STATE_PAUSE_TMO = 1 → b.rf r Fld.EYE_STATE_QUIESCED = 0 → Does (.pauseTmo e) s b) ∧
    (b.pausing e = true → b.rf r Fld.EYE_STATE_QUIESCED = 1 → Does (.pauseTmo e) s (b.setEye e { b.eye e with tmoPast := true })) ∧
    (b.eyeUsable e = true → Does (.linkDown e) s b) ∧
    (∀ p y w l, b.partOfEye e = some p → b.eyeUsable e = false → b.part p = some y → y.last = some l →
      y.flows.filter (fun (v : Flow) => (decide (v.eye = e) || l.cut.any (fun c => c.eye == e && (c.peer == v.peer || l.relays.contains (v.peer, c.peer)))) && !v.relay && decide (v.state < 5)) = [w] →
      Does (.linkDown e) s (b.moveFlow p e w))

/-- R301, R318 to R321, R329, R368, R562: training. DETECT that finds a far end goes on to EQUALIZE at the common rate, with this end's identity and credits to send, and so does an eyelet held by either end but for a coolant stop; the first flit time begins ALIGN, 64 good flits in a row IDENTIFY; IDENTITY is recorded, its reserved bits apart; CREDIT_INIT sets the
credits; a training that completes on four lanes is ACTIVE, on three ACTIVE_3L, with a full training's sequence numbers at 0; a stage that exceeds its limit goes back to DETECT, the third in a row to FAILED; a retrain that fails goes DOWN; a cable brings its enabled eyelets to DETECT, and its removal turns them OFF. Where it rests on a choice of the model: log entries 46, 175 and 213. -/
def Obligations.EyeletsTrain : Prop :=
  ∀ (s : State) (e n tx rx rev rate : Nat) (id : BitVec 128) (cr : List Nat) (hd : RxHead),
    let b := s.blk
    let x := b.eye e
    let r := eyeReg e
    let adv := rxCredits.zipIdx.map (fun p => if (rev == 1 || rev == 2) && p.2 != 0 && p.2 != 6 then 0 else p.1)
    let aligned := if b.eyeState e = 3 ∧ 63 ≤ x.lock then 4 else b.eyeState e
    let found (c : Blk) : Prop := c.eyeState e = 2 ∧ c.rf r Fld.EYE_STATE_RATE = min (b.ownRate e) rate ∧ c.rf r Fld.EYE_STATE_REV = min 3 rev ∧
      (c.eye e).ctrl.head? = some (.identity (b.ownIdentity e)) ∧ (x.buf = [] → x.coast = [] → (c.eye e).room = adv ∧ (c.eye e).ctrl.drop 1 = [.creditInit adv])
    let out (y : Eye) (v : Nat) : Nat := (y.replay.filter (fun z => match z with | .data d => d.vc == v | .ctrl _ => false)).length
    e < 48 → hd.ok = true →
    (b.eyeArmed e = true → (b.eyeState e = 1 ∨ b.eyeState e = 9 ∨ b.eyeState e = 0) →
      Does (.detectRetry e none) s (b.setEyeState e 1) ∧ (rate ≤ 3 → Yields (.detectRetry e (some (rev, rate))) s found)) ∧
    (b.eyeArmed e = true → b.eyeState e = 8 → (b.pwr.coolStop = false ∨ b.rf r Fld.EYE_STATE_HOLD_SENT = 0) → rate ≤ 3 → Yields (.detectRetry e (some (rev, rate))) s found) ∧
    (b.eyeState e = 2 → Yields (.flitTime e) s (fun c => c.eyeState e = 3 ∧ c.readData.length = 256)) ∧
    (b.eyeState e = 3 → Yields (.idleFlit e hd.ack (hd.crVc, hd.crCnt) hd.fix) s (fun c => (c.eye e).lock = x.lock + 1 ∧ c.eyeState e = if x.lock < 63 then 3 else 4)) ∧
    ((b.eyeState e = 3 ∨ b.eyeState e = 4) → Yields (.identity ⟨e, hd⟩ id) s (fun c => c.eyeState e = aligned ∧ c.rn ⟨.EYE_PEER_ID, e, 0⟩ = (id &&& peerIdMask).toNat)) ∧
    ((b.eyeState e = 3 ∨ b.eyeState e = 4 ∨ b.eyeState e = 7) → Yields (.creditInit ⟨e, hd⟩ cr) s (fun c => c.eyeState e = aligned ∧
      ∀ v, v < 8 → (c.eye e).cred.getD v 0 = cr.getD (b.wireVc e v) 0 - out (c.eye e) v)) ∧
    (tx < 16 → rx < 16 → b.eyeState e = 4 → b.rf ⟨.EYE_CFG, e, 0⟩ Fld.EYE_CFG_LANE_OFF = 0 → b.rf r Fld.EYE_STATE_REV = 3 →
      (tx = 15 → rx = 15 → Yields (.eyeletTrainingComplete e tx rx) s (fun c => c.eyeState e = 5 ∧ (c.eye e).tx = 0 ∧ (c.eye e).rx = 0 ∧ (c.eye e).hbTx = 0 ∧ (c.eye e).fails = 0)) ∧
      (tx = 15 → maskPop rx 4 = 3 → Yields (.eyeletTrainingComplete e tx rx) s (fun c => c.eyeState e = 6 ∧ c.rf r Fld.EYE_STATE_RX_LANES = rx)) ∧
      (maskPop tx 4 < 3 → x.fails < 2 → Yields (.eyeletTrainingComplete e tx rx) s (fun c => c.eyeState e = 1 ∧ (c.eye e).fails = x.fails + 1))) ∧
    (b.eyeState e = 7 → Does (.trainingStageTimeout e) s (b.eyeDown e 9)) ∧
    ((b.eyeState e = 2 ∨ b.eyeState e = 3 ∨ b.eyeState e = 4) → x.fails < 2 →
      Does (.trainingStageTimeout e) s ((b.setEye e { x with fails := x.fails + 1, ctrl := [], lock := 0 }).setEyeState e 1)) ∧
    ((b.eyeState e = 2 ∨ b.eyeState e = 3 ∨ b.eyeState e = 4) → 2 ≤ x.fails → Yields (.trainingStageTimeout e) s (fun c => c.eyeState e = 10)) ∧
    (n < 6 → Yields (.cableRemoved n) s (fun c => Sp.get 0 c.pins.cable n = 0 ∧ ∀ j, j < 8 → c.eyeState (8 * n + j) = 0)) ∧
    (n < 6 → Yields (.cableInserted n) s (fun c => Sp.get 0 c.pins.cable n = 1 ∧ ∀ j, j < 8 → b.eyeExists (8 * n + j) = true → b.rf ⟨.EYE_CFG, 8 * n + j, 0⟩ Fld.EYE_CFG_ENABLE = 1 →
      4 ≤ b.stage → b.stage ≤ 5 → c.eyeState (8 * n + j) = 1))
/-- R18, R19, R36 to R41, R549: the welt and the loss and return of a die. A heartbeat ends the silence of its die at every neighbour over an active link; a module's fifth repair fails it; a neighbour silent for MISSES intervals is declared lost, stamped, fenced
and announced; a survivor that hears of it fences it; the routes set after a loss do not lead to it. The lost die is reset, rejoins with the serial number recorded and all its cores passing, and is admitted at its admission point only; past its deadline it is late. Where it rests on a choice of the model: log entries 75, 147, 150, 174 and 182. -/
def Obligations.DiesAreLostAndReturn : Prop :=
  ∀ (s : State) (d o n w p : Nat) (tx : Bool) (x : Part),
    let b := s.blk
    let r : RegRef := ⟨.WLT_MOD_STATE, d, n⟩
    let f := if tx then Fld.WLT_MOD_STATE_REPAIRED_TX else Fld.WLT_MOD_STATE_REPAIRED_RX
    d < 10 → o < 10 →
    (b.up d = true → b.pwr.doze = false → b.pwr.coolStop = false → o ∈ neighbours b.pkg.sku d → b.fenceHeld d o = false →
      b.linkActive (fun q => bitOf b.pkg.answered q) d o = true →
      Yields (.weltHeartbeatSend d 0) s (fun c => Sp.get 0 c.pkg.missed (1024 + 16 * o + d) = 0 ∧ c.regs = b.regs)) ∧
    ((b.pwr.doze = true ∨ b.pwr.coolStop = true) → Does (.weltHeartbeatSend d n) s b) ∧
    (n < 64 → b.rf r Fld.WLT_MOD_STATE_STATE ≠ 4 → b.rf r Fld.WLT_MOD_STATE_STATE ≠ 0 →
      (b.rf r f < 4 → Does (.weltLaneRepair d n tx) s ((((b.wf r f (b.rf r f + 1)).wf r Fld.WLT_MOD_STATE_STATE 3).bump ⟨.WLT_REPAIR_CNT, d, 0⟩).evGroup d 10 0)) ∧
      (4 ≤ b.rf r f → Yields (.weltLaneRepair d n tx) s (fun c => c.rf r Fld.WLT_MOD_STATE_STATE = 4))) ∧
    (b.up o = true → o ≠ d → d ∈ neighbours b.pkg.sku o → b.fenceHeld o d = false → b.pwr.doze = false → b.pwr.coolStop = false → bitOf b.pkg.answered d = true →
      b.rf ⟨.WLT_HB_CFG, o, 0⟩ Fld.WLT_HB_CFG_MISSES ≤ Sp.get 0 b.pkg.missed (1024 + 16 * o + d) →
      Does (.dieLossDetect o d) s (((((b.wn ⟨.WLT_LOSS_TIME, o, 0⟩ (b.shankNow o).toNat).tick).wn ⟨.WLT_LOSS_POS, o, 0⟩ d).fenceOn o d).lossOf d)) ∧
    (Sp.get 0 b.pkg.missed (1024 + 16 * o + d) < b.rf ⟨.WLT_HB_CFG, o, 0⟩ Fld.WLT_HB_CFG_MISSES → Does (.dieLossDetect o d) s b) ∧
    (o ≠ d → b.up o = true → b.fenceHeld o d = false → (∃ q, q < 10 ∧ q ≠ d ∧ b.fenceHeld q d = true) → Does (.dieLossBroadcast o d) s ((b.fenceOn o d).lossOf d)) ∧
    (b.fenceHeld o d = true → Does (.dieLossBroadcast o d) s b) ∧
    (b.pkg.routeDue = false → Does .routeInstall s b) ∧
    (b.pkg.routeDue = true → Does .routeInstall s (({ b with pkg := { b.pkg with routeDue := false } } : Blk).installRoutes b.up) ∧
      (b.up o = true → d ≠ o → b.up d = false → Yields .routeInstall s (fun c => c.rn ⟨.WLT_ROUTE, o, d⟩ = 0xF))) ∧
    (d < 4 → bitOf b.pkg.lost d = true → bitOf b.pkg.rejoined d = false → b.master ≠ d →
      Yields (.dieReset d) s (fun c => c.hbm = b.hbm ∧ c.parts = b.parts ∧ (∀ k, k < 9 → c.flightsOf (9 * d + k) = []) ∧
        (∀ k, k < 8 → c.rd ⟨.SEC_MEAS, d, k⟩ = b.rd ⟨.SEC_MEAS, b.master, k⟩))) ∧
    ((4 ≤ d ∨ bitOf b.pkg.lost d = false) → Does (.dieReset d) s b) ∧
    (d < 4 → bitOf b.pkg.lost d = true → bitOf b.pkg.rejoined d = false →
      (b.identFits d w = true → b.sec.loadsOk 5 = true → Yields (.dieRejoin d w []) s (fun c => bitOf c.pkg.rejoined d = true)) ∧
      ((b.identFits d w = false ∨ b.sec.loadsOk 5 = false) → Yields (.dieRejoin d w []) s (fun c => bitOf c.pkg.rejoined d = false))) ∧
    (b.mayAdmit d = true → Does (.dieAdmission d) s (b.admitDie d)) ∧ (b.mayAdmit d = false → Does (.dieAdmission d) s b) ∧
    (d < 4 → bitOf b.pkg.lost d = true → bitOf b.pkg.rejoined d = false → bitOf b.pkg.late d = false →
      let late : Blk := { b with pkg := { b.pkg with late := setBit b.pkg.late d true } }
      (b.parts = [] → Does (.rejoinDeadline d) s late) ∧
      (b.parts = [(p, x)] → x.onDie d = true → x.loaded = true → x.step.state ≠ 0 →
        Does (.rejoinDeadline d) s ((late.onPart p (fun y => { y with lossWait := setBit y.lossWait d false })).onStep p (fun st => { st with reclick := true })))) ∧
    (bitOf b.pkg.rejoined d = true → Does (.rejoinDeadline d) s b)

/-- R25 to R27, R34, R549: the package master and the open seat. A cobbler's heartbeat ends its silence at every other live cobbler, but nothing comes from a fenced die; the first live cobbler in discovery order claims once all ahead of it are silent; of two claims the earlier in that order stands. A seat access outside its aperture, or while it is
fenced, changes no memory; a write inside a block replaces exactly its bytes; a seat that goes down is fenced on every die, and the package goes on. Where it rests on a choice of the model: log entries 76, 148, 149 and 185. -/
def Obligations.MasterAndSeat : Prop :=
  ∀ (s : State) (d o edge a n : Nat) (xs : List Byte),
    let b := s.blk
    let silent : Blk := { b with pkg := { b.pkg with missed := Sp.set 0 b.pkg.missed (16 * o + d) 3 } }
    let ahead := (discoveryOrder.take (discRank o)).filter (fun x => bitOf b.pkg.answered x && !b.fenced x)
    d < 10 → o < 10 → edge < 4 →
    (b.fenced d = true → Does (.cobblerHeartbeat d) s b) ∧
    (o ∈ b.liveDies → o ≠ d → b.fenced o = false → b.fenced d = false → Yields (.cobblerHeartbeat d) s (fun c => Sp.get 0 c.pkg.missed (16 * o + d) = 0 ∧ c.silentTo o d = false)) ∧
    ((b.up o = false ∨ b.master = o ∨ silent.silentTo o b.master = false ∨ ∃ x ∈ ahead, silent.silentTo o x = false) → Does (.cobblerSilent o d) s silent) ∧
    (b.up o = true → b.master ≠ o → silent.silentTo o b.master = true → (∀ x ∈ ahead, silent.silentTo o x = true) →
      Does (.cobblerSilent o d) s (silent.claim o false) ∧ Yields (.cobblerSilent o d) s (fun c => c.master = o)) ∧
    (b.up d = true → b.master ≠ d → b.allAheadSilent d = true →
      (b.silentTo d b.master = true → Does (.masterClaim d) s (b.claim d false)) ∧
      (∀ e, b.silentTo d b.master = false → b.pkg.claimed = e + 1 →
        (discRank d < discRank e → Does (.masterClaim d) s (b.claim d true)) ∧ (discRank e < discRank d → Does (.masterClaim d) s b))) ∧
    (b.allAheadSilent d = false → Does (.masterClaim d) s b) ∧
    Yields (.cobblerReset d) s (fun c => c.silentTo o d = false ∧ c.regs = b.regs ∧ c.hbm = b.hbm ∧ c.parts = b.parts) ∧
    (b.seatLive = false → Does (.seatWrite edge a xs) s b ∧ Does (.seatRead edge a n) s b ∧ Does (.seatDoorbell edge n) s b ∧ Does .seatDown s b) ∧
    (b.seatLive = true →
      (b.inAperture a xs.length = false → Does (.seatWrite edge a xs) s (b.seatReject edge) ∧ (b.seatReject edge).hbm = b.hbm) ∧
      (b.inAperture a n = false → Does (.seatRead edge a n) s (b.seatReject edge)) ∧
      (b.inAperture a n = true → Does (.seatRead edge a n) s { b with readData := b.hbmBytes a n }) ∧
      (8 ≤ n → Does (.seatDoorbell edge n) s (b.seatReject edge)) ∧
      (n < 8 → Does (.seatDoorbell edge n) s { b with pkg := { b.pkg with seatBell := setBit b.pkg.seatBell n true } }) ∧
      (b.inAperture a xs.length = true → a % 4096 + xs.length ≤ 4096 →
        let pay := ((b.hbmGet (a / 4096)).getD ⟨zeros 4096, aglet0⟩).pay
        Does (.seatWrite edge a xs) s (b.hbmPut (a / 4096) (Block.make (pay.take (a % 4096) ++ xs ++ pay.drop (a % 4096 + xs.length))
          { pcrc := 0, tag := b.pkg.seatTag, version := 0, format := 0, flags := 0, epoch := b.rf ⟨.LAC_EPOCH, iod0, 0⟩ Fld.LAC_EPOCH_EPOCH, kind := 0, samples := 0 } false
          ((pay.take (a % 4096) ++ xs ++ pay.drop (a % 4096 + xs.length)).all (fun x => x == 0)) false false))) ∧
      Yields .seatDown s (fun c => c.seatLive = false ∧ c.hbm = b.hbm ∧ c.parts = b.parts ∧ ∀ q, q < 10 → b.up q = true → c.fenceHeld q 10 = true))
/-- R37, R168, R222, R223, R232 to R238: HBM and the insole. A read delivers the payload and aglet of the block the address maps to; an error that the code corrects changes no block; one it cannot correct poisons the block, payload untouched, and the reader gets the poison, while a firmware block that stands twice is
mended from its copy (R401). A write of a whole block replaces it and no other, and clears the poison; one whose parity fails twice writes nothing, but to a block that stands twice. A fenced die gives poison and takes nothing. A repair due takes a spare of its bank, not while a re-lay runs. A scrub pass counts, and marks the insole banks to be left out. Where it rests on a choice of the model: log entries 27, 36, 151, 152, 153, 207 and 218. -/
def Obligations.HbmCommandsAct : Prop :=
  ∀ (s : State) (fw : Bool) (blk pc loc st row cl a bank burst : Nat) (e : HbmErr) (pay : List Byte) (ag : Aglet) (x : RepairRec) (errs : List (Nat × HbmErr)),
    let b := s.blk
    let at_ := mapBlock b.chanList (if fw then hbmD else 0) (if fw then 256 else hbmD) blk
    let made := Block.make pay ag false (payloadFlags ag.format pay).1 (payloadFlags ag.format pay).2 false
    let others (c : Blk) : Prop := ∀ pc' loc', pc' < 1536 → loc' < 2 ^ 18 → (pc' ≠ pc ∨ loc' ≠ loc) → c.hbm.block pc' loc' = b.hbm.block pc' loc'
    (at_ = none → Does (.hbmRead fw blk e false) s b ∧ (pay.length = 4096 → Does (.hbmWrite ⟨fw, blk⟩ pay ag e) s b)) ∧
    (at_ = some (pc, loc) → b.pcFenced pc = true →
      Does (.hbmRead fw blk e false) s { b with readData := (Block.lost pc loc (b.hbm.block pc loc)).pay ++ leBytes 16 (Block.lost pc loc (b.hbm.block pc loc)).agl.toNat } ∧
      (pay.length = 4096 → Does (.hbmWrite ⟨fw, blk⟩ pay ag e) s b)) ∧
    (at_ = some (pc, loc) → b.pcFenced pc = false →
      Does (.hbmRead fw blk .none false) s
        (({ b with readData := (b.hbm.block pc loc).pay ++ leBytes 16 (b.hbm.block pc loc).agl.toNat } : Blk).fwMend pc [loc]) ∧
      Yields (.hbmRead fw blk (.corrected bank row) false) s (fun c => c.hbm.data = b.hbm.data ∧
        ((Aglet.parse (b.hbm.block pc loc).agl).poison = false → c.hbm.aglets = b.hbm.aglets) ∧
        c.readData = (b.hbm.block pc loc).pay ++ leBytes 16 (b.hbm.block pc loc).agl.toNat) ∧
      (pc < 1536 → loc < 2 ^ 18 → Yields (.hbmRead fw blk (.uncorrectable bank row burst) false) s (fun c => (c.hbm.block pc loc).pay = (b.hbm.block pc loc).pay ∧
        (Aglet.parse (c.hbm.block pc loc).agl).poison = !b.fwDoubled pc loc ∧ c.readData.take 4096 = (b.hbm.block pc loc).pay ∧
        (Aglet.parse (BitVec.ofNat 128 (leNat (c.readData.drop 4096)))).poison = true ∧ others c)) ∧
      (pc < 1536 → loc < 2 ^ 18 → pay.length = 4096 →
        Yields (.hbmWrite ⟨fw, blk⟩ pay ag .none) s (fun c => c.hbm.block pc loc = made ∧ c.regs = b.regs ∧ others c) ∧
        Yields (.hbmWrite ⟨fw, blk⟩ pay ag (.parity bank row)) s (fun c => c.hbm.block pc loc = made ∧ others c) ∧
        Yields (.hbmWrite ⟨fw, blk⟩ pay ag (.parityFailed bank row burst)) s (fun c => others c ∧
          (b.fwDoubled pc loc = false → (c.hbm.block pc loc).pay = (b.hbm.block pc loc).pay ∧ (Aglet.parse (c.hbm.block pc loc).agl).poison = true) ∧
          (b.fwDoubled pc loc = true → c.hbm.block pc loc = made)))) ∧
    (pc < 1536 → b.hbm.due.find? (fun z => rowPc z.row == pc) = some x → b.relayRunning = false → b.pcFenced pc = false →
      Yields (.hbmRowRepair pc errs) s (fun c => c.hbm.due = b.hbm.due.erase x ∧ Sp.get 0 c.hbm.spares (rowBank x.row) = Sp.get 0 b.hbm.spares (rowBank x.row) + 1)) ∧
    (pc < 1536 → (b.hbm.due.find? (fun z => rowPc z.row == pc) = none ∨ b.relayRunning = true) → Does (.hbmRowRepair pc errs) s b) ∧
    (st < 24 → Does (.rowTrackerExpiry st row) s (b.setTrack st ((b.trackOf st).filter (fun t => t.row != row)))) ∧
    (b.rf ⟨.HBM_SCRUB_CFG, pcDie pc, 0⟩ Fld.HBM_SCRUB_CFG_ENABLE = 1 → b.chanList.contains pc = true → b.pcFenced pc = false →
      Yields (.hbmScrubRead false pc .none) s (fun c => Sp.get 0 c.hbm.scrubbed pc = Sp.get 0 b.hbm.scrubbed pc + 1 ∧ c.hbm.data = b.hbm.data ∧
        (b.fwDoubled pc (Sp.get 0 b.hbm.scrubbed pc % pcBlocks) = false → c.hbm.aglets = b.hbm.aglets))) ∧
    (b.rf ⟨.HBM_SCRUB_CFG, pcDie pc, 0⟩ Fld.HBM_SCRUB_CFG_ENABLE = 0 → Does (.hbmScrubRead false pc e) s b) ∧
    (b.op a = none → Does (.hbmScrubRead true a e) s b) ∧
    (cl < 36 → a < 2 ^ 27 → Yields (.insoleScrub cl [] [a]) s (fun c => bitOf (c.rn ⟨.SEQ_INS_MAPOUT, cl, 0⟩) (insBank a) = true ∧ c.hbm = b.hbm ∧
      (∀ k, k < 64 → bitOf (b.rn ⟨.SEQ_INS_MAPOUT, cl, 0⟩) k = true → bitOf (c.rn ⟨.SEQ_INS_MAPOUT, cl, 0⟩) k = true)))

/-- R207, R208, R378 to R380, R383 to R386, R389 to R394, R402: fault management. A finished sample is compared, and a mismatch is a fault of the core, a failing residue check one of the witness; a handover makes the SPARE carry the work, its copy failing leaves the source; a queued test starts, or is deferred, and a unit under test is TESTING; a pass returns the unit
and a failure makes it FAILED and listed; a fault's count expires; a unit that drained is read twice, or its registers again, and what was left of its work is discarded; the flows of a lacing engine that leaves service move on. Where it rests on a choice of the model: log entries 28, 170, 180, 193, 194, 195, 221, 223 and 224. -/
def Obligations.FaultManagementActs : Prop :=
  ∀ (s : State) (cl i j u stage sig w1 w2 : Nat) (cf : Bool) (w : WitSign) (x : WitSample) (t : TestReq) (g : RegRef),
    let b := s.blk
    let done := (b.witEnd cl).bump ⟨.WIT_SAMPLED, cl, 0⟩
    let quiet : Blk := { b with units := { b.units with
      drain := b.units.drain.filter (fun z => z.1 != u), regWait := b.units.regWait.filter (fun z => z.1 != u) } }
    let cut := (if unitDie u < 4 then b.seq.flights.filter (fun f => decide (codeUnit f.cl (b.bindOf f) = u)) else []).foldl (fun c f => c.discardFlight f) quiet
    let table := Sp.get 6 b.units.table u
    let back := (cut.bump ⟨.AWL_DISAGREE_CNT, unitDie u, 0⟩).wf (unitReg u) Fld.AWL_UNIT_ROLE table
    cl < 36 → unitNo u = true →
    (slotGet b.cores.samples cl = none → Does (.witnessCompare cl w) s b) ∧
    (slotGet b.cores.samples cl = some x →
      Does (.witnessCompare cl .residue) s ((b.unitFault (clUnit cl 13) .fault false x.mb x.shared false).flowsFollow b) ∧
      (w ≠ .residue → x.closed = false → Does (.witnessCompare cl w) s b) ∧
      (w ≠ .residue → x.closed = true → done.witFails cl x = false → Does (.witnessCompare cl w) s done) ∧
      (w ≠ .residue → x.closed = true → done.witFails cl x = true →
        Does (.witnessCompare cl w) s
          (((done.bump ⟨.WIT_MISMATCH, cl, 0⟩).unitFault (clUnit cl (x.core % 5)) .witness true x.mb x.shared (decide (w = .copyFails))).flowsFollow b))) ∧
    (i < 5 → b.role (clUnit cl i) = roActive → b.spareOf cl = some j →
      Yields (.handover cl i false) s (fun c => c.role (clUnit cl j) = roActive ∧ c.role (clUnit cl i) = roTesting ∧ c.hbm = b.hbm ∧ c.ins = b.ins ∧ c.parts = b.parts) ∧
      Does (.handover cl i true) s (b.copyFailed cl i j) ∧ Yields (.handover cl i true) s (fun c => c.role (clUnit cl i) = roActive ∧ c.role (clUnit cl j) =
        (if b.rf ⟨.AWL_CFG, unitDie (clUnit cl j), 0⟩ Fld.AWL_CFG_FAULT_LIMIT ≤ b.rf (unitReg (clUnit cl j)) Fld.AWL_UNIT_FAULTS then roFailed else roFenced))) ∧
    (i < 5 → b.spareOf cl = none → Does (.handover cl i cf) s b) ∧
    (b.units.queue.find? (fun z => z.unit == u) = none → Does (.awlTestStart u cf) s b) ∧
    (b.units.queue.find? (fun z => z.unit == u) = some t → b.role u ≠ roFailed →
      (b.clusterWorks (unitCluster u) = false → b.mustDefer t = false → b.testMay t = true → b.sec.loadsOk (awlSection u) = true →
        Yields (.awlTestStart u cf) s (fun c => c.role u = roTesting ∧ { t with deferred := false } ∈ c.units.running)) ∧
      (b.clusterWorks (unitCluster u) = false → b.mustDefer t = false → b.testMay t = true → b.sec.loadsOk (awlSection u) = false →
        Yields (.awlTestStart u cf) s (fun c => ∀ z ∈ c.units.running, z ∈ b.units.running)) ∧
      (b.mustDefer t = true → t.deferred = false → Yields (.awlTestStart u cf) s (fun c => c.rf (unitReg u) Fld.AWL_UNIT_DEFERRED = 1 ∧ c.units.running = b.units.running)) ∧
      (b.mustDefer t = true → t.deferred = true → Does (.awlTestStart u cf) s b)) ∧
    (b.units.running.find? (fun z => z.unit == u) = none → ∀ pass, Does (.awlTestResult u pass stage sig) s b) ∧
    (b.units.running.find? (fun z => z.unit == u) = some t →
      Yields (.awlTestResult u true stage sig) s (fun c => (∀ z ∈ c.units.running, z.unit ≠ u) ∧ u ∈ c.units.passed) ∧
      (4 ≤ unitDie u → t.prevRole ≠ roIdle → Yields (.awlTestResult u true stage sig) s (fun c => c.role u = roActive ∧ c.rf ⟨.LAC_STATE, unitDie u, 0⟩ Fld.LAC_STATE_FENCED = 0)) ∧
      (b.role u ≠ roFailed → Yields (.awlTestResult u false stage sig) s (fun c => c.role u = roFailed ∧ u ∈ c.sec.failedA ∧ u ∈ c.sec.failedB))) ∧
    (0 < b.rf (unitReg u) Fld.AWL_UNIT_FAULTS →
      Yields (.faultWindowExpiry u) s (fun c => c.rf (unitReg u) Fld.AWL_UNIT_FAULTS = b.rf (unitReg u) Fld.AWL_UNIT_FAULTS - 1 ∧ c.role u = b.role u)) ∧
    (slotGet b.units.drain u = none → Does (.drainTimeout u w1 w2) s b) ∧
    (slotGet b.units.drain u = some i → b.units.regWait.filter (fun z => z.1 == u) = [] →
      (w1 = w2 → w1 = table → b.unitBusy u = false → Does (.drainTimeout u w1 w2) s (back.flowsFollow b)) ∧
      (w1 = w2 → w1 = table → b.unitBusy u = true → Does (.drainTimeout u w1 w2) s ((back.unitFault u .disagreement true 0xFFFF true false).flowsFollow b)) ∧
      ((w1 ≠ w2 ∨ w1 ≠ table) → Does (.drainTimeout u w1 w2) s (((cut.wf (unitReg u) Fld.AWL_UNIT_ROLE i).suspect u).flowsFollow b))) ∧
    (slotGet b.units.drain u = some i → b.unitBusy u = false → b.units.regWait.filter (fun z => z.1 == u) = [(u, g, j)] →
      (b.rn g = j % 2 ^ g.name.row.width → Does (.drainTimeout u w1 w2) s (((quiet.bump ⟨.AWL_DISAGREE_CNT, unitDie u, 0⟩).wf (unitReg u) Fld.AWL_UNIT_ROLE i).flowsFollow b)) ∧
      (b.rn g ≠ j % 2 ^ g.name.row.width → Does (.drainTimeout u w1 w2) s ((((quiet.wn g j).wf (unitReg u) Fld.AWL_UNIT_ROLE i).suspect u).flowsFollow b)))

/-- R396 to R398, R416 to R419, R423, R424: twins and securing. A request is answered with the blocks that pass their checks at the version asked for; a reply whose blocks pass is written over the poisoned ones and ends the request; one that no request waits for is only taken; the owner of a copy that became unusable no longer counts on it. A securing's read
that finds every block sound completes it; the partner layer commits once every chunk is acknowledged, the flash layer adds its file after all others; rank 0 takes reports. Where it rests on a choice of the model: log entries 68, 69, 188, 217, 225 and 226. -/
def Obligations.TwinsAndSecuringAct : Prop :=
  ∀ (s : State) (e p hold : Nat) (m : Msg) (l : Last) (x : Part) (q : Securing) (a : TwinAsk),
    let b := s.blk
    let got := b.eyeTake e (b.takeVc e m.vc)
    let ver := m.words.headD 0
    let ks := triples m.words.length (m.words.drop 1)
    let ys := m.blocks.map blockOf
    let ours := e < 48 ∧ b.eyeExists e = true ∧ b.miswired e = false ∧ b.msgArrived e m = true ∧ b.partOfEye e = some p ∧
      l.cut.any (fun c => c.eye == e) = true ∧ m.dst = l.rank
    p < 8 → b.part p = some x → x.last = some l →
    (ours → m.kind = kindTwinAsk → ∀ xs, got.twinBlocks p ver ks = some xs →
      Does (.twinRequest e m) s (got.msgSend p { (got.mkMsg p kindTwin m.src 0) with
        vc := 4, aglets := true, words := 1 :: m.words, blocks := xs.map (fun (y : Block) => (y.pay, y.agl)) })) ∧
    (ours → m.kind = kindTwinAsk → got.twinBlocks p ver ks = none → got.twinBlocks p ((ver + 65535) % 65536) ks = none →
      Does (.twinRequest e m) s (got.msgSend p { (got.mkMsg p kindTwin m.src 0) with vc := 4, aglets := true, words := 0 :: m.words, blocks := [] })) ∧
    (ours → m.kind = kindTwin → x.twins.find? (fun (y : TwinAsk) => y.words == m.words.drop 1 && y.ranks.head? == some m.src) = none → Does (.twinReply e m) s got) ∧
    (ours → m.kind = kindTwin → x.twins.find? (fun (y : TwinAsk) => y.words == m.words.drop 1 && y.ranks.head? == some m.src) = some a → ver = 1 → ys.length = a.items.length →
      (∀ z ∈ a.items.zip ys, (z.2.check (got.expectOf p z.1.2.1 z.1.2.2.1 a.ver)).1 = .ok) →
      Does (.twinReply e m) s ((got.setPart p { x with twins := x.twins.filter (fun (y : TwinAsk) => y.items != a.items) }).repair p a ys)) ∧
    (ours → m.kind = kindUnusable → l.buddy = m.src → Does (.partnerUnusableNotice e m) s (got.onPart p (fun y => { y with partnerS := none, guar := setBit y.guar 3 false }))) ∧
    (ours → m.kind = kindUnusable → l.buddy ≠ m.src → Does (.partnerUnusableNotice e m) s got) ∧
    (ours → m.kind = kindReport → Does (.secureReport e m) s (got.reportIn p (m.words.getD 0 0) m.src (m.words.getD 1 0) (m.words.getD 2 0) (decide (m.words.getD 3 0 = 1)))) ∧
    (x.securing = none → Does (.partnerLayerCommit p) s b ∧ Does (.flashLayerCommit p) s b ∧ Does (.securingReadComplete p hold) s b) ∧
    (x.securing = some q →
      (q.read = true → q.layers % 2 = 1 → q.partner = false → q.pFail = false → q.chunks ≤ q.acked → (q.op ≠ 0 ∨ x.secNext = []) →
        Yields (.partnerLayerCommit p) s (fun c => (c.part p).map (fun y => y.partnerS) = some (some q.s) ∧ c.hbm = b.hbm ∧ c.flash = b.flash)) ∧
      (q.acked < q.chunks → Does (.partnerLayerCommit p) s b) ∧
      (q.read = true → 2 ≤ q.layers → q.flash = false → q.fFail = false → (q.op ≠ 0 ∨ x.secNext = []) →
        Yields (.flashLayerCommit p) s (fun c => ∃ k, c.flash = b.flash ++ [(k, { q.gen with complete := true })] ∧ ∀ z ∈ b.flash, z.1 < k)) ∧
      (q.read = true → Does (.securingReadComplete p hold) s b) ∧
      (q.read = false → q.layers = 1 → q.partner = false → q.pFail = false →
        (∀ t ∈ l.secured, ∀ at_, b.tensorAt p t.2 = some at_ → ∀ i, i < at_.2 → ∀ y, b.hbmGet (at_.1 + i) = some y →
          (y.check (b.expectOf p t.1.tag t.1.kind (b.versionOf p t.1.tag))).1 = .ok) →
        Yields (.securingReadComplete p hold) s (fun c => ((c.part p).bind (fun y => y.securing)).any (fun z => z.read && decide (z.holdMs = hold) && decide (z.s = q.s)) = true ∧ c.hbm = b.hbm)))

/-- R433, R440 to R443: the input, the capper and the bubbles. A sample moves the meters and keeps the set point within the input's limit; an input out of range for its time switches every rail off; the capper's fraction is the rule's, from 0 to 7/8; TRIM lowers the set point by the excess, and raises it by 1 % of the cap; the attribution
is scaled to the meter; a window's k is the most severe of its three demands, and exactly k slots of a window are withheld. Where it rests on a choice of the model: log entries 60 and 228. -/
def Obligations.InputAndCapperAct : Prop :=
  ∀ (s : State) (mv ma meas issue avg meter model core taper : Nat) (cyc : Option Nat) (ps : List (Nat × Nat × Nat)),
    let b := s.blk
    let gain := b.rf (pwrReg .PWR_CAP_CFG) Fld.PWR_CAP_CFG_GAIN
    let f := b.pwr.fMod
    let e : Rat := (((meas : Rat) + (issue : Rat) * (f / (1 - f))) - (b.setPoint : Rat)) / (b.setPoint : Rat)
    (Yields (.inputSample mv ma) s (fun c => c.pwr.inputMv = mv ∧ c.pwr.inputMa = ma ∧ c.setPoint ≤ mv * 86 ∧
      (c.pwr.energyMj * 10 ^ 9 + c.pwr.energyPj) % (2 ^ 64 * 10 ^ 9) = (b.pwr.energyMj * 10 ^ 9 + b.pwr.energyPj + mv * ma) % (2 ^ 64 * 10 ^ 9) ∧
      (mv < 42000 → c.pwr.underUs = b.pwr.underUs + 1) ∧ (42000 ≤ mv → c.pwr.underUs = 0) ∧ (60000 < mv → c.pwr.overUs = b.pwr.overUs + 1) ∧ c.hbm = b.hbm ∧ c.parts = b.parts)) ∧
    (100 ≤ b.pwr.underUs ∨ 10 ≤ b.pwr.overUs → Yields .inputFault s (fun c => c.pwr.fault = true ∧ c.pwr.vshank = false ∧ c.pwr.rails = (List.range 10).map (fun d => (d, 7)) ∧ c.stage = 0 ∧ c.pins.linkUp = false ∧ c.flash = b.flash ∧ c.recd = b.recd)) ∧
    (b.pwr.underUs < 100 → b.pwr.overUs < 10 → Does .inputFault s b) ∧
    (b.setPoint ≠ 0 → Yields (.capperTick meas issue ps) s (fun c => c.pwr.fMod = max 0 (min (7 / 8) ((gain : Rat) / 4 * e)) ∧
      (c.rf (pwrReg .PWR_STATE) Fld.PWR_STATE_K_MOD : Rat) < 64 * c.pwr.fMod + 1 ∧ 64 * c.pwr.fMod ≤ c.rf (pwrReg .PWR_STATE) Fld.PWR_STATE_K_MOD ∧
      (∀ p m i, (p, m, i) ∈ ps → b.rf ⟨.PWR_CAP_P, iod0, p⟩ Fld.PWR_CAP_P_CAP_W = 0 → (∀ x ∈ ps, x.1 = p → x = (p, m, i)) → slotGet c.pwr.fPart p = some 0) ∧ c.hbm = b.hbm ∧ c.parts = b.parts)) ∧
    (b.rf (pwrReg .PWR_CAP_CFG) Fld.PWR_CAP_CFG_TRIM = 1 →
      (b.capMw < avg → b.pwr.trimOff + (avg - b.capMw) ≤ b.capBound → Yields (.trimTick avg) s (fun c => c.setPoint + (avg - b.capMw) = b.setPoint)) ∧
      (avg * 100 ≤ b.capMw * 98 → Yields (.trimTick avg) s (fun c => c.setPoint = b.capBound - (b.pwr.trimOff - b.capMw / 100) ∧ c.setPoint ≤ b.capBound)) ∧
      (b.capMw * 98 < avg * 100 → avg ≤ b.capMw → Does (.trimTick avg) s b)) ∧
    (b.rf (pwrReg .PWR_CAP_CFG) Fld.PWR_CAP_CFG_TRIM = 0 → Yields (.trimTick avg) s (fun c => c.setPoint = b.capBound)) ∧
    (model ≠ 0 → Yields (.attributionScale meter model) s (fun c => c.pwr.scale * (model : Rat) = b.pwr.scale * (meter : Rat) ∧ c.regs = b.regs)) ∧
    (core < 180 → Yields (.bubbleWindow core taper cyc) s (fun c => (∀ a, a < 4 → Sp.get 0 c.pwr.bubble (4 * core + a) = b.bubbleK core a (min 1000 taper) cyc) ∧
      (∀ i, i / 4 ≠ core → Sp.get 0 c.pwr.bubble i = Sp.get 0 b.pwr.bubble i) ∧
      (b.pwr.coolStop = true → ∀ a, a < 4 → Sp.get 0 c.pwr.bubble (4 * core + a) = 64) ∧
      (b.pwr.coolStop = false → Sp.get 0 b.pwr.droop (core / 5) = 1 → ∀ a, a < 4 → 32 ≤ Sp.get 0 c.pwr.bubble (4 * core + a)) ∧
      (b.pwr.coolStop = false → ∀ a, a < 4 → slots64 (b.fCap (core / 5)) ≤ Sp.get 0 c.pwr.bubble (4 * core + a)))) ∧
    (∀ k, k ≤ 64 → ((List.range 64).filter (withheld k)).length = k)

/-- R439, R444, R445: droops and operating points. An onset holds a change of its die, and at least half of the slots of every core of its own cluster are withheld, of no other's; a taper follows a hold and the droop clears after it; a change takes one step of 25 MHz or 10 mV: the voltage first where the clock rises, the clock first where it falls; while a droop of the die lasts no step is taken. Where it rests on a choice of the model: log entries 60 and 106. -/
def Obligations.DroopsAndPoints : Prop :=
  ∀ (s : State) (cl d : Nat),
    let b := s.blk
    let r := clkReg d
    let f := b.rf r Fld.CLK_STATE_FREQ
    let t := b.rf r Fld.CLK_STATE_TARGET
    let moves := b.rf r Fld.CLK_STATE_CHANGING = 1 ∨ (b.rf r Fld.CLK_STATE_PENDING = 1 ∧ b.opMay d = true)
    cl < 36 → d < 10 →
    Yields (.droopOnset cl) s (fun c => Sp.get 0 c.pwr.droop cl = 1 ∧ (∀ k, k ≠ cl → Sp.get 0 c.pwr.droop k = Sp.get 0 b.pwr.droop k) ∧
      (∀ i, i / 20 = cl → 32 ≤ Sp.get 0 c.pwr.bubble i) ∧ (∀ i, i / 20 ≠ cl → Sp.get 0 c.pwr.bubble i = Sp.get 0 b.pwr.bubble i) ∧
      ((b.rf (clkReg (clDie cl)) Fld.CLK_STATE_CHANGING = 1 ∨ b.rf (clkReg (clDie cl)) Fld.CLK_STATE_PENDING = 1) → c.rf (clkReg (clDie cl)) Fld.CLK_STATE_FROZEN = 1) ∧ c.hbm = b.hbm ∧ c.parts = b.parts ∧ c.cores = b.cores) ∧
    (Sp.get 0 b.pwr.droop cl = 1 → Yields (.droopRecovery cl) s (fun c => Sp.get 0 c.pwr.droop cl = 2 ∧ c.regs = b.regs)) ∧
    (Sp.get 0 b.pwr.droop cl ≠ 1 → Does (.droopRecovery cl) s b) ∧
    (Sp.get 0 b.pwr.droop cl = 2 → Yields (.droopClear cl) s (fun c => Sp.get 0 c.pwr.droop cl = 0 ∧ (∀ k, k ≠ cl → Sp.get 0 c.pwr.droop k = Sp.get 0 b.pwr.droop k) ∧ c.hbm = b.hbm ∧ c.parts = b.parts)) ∧
    (Sp.get 0 b.pwr.droop cl ≠ 2 → Does (.droopClear cl) s b) ∧
    ((b.dieDroops d = true ∨ b.up d = false ∨ b.rf r Fld.CLK_STATE_PLL_LOCK = 0) → Does (.freqStep d) s b) ∧
    (¬ moves → Does (.freqStep d) s b) ∧
    (b.dieDroops d = false → b.up d = true → b.rf r Fld.CLK_STATE_PLL_LOCK = 1 → moves →
      Yields (.freqStep d) s (fun c => c.rf r Fld.CLK_STATE_PENDING = 0 ∧ c.rf r Fld.CLK_STATE_TARGET = t ∧ (c.atPoint d t = true ↔ c.rf r Fld.CLK_STATE_CHANGING = 0) ∧ c.hbm = b.hbm ∧ c.parts = b.parts) ∧
      (f < opMhz t → (4 ≤ d ∨ opMv t ≤ b.mvOf d) → Yields (.freqStep d) s (fun c => c.rf r Fld.CLK_STATE_FREQ = f + 25 ∧ c.mvOf d = b.mvOf d)) ∧
      (f < opMhz t → d < 4 → b.mvOf d < opMv t → Yields (.freqStep d) s (fun c => c.rf r Fld.CLK_STATE_FREQ = f ∧ c.mvOf d = b.mvOf d + 10)) ∧
      (opMhz t < f → Yields (.freqStep d) s (fun c => c.rf r Fld.CLK_STATE_FREQ = f - 25 ∧ c.mvOf d = b.mvOf d)) ∧
      (f = opMhz t → d < 4 → opMv t < b.mvOf d → Yields (.freqStep d) s (fun c => c.rf r Fld.CLK_STATE_FREQ = f ∧ c.mvOf d = b.mvOf d - 10)))

/-- R404, R405, R435, R448 to R454, R556: thermal protection, phases and gating. A sample shows the hottest sensor and marks a warning; a throttle tick lowers the limit by 5 % of the cap and never below 25 % of it; a coolant stop withholds every slot, asserts FAULT_N and shows its state, and is taken once; its end waits for
the host; a phase shut off is counted, and the point or the rail follows those that are left, and the module stops with the last of VSHANK; a cluster is gated only idle, and gating and waking change no value; the wake from DOZE changes nothing that the dies hold. Where it rests on a choice of the model: log entries 58, 59, 181, 182 and 228. -/
def Obligations.ThermalPhasesAndGating : Prop :=
  ∀ (s : State) (xs : List (Nat × Nat)) (d rail cl : Nat),
    let b := s.blk
    let pinned : Blk := { b with pins := { b.pins with coolantOk := false } }
    let pinned' : Blk := { b with pins := { b.pins with coolantOk := true } }
    let live := b.rf ⟨.PWR_PHASES, d, 0⟩ (railFld rail)
    d < 10 → rail < 4 → cl < 36 →
    (∀ k t, (k, t) ∈ xs → (∀ y ∈ xs, y.1 = k → y.2 = t) → (∀ y ∈ xs, y.1 < 82 ∧ y.2 < 256) → k < 48 →
      Yields (.thermalSample xs) s (fun c => t ≤ c.hotJ ∧ (t < 95 → Sp.get 0 c.pwr.warned k = 0) ∧ (95 ≤ t → Sp.get 0 c.pwr.warned k = 1) ∧ c.hbm = b.hbm)) ∧
    (b.tooHot = true → Yields .thermalLimitTick s (fun c => c.pwr.thermOff = min (b.capMw * 3 / 4) (b.pwr.thermOff + b.capMw / 20) ∧
      b.capMw ≤ 4 * (b.capMw - c.pwr.thermOff) ∧ c.pwr.throttled = true ∧ c.parts = b.parts)) ∧
    (b.tooHot = false → b.coolBy 5 = true → Yields .thermalLimitTick s (fun c => c.pwr.thermOff ≤ b.pwr.thermOff - b.capMw / 100 ∧ c.parts = b.parts)) ∧
    (b.tooHot = false → b.coolBy 5 = false → Does .thermalLimitTick s b) ∧
    (b.stage < 5 → Does .coolantStop s pinned) ∧ (5 ≤ b.stage → b.pwr.coolStop = true → Does .coolantStop s pinned) ∧
    (5 ≤ b.stage → b.pwr.coolStop = false → Yields .coolantStop s (fun c => c.pwr.coolStop = true ∧ c.pwr.wait = false ∧ c.pwr.fault = true ∧ c.mstate = 4 ∧ c.hbm.data = b.hbm.data ∧ c.hbm.aglets = b.hbm.aglets ∧
      (∀ i, i < 720 → b.up (i / 180) = true → Sp.get 0 c.pwr.bubble i = 64))) ∧
    ((b.pwr.coolStop = false ∨ b.pwr.wait = true ∨ (b.pwr.tripped = true ∧ b.coolBy 10 = false)) → Does .coolantRestored s pinned') ∧
    (b.pwr.coolStop = true → b.pwr.wait = false → (b.pwr.tripped = false ∨ b.coolBy 10 = true) →
      Yields .coolantRestored s (fun c => c.pwr.wait = true ∧ c.pwr.fault = false ∧ c.pwr.coolStop = true ∧ c.mstate = 5 ∧ c.parts = b.parts ∧ c.hbm = b.hbm)) ∧
    (live = 0 → Does (.phaseShutoff d rail) s b) ∧
    (0 < live → Yields (.phaseShutoff d rail) s (fun c => c.rf ⟨.PWR_PHASES, d, 0⟩ (railFld rail) = live - 1 ∧ c.hbm = b.hbm ∧ c.parts = b.parts ∧
      (rail < 3 → (railPoint d rail (live - 1)).2 = true → (railPoint d rail live).2 = false → bitOf (Sp.get 0 c.pwr.rails d) rail = true) ∧
      (rail = 0 → d < 4 → 7 ≤ live - 1 → live - 1 < 11 → live < 12 → Sp.get 0 c.pwr.railLim d = 11 - (live - 1)) ∧
      (rail = 3 → live = 1 → c.pwr.vshank = false ∧ c.pwr.fault = true ∧ c.stage = 0))) ∧
    (b.up (clDie cl) = true → b.rf ⟨.CLK_GATE_CFG, clDie cl, 0⟩ Fld.CLK_GATE_CFG_ENABLE = 1 → b.clusterIdle cl = true →
      Yields (.clusterGate cl) s (fun c => c.gated cl = true ∧ (∀ k, k < 36 → k ≠ cl → c.gated k = b.gated k) ∧ c = { b with regs := c.regs } ∧ ∀ g : RegRef, regOk g = true → g.name ≠ .CLK_GATED → c.rd g = b.rd g)) ∧
    ((b.rf ⟨.CLK_GATE_CFG, clDie cl, 0⟩ Fld.CLK_GATE_CFG_ENABLE = 0 ∨ b.clusterIdle cl = false) → Does (.clusterGate cl) s b) ∧
    (b.gated cl = true → Yields (.clusterWake cl) s (fun c => c.gated cl = false ∧ c = { b with regs := c.regs })) ∧
    (b.gated cl = false → Does (.clusterWake cl) s b) ∧
    (b.pwr.doze = true → b.pwr.waking = true → b.asleep = [] → Yields .dozeWakeComplete s (fun c => c.pwr.doze = false ∧ c.pwr.waking = false ∧ c.parts = b.parts ∧ c.ins = b.ins ∧ c.cores = b.cores ∧ c.vec = b.vec ∧ c.hbm = b.hbm))

/-- R29 to R33, R214, R230, R514 to R517, R543 to R546: the stages of start-up. Each command ends its stage in that stage, and changes nothing in another. The input raises VSHANK; the rails come up, and a die whose rail fails does not answer; the ROM boots the first candidate where its image passes the checks and else fails it, and with no candidate it enters recovery; discovery with every die sound goes on under IOD0, with differing revisions it ends management-only, and without
IOD0 in shank-only under CD0; training, clearing and tests end in their results; READY sets the roles, partition 0 and its time; the watchdog's expiry counts a failure of the slot. Where it rests on a choice of the model: log entries 14, 33, 77, 183, 184 and 197. -/
def Obligations.StartUpStages : Prop :=
  ∀ (s : State) (mv ans ms slot : Nat) (ok : Bool) (failed : List (Nat × Nat)) (errs : List (Nat × HbmErr)) (fails bad : List (Nat × Nat × Nat)) (rep : List (Nat × Nat × Nat × Nat)) (seat : Option SeatInfo),
    let b := s.blk
    let k := b.pkg.sku
    let start : RegRef := ⟨.IDENT_START, 0, 0⟩
    let cold := decide (b.rf start Fld.IDENT_START_CAUSE < 3)
    (b.pwr.vshank = false → 44000 ≤ mv → mv ≤ 60000 → Yields (.inputApplied mv ok) s (fun c => c.stage = 0 ∧ c.pwr.vshank = ok ∧ c.pwr.fault = true ∧ c.pwr.inputMv = mv ∧ c.sec.nor = b.sec.nor ∧ c.flash = b.flash ∧
      c.recd.dev0 = b.recd.dev0 ∧ c.recd.bootCnt = (b.recd.bootCnt + 1) % 2 ^ 32 ∧ c.hbm.data = [] ∧ c.parts = [] ∧ c.sec.udsLocked = false)) ∧
    ((b.pwr.vshank = true ∨ mv < 44000 ∨ 60000 < mv) → Does (.inputApplied mv ok) s b) ∧
    (b.stage = 0 → b.pwr.vshank = true →
      Yields (.rails []) s (fun c => c.stage = 1 ∧ c.pwr.fault = false ∧ ∀ d, d < 10 → bitOf c.pkg.answered d = k.populated d) ∧
      (∀ d, d < 10 → k.populated d = true → ((d, 0) ∈ failed ∨ (d, 1) ∈ failed ∨ (d, 2) ∈ failed) →
        Yields (.rails failed) s (fun c => c.stage = 1 ∧ bitOf c.pkg.answered d = false ∧ (b.rf start Fld.IDENT_START_FAIL = 0 → c.rf start Fld.IDENT_START_FAIL = 1)))) ∧
    (b.stage ≠ 0 → Does (.rails failed) s b) ∧
    (b.stage ≠ 1 → Does (.bootRom fails) s b) ∧
    (b.stage = 1 → bitOf b.pkg.answered iod0 = true →
      ((b.sec.candidates cold).head? = some slot → fails.find? (fun x => x.1 == slot) = none →
        Yields (.bootRom fails) s (fun c => c.sec.nor = b.sec.nor ∧ if b.sec.slotOk slot then c.stage = 2 ∧ c.sec.booted = slot ∧ c.sec.udsLocked = true ∧ c.sec.watchdog = true ∧ c.sec.recovery = false
          else slot ∈ c.sec.candFails ∧ c.sec.booted ≠ slot)) ∧
      (b.sec.candidates cold = [] → Yields (.bootRom fails) s (fun c => c.stage = 8 ∧ c.sec.recovery = true ∧ c.rf ⟨.IDENT_PRESENT, 0, 0⟩ Fld.IDENT_PRESENT_MGMT_ONLY = 1 ∧ ∀ d, d < 10 → c.present d = decide (d = iod0)))) ∧
    (b.stage = 1 → bitOf b.pkg.answered iod0 = false → Yields (.bootRom fails) s (fun c => c.stage = 2 ∧ c.recd.owner = 0)) ∧
    (b.stage ≠ 2 → Does (.discovery ans seat) s b) ∧
    (b.stage = 2 → (∀ d, d < 10 → b.posCode d = d) → (∀ d, d < 10 → k.populated d = true → bitOf ans d = true ∧ bitOf b.pkg.answered d = true ∧ idKind (b.identWord d) = kindOf d) →
      (∀ d, d < 10 → bitOf ans d = k.populated d) →
      ((∀ d, d < 10 → k.populated d = true → idMajor (b.identWord d) = idMajor (b.identWord iod0)) →
        Yields (.discovery ans none) s (fun c => c.stage = 3 ∧ c.master = iod0 ∧ (∀ d, d < 10 → c.present d = k.populated d) ∧ (∀ d, d < 10 → k.populated d = true → c.rn ⟨.IDENT_DIE, 0, d⟩ = b.identWord d) ∧
          c.rf ⟨.IDENT_PRESENT, 0, 0⟩ Fld.IDENT_PRESENT_DEGRADED = 0)) ∧
      (∀ d, d < 10 → k.populated d = true → idMajor (b.identWord d) ≠ idMajor (b.identWord iod0) →
        Yields (.discovery ans seat) s (fun c => c.stage = 6 ∧ c.master = iod0 ∧ c.rf ⟨.IDENT_PRESENT, 0, 0⟩ Fld.IDENT_PRESENT_MGMT_ONLY = 1 ∧ c.pkg.shankOnly = true))) ∧
    (b.stage = 2 → bitOf ans iod0 = false → bitOf ans 0 = true → bitOf b.pkg.answered 0 = true → idKind (b.identWord 0) = 1 →
      Yields (.discovery ans seat) s (fun c => c.stage = 7 ∧ c.master = 0 ∧ c.pkg.shankOnly = true ∧ c.present iod0 = false)) ∧
    (b.stage ≠ 3 → Does (.weltTraining rep) s b) ∧
    (b.stage = 3 → Yields (.weltTraining []) s (fun c => c.stage = 4 ∧ ∀ d m, d < 10 → b.present d = true → m ∈ modulesOf k d → b.rf ⟨.WLT_MOD_STATE, d, m.1⟩ Fld.WLT_MOD_STATE_ROLE ≠ 0 →
      c.rf ⟨.WLT_MOD_STATE, d, m.1⟩ Fld.WLT_MOD_STATE_STATE = 2)) ∧
    (b.stage = 4 → bitOf b.pkg.done 0 = false → Yields (.hbmTraining ⟨failed, errs⟩) s (fun c => bitOf c.pkg.done 0 = true ∧ (∀ pc loc, c.hbm.block pc loc = ⟨zeros 4096, aglet0⟩) ∧ c.hbm.spares = b.hbm.spares ∧ c.stage = 4)) ∧
    ((b.stage ≠ 4 ∨ bitOf b.pkg.done 0 = true) → Does (.hbmTraining ⟨failed, errs⟩) s b) ∧
    (b.stage = 4 → bitOf b.pkg.done 1 = false → Yields (.startupAwlTests bad) s (fun c => bitOf c.pkg.done 1 = true ∧ c.stage = 4 ∧ (∀ u ∈ b.sec.failedA, u ∈ c.sec.failedA) ∧
      ∀ u ∈ b.testedUnits, u ∈ bad.map (·.1) → b.sec.loadsOk (awlSection u) = true → c.role u = roFailed ∧ (b.role u ≠ roFailed → u ∈ c.sec.failedA))) ∧
    ((b.stage ≠ 4 ∨ bitOf b.pkg.done 1 = true) → Does (.startupAwlTests bad) s b) ∧
    (b.stage = 4 → b.pkg.done = 3 → b.pins.coolantOk = true → Yields (.packageReady ms) s (fun c => c.stage = 5 ∧ c.rf start Fld.IDENT_START_READY_MS = min 65535 ms ∧ c.sec.watchdog = false ∧
      (∀ d q, d < 4 → q < 9 → ∃ x, c.part 0 = some x ∧ bitOf x.clusters (9 * d + q) = b.present d) ∧
      (∀ d, d < 10 → b.present d = true → c.rf (clkReg d) Fld.CLK_STATE_FREQ = 850) ∧
      (∀ d q, d < 4 → q < 9 → b.present d = true → (∀ i, i < 5 → b.role (clUnit (9 * d + q) i) ≠ roFailed) → c.role (clUnit (9 * d + q) 4) = roSpare ∧ ∀ i, i < 4 → c.role (clUnit (9 * d + q) i) = roActive))) ∧
    ((b.stage ≠ 4 ∨ b.pkg.done ≠ 3) → Does (.packageReady ms) s b) ∧
    (b.sec.watchdog = false → Does .bootWatchdogExpiry s b) ∧
    (b.sec.watchdog = true → b.runLive = false → Yields .bootWatchdogExpiry s (fun c => c.stage = 1 ∧ c.rf start Fld.IDENT_START_CAUSE = 4 ∧
      (b.sec.booted < b.sec.sel.fails.length → b.sec.selA.seq + 1 < 2 ^ 32 → b.sec.selB.seq + 1 < 2 ^ 32 → c.sec.sel.failCnt b.sec.booted = min 3 (b.sec.sel.failCnt b.sec.booted + 1))))

/-- R404, R433, R470, R508, R531, R547 to R552, R569, R571: resets, PERST_N and the host link. A cold reset takes effect only where one is due, and keeps boot NOR, recorder and flash; a package reset keeps also what R550 says and the shut-off phases; a cluster reset, made only with nothing in flight, leaves zeros and keeps the units' roles;
a function's reset releases its locks and clears its buffers and recorded sequences while its operations, the partitions and the gatherer's counters stay; PERST_N brings the link down and changes no memory; a link that trains too slowly three times is held down. Where it rests on a choice of the model: log entries 77 and 104. -/
def Obligations.ResetsAndHostLink : Prop :=
  ∀ (s : State) (cl f rate width best : Nat),
    let b := s.blk
    let start : RegRef := ⟨.IDENT_START, 0, 0⟩
    let due2 := b.pwr.inputFlt = true ∧ b.pwr.vshank = false ∧ 44000 ≤ b.pwr.inputMv ∧ b.pwr.inputMv ≤ 58000
    let top := if b.stage = 8 then 16 else best
    let trains := b.pins.perst = false ∧ b.stage ≠ 0 ∧ b.pins.linkHeld = false ∧ bitOf b.pkg.lost iod0 = false ∧ bitOf b.pkg.answered iod0 = true
    cl < 36 → f < 9 →
    (due2 ∨ b.pkg.resetDue = 1 → Yields .coldReset s (fun c => c.stage = 0 ∧ c.rf start Fld.IDENT_START_CAUSE = (if due2 then 2 else 1) ∧ c.pwr.vshank = true ∧ c.parts = [] ∧ c.hbm.data = [] ∧ c.hbm.aglets = [] ∧ c.ins = ⟨[], []⟩ ∧
      c.mbx.ops = [] ∧ c.sec.scopes = 0 ∧ c.sec.udsLocked = false ∧ c.sec.nor = b.sec.nor ∧ c.sec.selA = b.sec.selA ∧ c.sec.failedA = b.sec.failedA ∧ (b.sec.scopes = 0 → c.recd.dev0 = b.recd.dev0 ∧ c.recd.nextSeq = b.recd.nextSeq) ∧
      c.recd.bootCnt = (b.recd.bootCnt + 1) % 2 ^ 32 ∧ c.hbm.records = b.hbm.records ∧ c.flash = b.flash ∧ (∀ g : RegRef, g.name = .PWR_PHASES → c.rd g = g.reset))) ∧
    (¬ due2 → b.pkg.resetDue ≠ 1 → Does .coldReset s b) ∧
    (3 ≤ b.pkg.resetDue → b.pkg.resetDue ≤ 5 → b.regs.wf = true → Yields .packageReset s (fun c => c.stage = 1 ∧ c.rf start Fld.IDENT_START_CAUSE = b.pkg.resetDue ∧ c.pwr.vshank = true ∧ c.parts = [] ∧ c.hbm.data = [] ∧ c.hbm.aglets = [] ∧
      c.ins = ⟨[], []⟩ ∧ c.mbx.ops = [] ∧ c.sec.scopes = 0 ∧ c.sec.udsLocked = false ∧ c.sec.nor = b.sec.nor ∧ (b.sec.scopes = 0 → c.recd.dev0 = b.recd.dev0 ∧ c.recd.held = b.recd.held) ∧ c.recd.bootCnt = (b.recd.bootCnt + 1) % 2 ^ 32 ∧
      c.hbm.records = b.hbm.records ∧ c.flash = b.flash ∧ c.pwr.shutOff = b.pwr.shutOff ∧ c.pwr.energyMj = b.pwr.energyMj ∧ (∀ g : RegRef, regOk g = true → g.name = .PWR_PHASES → c.rd g = b.rd g))) ∧
    ((b.pkg.resetDue < 3 ∨ 5 < b.pkg.resetDue) → Does .packageReset s b) ∧
    (b.flightsOf cl = [] → b.attemptOn cl = false → Yields (.clusterReset cl) s (fun c => (∀ a, a < 2 ^ 27 → Sp.get 0 c.ins.data (2 ^ 27 * cl + a) = 0) ∧ (∀ k, k / 2 ^ 27 ≠ cl → Sp.get 0 c.ins.data k = Sp.get 0 b.ins.data k) ∧
      (∀ g : RegRef, regOk g = true → g.name.row.scope = Scope.cluster → g.at_ = cl → g.name ≠ .SEQ_INS_MAPOUT → c.rd g = g.reset) ∧ c.rd ⟨.SEQ_INS_MAPOUT, cl, 0⟩ = b.rd ⟨.SEQ_INS_MAPOUT, cl, 0⟩ ∧
      (∀ u, unitNo u = true → c.role u = b.role u) ∧ c.gated cl = b.gated cl ∧ c.hbm = b.hbm ∧ c.parts = b.parts)) ∧
    ((b.flightsOf cl ≠ [] ∨ b.attemptOn cl = true) → Does (.clusterReset cl) s b) ∧
    Yields (.functionLevelReset f) s (fun c => (∀ m, m < 16 → c.mbx.req.read (256 * mbxNo f m) 256 = List.replicate 256 0 ∧ c.mbx.rsp.read (256 * mbxNo f m) 256 = List.replicate 256 0 ∧ slotGet c.mbx.lastSeq (mbxNo f m) = none ∧ c.queued f m = []) ∧
      (∀ g : RegRef, regOk g = true → g.name = .MBX_LOCK → c.rn g ≠ fnId f) ∧ c.mbx.ops = b.mbx.ops ∧ c.parts = b.parts ∧ c.hbm = b.hbm ∧ c.seq = b.seq ∧ c.evg.cnt = b.evg.cnt ∧ c.stage = b.stage) ∧
    Yields .perstNAssert s (fun c => c.pins.perst = true ∧ c.pins.linkUp = false ∧ c.mbx.ops = b.mbx.ops ∧ c.parts = b.parts ∧ c.hbm = b.hbm ∧ c.ins = b.ins ∧ c.seq = b.seq ∧ c.stage = b.stage ∧ c.evg.cnt = b.evg.cnt ∧
      ∀ q m, q < 9 → m < 16 → slotGet c.mbx.lastSeq (mbxNo q m) = none) ∧
    Does .perstNDeassert s { b with pins := { b.pins with perst := false } } ∧
    (¬ trains → Does (.hostLinkTraining rate width best) s b) ∧
    (trains → 16 ≤ min rate top → Yields (.hostLinkTraining rate width best) s (fun c => c.pins.linkUp = true ∧ c.pins.linkRate = min rate top ∧ c.pins.linkWidth = width ∧ c.pins.linkFails = 0 ∧ c.parts = b.parts ∧ c.hbm = b.hbm ∧
      (16 ≤ width → top ≤ rate → c.recd = b.recd) ∧ (b.recReach iod0 = true → (width < 16 ∨ rate < top) → c.recd.nextSeq = (b.recd.nextSeq + 1) % 2 ^ 64))) ∧
    (trains → min rate top < 16 → Yields (.hostLinkTraining rate width best) s (fun c => c.pins.linkUp = false ∧ c.pins.linkFails = b.pins.linkFails + 1 ∧ (c.pins.linkHeld = true ↔ 3 ≤ b.pins.linkFails + 1) ∧ c.parts = b.parts ∧ c.hbm = b.hbm))

/-- R534 to R536, R574, R575: the recorder's entries and the I3C target. An entry that reaches the owner takes the next SEQ and stands, with its code and die, in both devices; one that does not is held by its die, and forwarded, marked late, when the owner is reached; a device whose write fails is retired. The target answers to its own address only, gives
the bytes of its registers, and takes a dynamic address only while it has none. Where it rests on a choice of the model: log entry 78. -/
def Obligations.RecorderAndI3cAct : Prop :=
  ∀ (s : State) (r : RecIn) (d addr off n avg a st : Nat) (bad0 bad1 : Bool),
    let b := s.blk
    let o := b.recd.owner
    let q : RegRef := ⟨.REC_STATE, o, 0⟩
    let reached (v : Nat) : Prop := b.pwr.inputMv ≠ 0 ∧ v = b.pins.i3cDyn.getD 0x5A
    r.die < 10 → d < 10 → addr < 128 → a < 128 → st < 128 →
    (b.recReach r.die = true → b.rf q Fld.REC_STATE_DEV0_OK = 1 → b.rf q Fld.REC_STATE_DEV1_OK = 1 →
      Yields (.recorderEntry r false false) s (fun c => c.recd.nextSeq = (b.recd.nextSeq + 1) % 2 ^ 64 ∧ c.hbm = b.hbm ∧ c.parts = b.parts ∧
        ∃ e, slotGet c.recd.dev0 (b.recd.nextSeq % recSlots) = some e ∧ slotGet c.recd.dev1 (b.recd.nextSeq % recSlots) = some e ∧ e.seq = b.recd.nextSeq ∧ e.code = r.code ∧ e.die = r.die ∧ e.boot = b.recd.bootCnt ∧ e.late = false)) ∧
    (b.recReach r.die = true → b.rf q Fld.REC_STATE_DEV0_OK = 1 → o < 10 → Yields (.recorderEntry r true bad1) s (fun c => c.rf q Fld.REC_STATE_DEV0_OK = 0 ∧ c.recd.dev0 = b.recd.dev0 ∧ c.recd.nextSeq = (b.recd.nextSeq + 2) % 2 ^ 64)) ∧
    (b.recReach r.die = false → ((slotGet b.recd.held r.die).getD []).length < 64 →
      Yields (.recorderEntry r bad0 bad1) s (fun c => c.recd.nextSeq = b.recd.nextSeq ∧ c.recd.dev0 = b.recd.dev0 ∧ ((slotGet c.recd.held r.die).getD []).length = ((slotGet b.recd.held r.die).getD []).length + 1)) ∧
    (b.recReach r.die = false → 64 ≤ ((slotGet b.recd.held r.die).getD []).length →
      Yields (.recorderEntry r bad0 bad1) s (fun c => c.recd.held = b.recd.held ∧ Sp.get 0 c.recd.lost r.die = Sp.get 0 b.recd.lost r.die + 1)) ∧
    (b.recReach d = false → Does (.recorderForward d) s b) ∧
    (b.recReach d = true → Yields (.recorderForward d) s (fun c => slotGet c.recd.held d = none ∧ Sp.get 0 c.recd.lost d = 0 ∧
      c.recd.nextSeq % 2 ^ 64 = (b.recd.nextSeq + ((slotGet b.recd.held d).getD []).length + (if Sp.get 0 b.recd.lost d = 0 then 0 else 1)) % 2 ^ 64)) ∧
    (reached addr → off ≠ 16 → Does (.i3cRead addr off n) s { b with readData := (List.range n).map (fun i => b.i3cByte (off + i)) }) ∧
    (reached addr → Yields (.i3cRead addr 0 4) s (fun c => c.readData = leBytes 4 (b.rn ⟨.PWR_I3C_ID, 0, 0⟩)) ∧
      Yields (.i3cEnergyRead addr) s (fun c => c.readData = leBytes 4 (b.rn ⟨.PWR_I3C_ENERGY, 0, 0⟩) ∧ c.pwr.i3cLatch = BitVec.ofNat 32 (b.rn ⟨.PWR_I3C_ENERGY, 0, 0⟩ / 2 ^ 32) ∧ c.regs = b.regs) ∧
      Does (.getpid addr) s { b with readData := (leBytes 6 Config.i3cPid.toNat).reverse } ∧ Does (.getbcr addr) s { b with readData := [Config.i3cBcr] } ∧ Does (.getdcr addr) s { b with readData := [Config.i3cDcr] } ∧
      Yields (.getstatus addr) s (fun c => c.readData.length = 2 ∧ c.regs = b.regs ∧ c.pins = b.pins)) ∧
    (¬ reached addr → Does (.i3cRead addr off n) s b ∧ Does (.i3cEnergyRead addr) s b ∧ Does (.getpid addr) s b ∧ Does (.getbcr addr) s b ∧ Does (.getdcr addr) s b) ∧
    Yields .rstdaa s (fun c => c.regs = b.regs ∧ (b.pwr.inputMv ≠ 0 → c.pins.i3cDyn = none)) ∧
    (b.pwr.inputMv ≠ 0 → b.pins.i3cDyn = none →
      Does (.entdaa a) s { b with pins := { b.pins with i3cDyn := some a } } ∧ Does (.setdasa 0x5A a) s { b with pins := { b.pins with i3cDyn := some a } }) ∧
    (b.pins.i3cDyn ≠ none → Does (.entdaa a) s b ∧ Does (.setdasa st a) s b) ∧ (st ≠ 0x5A → Does (.setdasa st a) s b) ∧
    Yields (.i3cRefresh avg) s (fun c => c.rn ⟨.PWR_I3C_ENERGY, 0, 0⟩ = b.pwr.energyMj % 2 ^ 64 ∧ c.rn ⟨.PWR_I3C_PHASES, 0, 0⟩ = min (2 ^ 32 - 1) b.pwr.shutOff ∧
      bits (c.rn ⟨.PWR_I3C_STATE, 0, 0⟩) 0 1 = b2n b.pins.coolantOk ∧ bits (c.rn ⟨.PWR_I3C_STATE, 0, 0⟩) 1 1 = b2n b.pwr.fault ∧ c.hbm = b.hbm ∧ c.parts = b.parts)

/-- R549, R543: the module right after reset. No command waits; every register reads its reset value, but the cap and the part code, which the part number gives; memories, FIFOs, partitions and operations are empty; no rail is up; the part number and what fuses hold are those of log entry 77, the model's choice. Where it rests on a choice of the model: log entry 77. -/
def Obligations.ResetStands : Prop :=
  let b := State.reset.blk
  State.reset.pending = [] ∧
  (∀ g : RegRef, regOk g = true → g.name ≠ .PWR_CAP → g.name ≠ .PWR_I3C_ID → b.rd g = g.reset) ∧
  b.rn ⟨.PWR_CAP, iod0, 0⟩ = 3800 ∧ b.stage = 0 ∧ b.role 0x10 = roIdle ∧ b.recd.bootCnt = 0 ∧
  b.rf ⟨.PWR_PHASES, 0, 0⟩ Fld.PWR_PHASES_CORE = 12 ∧ b.rf ⟨.WLT_HB_CFG, 3, 0⟩ Fld.WLT_HB_CFG_MISSES = 5 ∧
  b.hbm.data = [] ∧ b.hbm.aglets = [] ∧ b.ins = ⟨[], []⟩ ∧ b.parts = [] ∧ b.mbx.ops = [] ∧ b.seq.flights = [] ∧ b.flash = [] ∧ b.sec.scopes = 0 ∧ b.sec.udsLocked = false ∧
  b.pwr.vshank = false ∧ b.pwr.coolStop = false ∧ b.pins.linkUp = false ∧ b.regs.wf = true ∧ b.genuine

/-- A step takes the command at the front of the queue and is its effect on the module with the rest of the queue; an empty queue idles (log entry 1). Where it rests on a choice of the model: log entry 1. -/
def Obligations.StepTakesFront : Prop :=
  (∀ (c : Instr) (rest : List Instr) (b : Blk), step ⟨c :: rest, b⟩ = exec c ⟨rest, b⟩) ∧
  ∀ b : Blk, step ⟨[], b⟩ = .next ⟨[], b⟩

/-- Every command whose operands name places that exist runs, in every state, and leaves the queue alone; every other one faults. No command is refused. R133, R137, R165: of the float, special-function and permutation instructions, each
that its core issues now writes active elements of its destination tile alone and is counted in SEQ_VEC_INSTR_CNT. -/
def Obligations.EveryCommandRuns : Prop :=
  (∀ (c : Instr) (s : State), (c.wf = true → ∃ b, exec c s = .next { s with blk := b }) ∧ (c.wf = false → exec c s = .fault .illFormed)) ∧
  (∀ (s : State) (core cls op : Nat) (f : VOps) (i : Instr),
    let b := s.blk
    (i, cls, op) ∈ ([(.fadd core f, 1, 0), (.fsub core f, 1, 1), (.fmul core f, 1, 2), (.ffma core f, 1, 3), (.fmax core f, 1, 4), (.fmin core f, 1, 5),
      (.fabs core f, 1, 6), (.fneg core f, 1, 7), (.fmov core f, 1, 8), (.cvtfi core f, 1, 9), (.cvtif core f, 1, 10), (.rcp core f, 3, 0), (.rsqrt core f, 3, 1),
      (.sqrt core f, 3, 2), (.exp2 core f, 3, 3), (.log2 core f, 3, 4), (.tanh core f, 3, 5), (.erf core f, 3, 6), (.lperm core f, 5, 0), (.rperm core f, 5, 1),
      (.lbcast core f, 5, 2), (.rbcast core f, 5, 3), (.lrot core f, 5, 4)] : List (Instr × Nat × Nat)) →
    CoreReady b core ⟨cls, op, f⟩ →
    Yields i s (fun c =>
      (∀ r l, r < 16 → l < 128 → b.vactive (b.vctx core) f r l = false → c.vec.tile core f.dst r l = b.vec.tile core f.dst r l) ∧
      c.rd ⟨.SEQ_VEC_INSTR_CNT, core, 0⟩ = (b.bump ⟨.SEQ_VEC_INSTR_CNT, core, 0⟩).rd ⟨.SEQ_VEC_INSTR_CNT, core, 0⟩ ∧
      TilesBut b c core f.dst ∧ PredsSame b c ∧ VecOnly b c))

/-- R28, R31, R43, R513, R516, R526: identity and trust outlast every step. From every state, whatever command runs, resets among them: the part number, the identity words, the vendor's keys and their revocations and the device secret stay; the fused security version never falls; every populated position keeps an identity word of its own kind
and position; and boot NOR changes by a firmware update alone: its command, its completion, or the CANCEL that lets the next one begin. -/
def Obligations.IdentityAndTrustStand : Prop :=
  ∀ (s t : State), step s = .next t →
    t.blk.fuses = s.blk.fuses ∧ s.blk.sec.svn ≤ t.blk.sec.svn ∧ (s.blk.genuine → t.blk.genuine) ∧
    ((∀ c rest, s.pending = c :: rest → (∀ f m, c ≠ .fwUpdate f m) ∧ (∀ f m, c ≠ .cancel f m) ∧ (∀ h, c ≠ .opCompletionCommit h)) → t.blk.sec.nor = s.blk.sec.nor)
end

