-- ==== Sys2Proof/Laws/Sparse.lean ====
section
/-!
SUPPORT. Sparse data: what a key reads as after a change, and that the canonical form is kept.
-/
namespace Sys2Proof.Machine

/-! ### Keyed tables -/

theorem Sp.get_eq {α : Type} (d : α) (m : List (Nat × α)) (k : Nat) : Sp.get d m k = ((m.find? (fun p => p.1 == k)).map (·.2)).getD d := by
  unfold Sp.get; cases m.find? (fun p => p.1 == k) <;> rfl

@[simp] theorem Sp.get_nil {α : Type} (d : α) (k : Nat) : Sp.get d [] k = d := rfl

theorem find_below {α : Type} (m : List (Nat × α)) (k j : Nat) (h : k < j) :
    (m.filter (fun p => decide (p.1 < j))).find? (fun p => p.1 == k) = m.find? (fun p => p.1 == k) := by
  induction m with
  | nil => rfl
  | cons p r ih =>
    by_cases hp : p.1 < j
    · simp [hp, List.find?_cons, ih]
    · have : (p.1 == k) = false := by simp; omega
      simp [hp, this, ih]

theorem find_above {α : Type} (m : List (Nat × α)) (k j : Nat) (h : j < k) :
    (m.filter (fun p => decide (j < p.1))).find? (fun p => p.1 == k) = m.find? (fun p => p.1 == k) := by
  induction m with
  | nil => rfl
  | cons p r ih =>
    by_cases hp : j < p.1
    · simp [hp, List.find?_cons, ih]
    · have : (p.1 == k) = false := by simp; omega
      simp [hp, this, ih]

theorem find_none {α : Type} (m : List (Nat × α)) (q : Nat × α → Bool) (k : Nat) (h : ∀ p, q p = true → p.1 ≠ k) :
    (m.filter q).find? (fun p => p.1 == k) = none := by
  simp only [List.find?_eq_none, List.mem_filter]
  intro p hp; simpa using h p hp.2

theorem Sp.get_set {α : Type} [DecidableEq α] (d : α) (m : List (Nat × α)) (k j : Nat) (v : α) : Sp.get d (Sp.set d m k v) j = if j = k then v else Sp.get d m j := by
  have lo := fun h => find_below m j k h
  have hi := fun h => find_above m j k h
  rw [Sp.get_eq, Sp.get_eq, Sp.set]
  rcases Nat.lt_trichotomy j k with h | h | h
  · have e : (m.filter (fun p => decide (k < p.1))).find? (fun p => p.1 == j) = none := find_none _ _ _ (by intro p hp; simp at hp; omega)
    have e2 : (if v = d then ([] : List (Nat × α)) else [(k, v)]).find? (fun p => p.1 == j) = none := by
      split
      · rfl
      · simp; omega
    have hne : ¬ j = k := by omega
    simp only [List.find?_append, lo h, e, e2, Option.or_none, if_neg hne]
  · subst h
    have e : (m.filter (fun p => decide (p.1 < j))).find? (fun p => p.1 == j) = none := find_none _ _ _ (by intro p hp; simp at hp; omega)
    have e2 : (m.filter (fun p => decide (j < p.1))).find? (fun p => p.1 == j) = none := find_none _ _ _ (by intro p hp; simp at hp; omega)
    by_cases hv : v = d <;> simp [List.find?_append, e, e2, hv]
  · have e : (m.filter (fun p => decide (p.1 < k))).find? (fun p => p.1 == j) = none := find_none _ _ _ (by intro p hp; simp at hp; omega)
    have e2 : (if v = d then ([] : List (Nat × α)) else [(k, v)]).find? (fun p => p.1 == j) = none := by
      split
      · rfl
      · simp; omega
    have hne : ¬ j = k := by omega
    simp only [List.find?_append, hi h, e, e2, Option.none_or, if_neg hne]

@[simp] theorem Sp.get_set_same {α : Type} [DecidableEq α] (d : α) (m : List (Nat × α)) (k : Nat) (v : α) : Sp.get d (Sp.set d m k v) k = v := by simp [Sp.get_set]

theorem Sp.get_set_other {α : Type} [DecidableEq α] (d : α) (m : List (Nat × α)) (k j : Nat) (v : α) (h : j ≠ k) : Sp.get d (Sp.set d m k v) j = Sp.get d m j := by
  simp [Sp.get_set, h]

theorem slotGet_slotPut {α : Type} (m : List (Nat × α)) (k j : Nat) (v : α) :
    ((m.filter (fun p => decide (p.1 < k)) ++ [(k, v)] ++ m.filter (fun p => decide (k < p.1))).find? (fun p => p.1 == j)).map (·.2) =
      if j = k then some v else (m.find? (fun p => p.1 == j)).map (·.2) := by
  rcases Nat.lt_trichotomy j k with h | h | h
  · have e : (m.filter (fun p => decide (k < p.1))).find? (fun p => p.1 == j) = none := find_none _ _ _ (by intro p hp; simp at hp; omega)
    have e2 : (k == j) = false := by simp; omega
    have hne : ¬ j = k := by omega
    simp [List.find?_append, find_below m j k h, e, e2, hne]
  · subst h
    have e : (m.filter (fun p => decide (p.1 < j))).find? (fun p => p.1 == j) = none := find_none _ _ _ (by intro p hp; simp at hp; omega)
    simp [List.find?_append, e]
  · have e : (m.filter (fun p => decide (p.1 < k))).find? (fun p => p.1 == j) = none := find_none _ _ _ (by intro p hp; simp at hp; omega)
    have e2 : (k == j) = false := by simp; omega
    have hne : ¬ j = k := by omega
    simp [List.find?_append, find_above m j k h, e, e2, hne]

theorem Sp.get_clear {α : Type} (d : α) (m : List (Nat × α)) (lo n j : Nat) : Sp.get d (Sp.clear m lo n) j = if lo ≤ j ∧ j < lo + n then d else Sp.get d m j := by
  have e1 : j < lo → (m.filter (fun p => decide (p.1 < lo))).find? (fun p => p.1 == j) = m.find? (fun p => p.1 == j) := find_below m j lo
  have e2 : lo + n ≤ j → (m.filter (fun p => decide (lo + n ≤ p.1))).find? (fun p => p.1 == j) = m.find? (fun p => p.1 == j) := by
    intro h
    rcases Nat.eq_zero_or_pos (lo + n) with hz | hz
    · congr 1; exact List.filter_eq_self.2 (by intro p _; simp; omega)
    · have := find_above m j (lo + n - 1) (by omega)
      rw [← this]; congr 2; funext p; simp; omega
  rw [Sp.get_eq, Sp.get_eq, Sp.clear, List.find?_append]
  by_cases h1 : j < lo
  · have : (m.filter (fun p => decide (lo + n ≤ p.1))).find? (fun p => p.1 == j) = none := find_none _ _ _ (by intro p hp; simp at hp; omega)
    rw [e1 h1, this, Option.or_none, if_neg (by omega)]
  · have n1 : (m.filter (fun p => decide (p.1 < lo))).find? (fun p => p.1 == j) = none := find_none _ _ _ (by intro p hp; simp at hp; omega)
    by_cases h2 : j < lo + n
    · have : (m.filter (fun p => decide (lo + n ≤ p.1))).find? (fun p => p.1 == j) = none := find_none _ _ _ (by intro p hp; simp at hp; omega)
      rw [n1, this, if_pos (by omega)]; rfl
    · rw [n1, e2 (by omega), Option.none_or, if_neg (by omega)]

/-! ### The canonical form -/

/-- Every key of `m` is at least `lo`, and they rise strictly. -/
theorem Sp.sorted_iff {α : Type} (m : List (Nat × α)) : Sp.sorted m = true ↔ m.Pairwise (fun p q => p.1 < q.1) := by
  induction m with
  | nil => simp [Sp.sorted]
  | cons p r ih =>
    cases r with
    | nil => simp [Sp.sorted]
    | cons q t =>
      simp only [Sp.sorted, Bool.and_eq_true, decide_eq_true_eq, ih, List.pairwise_cons]
      constructor
      · rintro ⟨h, h2, h3⟩
        exact ⟨fun x hx => by rcases List.mem_cons.1 hx with rfl | hx; exact h; exact Nat.lt_trans h (h2 x hx), h2, h3⟩
      · rintro ⟨h, h2, h3⟩
        exact ⟨h q (List.mem_cons_self ..), h2, h3⟩

theorem Sp.wf_iff {α : Type} [DecidableEq α] (d : α) (m : List (Nat × α)) : Sp.wf d m = true ↔ m.Pairwise (fun p q => p.1 < q.1) ∧ ∀ p ∈ m, p.2 ≠ d := by
  simp [Sp.wf, Sp.sorted_iff]

theorem splice_pairwise {α : Type} (m mid : List (Nat × α)) (lo hi : Nat) (hm : m.Pairwise (fun p q => p.1 < q.1)) (hmid : mid.Pairwise (fun p q => p.1 < q.1))
    (hb : ∀ p ∈ mid, lo ≤ p.1 ∧ p.1 < hi) (hlh : lo ≤ hi) :
    (m.filter (fun p => decide (p.1 < lo)) ++ mid ++ m.filter (fun p => decide (hi ≤ p.1))).Pairwise (fun p q => p.1 < q.1) := by
  rw [List.pairwise_append, List.pairwise_append]
  refine ⟨⟨hm.filter _, hmid, ?_⟩, hm.filter _, ?_⟩
  · intro a ha b hb'
    have := (List.mem_filter.1 ha).2; have := (hb b hb').1; simp at *; omega
  · intro a ha b hb'
    have h1 := (List.mem_filter.1 hb').2
    rcases List.mem_append.1 ha with ha | ha
    · have := (List.mem_filter.1 ha).2; simp at *; omega
    · have := (hb a ha).2; simp at *; omega

theorem Sp.set_wf {α : Type} [DecidableEq α] (d : α) (m : List (Nat × α)) (k : Nat) (v : α) (h : Sp.wf d m = true) : Sp.wf d (Sp.set d m k v) = true := by
  rw [Sp.wf_iff] at *
  obtain ⟨h1, h2⟩ := h
  constructor
  · have := splice_pairwise m (if v = d then [] else [(k, v)]) k (k + 1) h1 (by split <;> simp) (by intro p hp; split at hp <;> simp_all) (by omega)
    unfold Sp.set; exact this
  · intro p hp
    simp only [Sp.set, List.mem_append, List.mem_filter] at hp
    rcases hp with (hp | hp) | hp
    · exact h2 p hp.1
    · split at hp <;> simp_all
    · exact h2 p hp.1

theorem Sp.clear_wf {α : Type} [DecidableEq α] (d : α) (m : List (Nat × α)) (lo n : Nat) (h : Sp.wf d m = true) : Sp.wf d (Sp.clear m lo n) = true := by
  rw [Sp.wf_iff] at *
  obtain ⟨h1, h2⟩ := h
  constructor
  · have := splice_pairwise m [] lo (lo + n) h1 (by simp) (by simp) (by omega)
    simpa [Sp.clear] using this
  · intro p hp
    simp only [Sp.clear, List.mem_append, List.mem_filter] at hp
    rcases hp with hp | hp <;> exact h2 p hp.1

/-! ### Byte memories -/

theorem Mem.cells_keys (a : Nat) (xs : List Byte) : ∀ p ∈ Mem.cells a xs, a ≤ p.1 ∧ p.1 < a + xs.length ∧ p.2 ≠ 0 := by
  induction xs generalizing a with
  | nil => simp [Mem.cells]
  | cons x r ih =>
    intro p hp
    unfold Mem.cells at hp
    split at hp
    · obtain ⟨h1, h2, h3⟩ := ih (a + 1) p hp
      exact ⟨by omega, by simp only [List.length_cons]; omega, h3⟩
    · rcases List.mem_cons.1 hp with rfl | hp
      · exact ⟨Nat.le_refl _, by simp, by assumption⟩
      · obtain ⟨h1, h2, h3⟩ := ih (a + 1) p hp
        exact ⟨by omega, by simp only [List.length_cons]; omega, h3⟩

theorem Mem.cells_pairwise (a : Nat) (xs : List Byte) : (Mem.cells a xs).Pairwise (fun p q => p.1 < q.1) := by
  induction xs generalizing a with
  | nil => simp [Mem.cells]
  | cons x r ih =>
    unfold Mem.cells
    split
    · exact ih (a + 1)
    · exact List.pairwise_cons.2 ⟨fun p hp => by have := Mem.cells_keys _ _ p hp; simp at *; omega, ih (a + 1)⟩

theorem Mem.cells_get (a k : Nat) (xs : List Byte) : Sp.get 0 (Mem.cells a xs) k = if a ≤ k ∧ k < a + xs.length then xs.getD (k - a) 0 else 0 := by
  induction xs generalizing a with
  | nil => simp [Mem.cells]
  | cons x r ih =>
    unfold Mem.cells
    rcases Nat.lt_trichotomy k a with h | h | h
    · have : ¬ (a ≤ k ∧ k < a + (x :: r).length) := by omega
      rw [if_neg this]
      split
      · rw [ih]; rw [if_neg (by omega)]
      · rw [Sp.get_eq]
        have e : (a == k) = false := by simp; omega
        rw [List.find?_cons, e, ← Sp.get_eq, ih, if_neg (by omega)]
    · subst h
      have hk : k ≤ k ∧ k < k + (x :: r).length := ⟨Nat.le_refl _, by simp⟩
      have hx : (x :: r).getD (k - k) 0 = x := by simp
      rw [if_pos hk, hx]
      by_cases hx0 : x = 0
      · rw [if_pos hx0, ih, if_neg (by omega), hx0]
      · rw [if_neg hx0]; simp [Sp.get]
    · have e : (x :: r).getD (k - a) 0 = r.getD (k - (a + 1)) 0 := by
        obtain ⟨j, rfl⟩ : ∃ j, k = a + 1 + j := ⟨k - (a + 1), by omega⟩
        have h1 : a + 1 + j - a = j + 1 := by omega
        have h2 : a + 1 + j - (a + 1) = j := by omega
        rw [h1, h2]; rfl
      have c : (a ≤ k ∧ k < a + (x :: r).length) ↔ (a + 1 ≤ k ∧ k < a + 1 + r.length) := by simp; omega
      have e' : (a == k) = false := by simp; omega
      have g : Sp.get 0 (if x = 0 then Mem.cells (a + 1) r else (a, x) :: Mem.cells (a + 1) r) k = Sp.get 0 (Mem.cells (a + 1) r) k := by
        split
        · rfl
        · rw [Sp.get_eq, List.find?_cons, e', ← Sp.get_eq]
      rw [g, ih, e]
      by_cases hc : a + 1 ≤ k ∧ k < a + 1 + r.length
      · rw [if_pos hc, if_pos (c.2 hc)]
      · rw [if_neg hc, if_neg (fun h => hc (c.1 h))]

/-- One byte after a store: the stored byte inside the run, the old byte outside. -/
theorem Mem.byte_write (m : Mem) (a k : Nat) (xs : List Byte) : (m.write a xs).byte k = if a ≤ k ∧ k < a + xs.length then xs.getD (k - a) 0 else m.byte k := by
  unfold Mem.byte Mem.write
  rw [Sp.get_eq, Sp.get_eq, List.find?_append, List.find?_append]
  by_cases h1 : k < a
  · have e1 := find_below m k a h1
    have e2 : (Mem.cells a xs).find? (fun p => p.1 == k) = none := by
      rw [List.find?_eq_none]; intro p hp; have := Mem.cells_keys a xs p hp; simp; omega
    have e3 : (m.filter (fun p => decide (a + xs.length ≤ p.1))).find? (fun p => p.1 == k) = none := find_none _ _ _ (by intro p hp; simp at hp; omega)
    rw [e1, e2, e3, Option.or_none, Option.or_none, if_neg (by omega)]
  · have e1 : (m.filter (fun p => decide (p.1 < a))).find? (fun p => p.1 == k) = none := find_none _ _ _ (by intro p hp; simp at hp; omega)
    by_cases h2 : k < a + xs.length
    · have e3 : (m.filter (fun p => decide (a + xs.length ≤ p.1))).find? (fun p => p.1 == k) = none := find_none _ _ _ (by intro p hp; simp at hp; omega)
      rw [e1, e3, Option.none_or, Option.or_none, ← Sp.get_eq, Mem.cells_get]
      rw [if_pos (by omega), if_pos (by omega)]
    · have e2 : (Mem.cells a xs).find? (fun p => p.1 == k) = none := by
        rw [List.find?_eq_none]; intro p hp; have := Mem.cells_keys a xs p hp; simp; omega
      have e3 : (m.filter (fun p => decide (a + xs.length ≤ p.1))).find? (fun p => p.1 == k) = m.find? (fun p => p.1 == k) := by
        rcases Nat.eq_zero_or_pos (a + xs.length) with hz | hz
        · congr 1; exact List.filter_eq_self.2 (by intro p _; simp; omega)
        · have := find_above m k (a + xs.length - 1) (by omega)
          rw [← this]; congr 2; funext p; simp; omega
      rw [e1, e2, e3, Option.none_or, Option.none_or, if_neg (by omega)]

theorem Mem.write_wf (m : Mem) (a : Nat) (xs : List Byte) (h : m.wf = true) : (m.write a xs).wf = true := by
  unfold Mem.wf at *
  rw [Sp.wf_iff] at *
  obtain ⟨h1, h2⟩ := h
  constructor
  · exact splice_pairwise m (Mem.cells a xs) a (a + xs.length) h1 (Mem.cells_pairwise a xs) (fun p hp => ⟨(Mem.cells_keys a xs p hp).1, (Mem.cells_keys a xs p hp).2.1⟩) (by omega)
  · intro p hp
    simp only [Mem.write, List.mem_append, List.mem_filter] at hp
    rcases hp with (hp | hp) | hp
    · exact h2 p hp.1
    · exact (Mem.cells_keys a xs p hp).2.2
    · exact h2 p hp.1

@[simp] theorem Mem.read_length (m : Mem) (a n : Nat) : (m.read a n).length = n := by simp [Mem.read]

theorem Mem.read_get (m : Mem) (a n i : Nat) (h : i < n) : (m.read a n)[i]'(by simpa using h) = m.byte (a + i) := by simp [Mem.read]

/-- A run read where it was stored. -/
@[simp] theorem Mem.read_write_same (m : Mem) (a : Nat) (xs : List Byte) : (m.write a xs).read a xs.length = xs := by
  apply List.ext_getElem (by simp)
  intro i h1 h2
  rw [Mem.read_get _ _ _ _ (by simpa using h1), Mem.byte_write, if_pos (by omega)]
  simp [List.getD, h2]

/-- A run read clear of a store is as before. -/
theorem Mem.read_write_other (m : Mem) (a k n : Nat) (xs : List Byte) (h : k + n ≤ a ∨ a + xs.length ≤ k) : (m.write a xs).read k n = m.read k n := by
  apply List.ext_getElem (by simp)
  intro i h1 h2
  have : i < n := by simpa using h1
  rw [Mem.read_get _ _ _ _ this, Mem.read_get _ _ _ _ this, Mem.byte_write, if_neg (by omega)]

theorem Mem.writeNat_wf (m : Mem) (a n v : Nat) (h : m.wf = true) : (m.writeNat a n v).wf = true := Mem.write_wf _ _ _ h

end Sys2Proof.Machine
end

