-- ==== Sys2Proof/Laws/Registers.lean ====
section
/-!
SUPPORT. The register file: what a register and a field read as after a write, and that the canonical form is kept. Two registers that exist never share a key.
-/
namespace Sys2Proof.Machine

theorem RegFile.get_eq (m : RegFile) (r : RegRef) : m.get r = ((m.find? (fun p => decide (p.1 = r))).map (·.2)).getD r.reset := by
  unfold RegFile.get; cases m.find? (fun p => decide (p.1 = r)) <;> rfl

theorem RegFile.find_filter (m : RegFile) (q : RegRef × RegVal → Bool) (r : RegRef) (h : ∀ p, p.1 = r → q p = true) :
    (m.filter q).find? (fun p => decide (p.1 = r)) = m.find? (fun p => decide (p.1 = r)) := by
  induction m with
  | nil => rfl
  | cons p t ih =>
    by_cases hp : p.1 = r
    · simp [h p hp, hp]
    · by_cases hq : q p = true <;> simp [hq, hp, ih]

theorem RegFile.find_out (m : RegFile) (q : RegRef × RegVal → Bool) (r : RegRef) (h : ∀ p, p.1 = r → q p = false) :
    (m.filter q).find? (fun p => decide (p.1 = r)) = none := by
  simp only [List.find?_eq_none, List.mem_filter]
  intro p hp; simp only [decide_eq_true_eq]; intro e; simp [h p e] at hp

@[simp] theorem RegFile.get_set_same (m : RegFile) (r : RegRef) (v : RegVal) : (m.set r v).get r = v := by
  rw [RegFile.get_eq, RegFile.set, List.find?_append, List.find?_append]
  rw [RegFile.find_out _ _ _ (by intro p e; simp [e]), RegFile.find_out _ _ _ (by intro p e; simp [e])]
  split <;> simp [*]

theorem RegFile.get_set_key (m : RegFile) (r g : RegRef) (v : RegVal) (h : g.key ≠ r.key) : (m.set r v).get g = m.get g := by
  rw [RegFile.get_eq, RegFile.get_eq, RegFile.set, List.find?_append, List.find?_append]
  have e2 : (if v = r.reset then ([] : RegFile) else [(r, v)]).find? (fun p => decide (p.1 = g)) = none := by
    split
    · rfl
    · have : r ≠ g := fun e => h (by rw [e])
      simp [this]
  rcases Nat.lt_or_gt_of_ne h with h' | h'
  · rw [e2, RegFile.find_filter _ _ _ (by intro p e; simp [e, h']), RegFile.find_out _ _ _ (by intro p e; simp [e]; omega)]; simp
  · rw [e2, RegFile.find_out _ _ _ (by intro p e; simp [e]; omega), RegFile.find_filter _ _ _ (by intro p e; simp [e, h'])]; simp

/-! ### Registers that exist -/

/-- A reference whose numbers fit the keys of the register file; every register that exists is such a one. -/
def RegRef.sane (r : RegRef) : Prop := r.at_ < 4096 ∧ r.idx < 2048

theorem RegName.code_inj (a b : RegName) (h : a.ctorIdx = b.ctorIdx) : a = b := by
  have ha := RegName.ofNat_ctorIdx a
  have hb := RegName.ofNat_ctorIdx b
  rw [← ha, ← hb, h]

theorem Scope.has_lt (k : Scope) (a : Nat) (h : k.has a = true) : a < 4096 := by
  cases k <;> simp [Scope.has, dieNo, clNo, coreNo, eyeNo, fnNo, evPortNo] at h <;> omega

theorem RegName.count_le (n : RegName) : n.row.count ≤ 2048 := by
  cases n <;> decide

theorem RegRef.sane_of_ok (r : RegRef) (h : regOk r = true) : r.sane := by
  simp only [regOk, Bool.and_eq_true, decide_eq_true_eq] at h
  exact ⟨Scope.has_lt _ _ h.1, Nat.lt_of_lt_of_le h.2 (RegName.count_le _)⟩

/-- Sane references have keys of their own. -/
theorem RegRef.key_inj (r g : RegRef) (hr : r.sane) (hg : g.sane) (h : r.key = g.key) : r = g := by
  obtain ⟨rn, ra, ri⟩ := r
  obtain ⟨gn, ga, gi⟩ := g
  obtain ⟨h1, h3⟩ := hr
  obtain ⟨h2, h4⟩ := hg
  simp only [RegRef.key] at *
  have e1 : rn.ctorIdx = gn.ctorIdx := by omega
  have e2 := RegName.code_inj _ _ e1
  subst e2
  have e3 : ra = ga := by omega
  have e4 : ri = gi := by omega
  rw [e3, e4]

theorem RegFile.get_set_other (m : RegFile) (r g : RegRef) (v : RegVal) (hr : r.sane) (hg : g.sane) (h : g ≠ r) : (m.set r v).get g = m.get g :=
  RegFile.get_set_key _ _ _ _ (fun e => h (RegRef.key_inj _ _ hg hr e))

/-! ### The canonical form -/

theorem RegFile.sorted_iff (m : RegFile) : m.sorted = true ↔ List.Pairwise (fun (p q : RegRef × RegVal) => p.1.key < q.1.key) m := by
  induction m with
  | nil => simp [RegFile.sorted]
  | cons p r ih =>
    cases r with
    | nil => simp [RegFile.sorted]
    | cons q t =>
      simp only [RegFile.sorted, Bool.and_eq_true, decide_eq_true_eq, ih, List.pairwise_cons]
      constructor
      · rintro ⟨h, h2, h3⟩
        exact ⟨fun x hx => by rcases List.mem_cons.1 hx with rfl | hx; exact h; exact Nat.lt_trans h (h2 x hx), h2, h3⟩
      · rintro ⟨h, h2, h3⟩
        exact ⟨h q (List.mem_cons_self ..), h2, h3⟩

theorem RegFile.set_wf (m : RegFile) (r : RegRef) (v : RegVal) (h : m.wf = true) : (m.set r v).wf = true := by
  simp only [RegFile.wf, Bool.and_eq_true, RegFile.sorted_iff, List.all_eq_true, decide_eq_true_eq] at *
  obtain ⟨h1, h2⟩ := h
  constructor
  · rw [RegFile.set, List.pairwise_append, List.pairwise_append]
    refine ⟨⟨List.Pairwise.filter _ h1, by split <;> simp, ?_⟩, List.Pairwise.filter _ h1, ?_⟩
    · intro a ha b hb
      have := (List.mem_filter.1 ha).2
      split at hb <;> simp_all
    · intro a ha b hb
      have hb' := (List.mem_filter.1 hb).2
      rcases List.mem_append.1 ha with ha | ha
      · have := (List.mem_filter.1 ha).2; simp at *; omega
      · split at ha <;> simp_all
  · intro p hp
    simp only [RegFile.set, List.mem_append, List.mem_filter] at hp
    rcases hp with (hp | hp) | hp
    · exact h2 p hp.1
    · split at hp <;> simp_all
    · exact h2 p hp.1

theorem RegFile.filter_wf (m : RegFile) (q : RegRef × RegVal → Bool) (h : m.wf = true) : (RegFile.wf (m.filter q)) = true := by
  simp only [RegFile.wf, Bool.and_eq_true, RegFile.sorted_iff, List.all_eq_true, decide_eq_true_eq] at *
  exact ⟨List.Pairwise.filter _ h.1, fun p hp => h.2 p (List.mem_filter.1 hp).1⟩

end Sys2Proof.Machine
end

