-- ==== Sys2Proof/Laws/Fields.lean ====
section
/-!
SUPPORT. Fields of registers: what a field reads as after a field is replaced.
-/
namespace Sys2Proof.Machine

theorem Fld.get_bit (f : Fld) (v : RegVal) (i : Nat) : (f.get v).testBit i = (decide (i < f.w) && v.getLsbD (f.lo + i)) := by
  simp [Fld.get, Nat.testBit_mod_two_pow, Nat.testBit_div_two_pow, BitVec.getLsbD, Nat.add_comm]

theorem Fld.ones_bit (f : Fld) (i : Nat) (h : i < 256) : (BitVec.ofNat 256 ((2 ^ f.w - 1) * 2 ^ f.lo)).getLsbD i = (decide (f.lo ≤ i) && decide (i < f.lo + f.w)) := by
  rw [BitVec.getLsbD_ofNat, ← Nat.shiftLeft_eq, Nat.testBit_shiftLeft]
  simp only [h, decide_true, Bool.true_and, ge_iff_le, Nat.testBit_two_pow_sub_one]
  by_cases h1 : f.lo ≤ i
  · simp [h1]; omega
  · simp [h1]

theorem Fld.val_bit (f : Fld) (x i : Nat) (h : i < 256) : (BitVec.ofNat 256 ((x % 2 ^ f.w) * 2 ^ f.lo)).getLsbD i = (decide (f.lo ≤ i) && decide (i < f.lo + f.w) && x.testBit (i - f.lo)) := by
  rw [BitVec.getLsbD_ofNat, ← Nat.shiftLeft_eq, Nat.testBit_shiftLeft, Nat.testBit_mod_two_pow]
  simp only [h, decide_true, Bool.true_and, ge_iff_le]
  by_cases h1 : f.lo ≤ i
  · by_cases h2 : i < f.lo + f.w
    · simp [h1, h2]; intro _; omega
    · simp [h1, h2]; intro _; omega
  · simp [h1]

theorem Fld.set_bit (f : Fld) (v : RegVal) (x i : Nat) (h : i < 256) :
    (f.set v x).getLsbD i = if f.lo ≤ i ∧ i < f.lo + f.w then x.testBit (i - f.lo) else v.getLsbD i := by
  simp only [Fld.set, BitVec.getLsbD_or, BitVec.getLsbD_and, BitVec.getLsbD_not, f.ones_bit i h, f.val_bit x i h, h, decide_true, Bool.true_and]
  by_cases h1 : f.lo ≤ i <;> by_cases h2 : i < f.lo + f.w <;> simp [h1, h2]

theorem Fld.get_set (f : Fld) (v : RegVal) (x : Nat) (h : f.lo + f.w ≤ 256) : f.get (f.set v x) = x % 2 ^ f.w := by
  apply Nat.eq_of_testBit_eq
  intro i
  rw [Fld.get_bit, Nat.testBit_mod_two_pow]
  by_cases hi : i < f.w
  · rw [Fld.set_bit _ _ _ _ (by omega), if_pos ⟨by omega, by omega⟩]; simp
  · simp [hi]

/-- Another field of the same register is kept. -/
theorem Fld.get_set_apart (f g : Fld) (v : RegVal) (x : Nat) (hg : g.lo + g.w ≤ 256) (h : g.lo + g.w ≤ f.lo ∨ f.lo + f.w ≤ g.lo) : g.get (f.set v x) = g.get v := by
  apply Nat.eq_of_testBit_eq
  intro i
  rw [Fld.get_bit, Fld.get_bit]
  by_cases hi : i < g.w
  · rw [Fld.set_bit _ _ _ _ (by omega), if_neg (by omega)]
  · simp [hi]

theorem Fld.get_mask (f : Fld) (v : RegVal) (n : Nat) (h : f.lo + f.w ≤ n) (hn : n ≤ 256) : f.get (v &&& BitVec.ofNat 256 (2 ^ n - 1)) = f.get v := by
  apply Nat.eq_of_testBit_eq
  intro i
  rw [Fld.get_bit, Fld.get_bit]
  by_cases hi : i < f.w
  · simp [BitVec.getLsbD_and, BitVec.getLsbD_ofNat, hi, Nat.testBit_two_pow_sub_one]; omega
  · simp [hi]

theorem Fld.get_lt (f : Fld) (v : RegVal) : f.get v < 2 ^ f.w := Nat.mod_lt _ (Nat.two_pow_pos _)

theorem mask_toNat (v : RegVal) (n : Nat) (hn : n ≤ 256) : (v &&& BitVec.ofNat 256 (2 ^ n - 1)).toNat = v.toNat % 2 ^ n := by
  apply Nat.eq_of_testBit_eq
  intro i
  rw [Nat.testBit_mod_two_pow, BitVec.testBit_toNat, BitVec.testBit_toNat, BitVec.getLsbD_and, BitVec.getLsbD_ofNat, Nat.testBit_two_pow_sub_one]
  by_cases h : i < n
  · have h2 : i < 256 := by omega
    simp [h, h2]
  · simp [h]

theorem RegName.width_le (n : RegName) : n.row.width ≤ 256 := by
  cases n <;> decide

end Sys2Proof.Machine
end

