-- ==== Sys2Proof/Laws/State.lean ====
section
/-!
SUPPORT. The state's updates, a field at a time, and registers after a write.
-/
namespace Sys2Proof.Machine

@[simp] theorem State.setBlk_pending (s : State) (b : Blk) : ({ s with blk := b } : State).pending = s.pending := rfl
@[simp] theorem State.setBlk_blk (s : State) (b : Blk) : ({ s with blk := b } : State).blk = b := rfl

@[simp] theorem Blk.wr_evg (b : Blk) (r : RegRef) (v : RegVal) : (b.wr r v).evg = b.evg := rfl
@[simp] theorem Blk.wr_recd (b : Blk) (r : RegRef) (v : RegVal) : (b.wr r v).recd = b.recd := rfl
@[simp] theorem Blk.wr_sec (b : Blk) (r : RegRef) (v : RegVal) : (b.wr r v).sec = b.sec := rfl
@[simp] theorem Blk.wr_mbx (b : Blk) (r : RegRef) (v : RegVal) : (b.wr r v).mbx = b.mbx := rfl
@[simp] theorem Blk.wr_units (b : Blk) (r : RegRef) (v : RegVal) : (b.wr r v).units = b.units := rfl
@[simp] theorem Blk.wr_pwr (b : Blk) (r : RegRef) (v : RegVal) : (b.wr r v).pwr = b.pwr := rfl
@[simp] theorem Blk.wr_pins (b : Blk) (r : RegRef) (v : RegVal) : (b.wr r v).pins = b.pins := rfl
@[simp] theorem Blk.wr_pkg (b : Blk) (r : RegRef) (v : RegVal) : (b.wr r v).pkg = b.pkg := rfl
@[simp] theorem Blk.wr_hbm (b : Blk) (r : RegRef) (v : RegVal) : (b.wr r v).hbm = b.hbm := rfl
@[simp] theorem Blk.wr_ins (b : Blk) (r : RegRef) (v : RegVal) : (b.wr r v).ins = b.ins := rfl
@[simp] theorem Blk.wr_cores (b : Blk) (r : RegRef) (v : RegVal) : (b.wr r v).cores = b.cores := rfl
@[simp] theorem Blk.wr_vec (b : Blk) (r : RegRef) (v : RegVal) : (b.wr r v).vec = b.vec := rfl
@[simp] theorem Blk.wr_stash (b : Blk) (r : RegRef) (v : RegVal) : (b.wr r v).stash = b.stash := rfl
@[simp] theorem Blk.wr_seq (b : Blk) (r : RegRef) (v : RegVal) : (b.wr r v).seq = b.seq := rfl
@[simp] theorem Blk.wr_lac (b : Blk) (r : RegRef) (v : RegVal) : (b.wr r v).lac = b.lac := rfl
@[simp] theorem Blk.wr_flash (b : Blk) (r : RegRef) (v : RegVal) : (b.wr r v).flash = b.flash := rfl
@[simp] theorem Blk.wr_parts (b : Blk) (r : RegRef) (v : RegVal) : (b.wr r v).parts = b.parts := rfl
@[simp] theorem Blk.wr_asleep (b : Blk) (r : RegRef) (v : RegVal) : (b.wr r v).asleep = b.asleep := rfl
@[simp] theorem Blk.wr_hostMem (b : Blk) (r : RegRef) (v : RegVal) : (b.wr r v).hostMem = b.hostMem := rfl
@[simp] theorem Blk.wr_hostHole (b : Blk) (r : RegRef) (v : RegVal) : (b.wr r v).hostHole = b.hostHole := rfl
@[simp] theorem Blk.wr_readData (b : Blk) (r : RegRef) (v : RegVal) : (b.wr r v).readData = b.readData := rfl
@[simp] theorem Blk.wr_fresh (b : Blk) (r : RegRef) (v : RegVal) : (b.wr r v).fresh = b.fresh := rfl

@[simp] theorem Blk.wf_evg (b : Blk) (r : RegRef) (f : Fld) (x : Nat) : (b.wf r f x).evg = b.evg := rfl
@[simp] theorem Blk.wf_recd (b : Blk) (r : RegRef) (f : Fld) (x : Nat) : (b.wf r f x).recd = b.recd := rfl
@[simp] theorem Blk.wf_sec (b : Blk) (r : RegRef) (f : Fld) (x : Nat) : (b.wf r f x).sec = b.sec := rfl
@[simp] theorem Blk.wf_mbx (b : Blk) (r : RegRef) (f : Fld) (x : Nat) : (b.wf r f x).mbx = b.mbx := rfl
@[simp] theorem Blk.wf_units (b : Blk) (r : RegRef) (f : Fld) (x : Nat) : (b.wf r f x).units = b.units := rfl
@[simp] theorem Blk.wf_pwr (b : Blk) (r : RegRef) (f : Fld) (x : Nat) : (b.wf r f x).pwr = b.pwr := rfl
@[simp] theorem Blk.wf_pins (b : Blk) (r : RegRef) (f : Fld) (x : Nat) : (b.wf r f x).pins = b.pins := rfl
@[simp] theorem Blk.wf_pkg (b : Blk) (r : RegRef) (f : Fld) (x : Nat) : (b.wf r f x).pkg = b.pkg := rfl
@[simp] theorem Blk.wf_hbm (b : Blk) (r : RegRef) (f : Fld) (x : Nat) : (b.wf r f x).hbm = b.hbm := rfl
@[simp] theorem Blk.wf_ins (b : Blk) (r : RegRef) (f : Fld) (x : Nat) : (b.wf r f x).ins = b.ins := rfl
@[simp] theorem Blk.wf_cores (b : Blk) (r : RegRef) (f : Fld) (x : Nat) : (b.wf r f x).cores = b.cores := rfl
@[simp] theorem Blk.wf_vec (b : Blk) (r : RegRef) (f : Fld) (x : Nat) : (b.wf r f x).vec = b.vec := rfl
@[simp] theorem Blk.wf_stash (b : Blk) (r : RegRef) (f : Fld) (x : Nat) : (b.wf r f x).stash = b.stash := rfl
@[simp] theorem Blk.wf_seq (b : Blk) (r : RegRef) (f : Fld) (x : Nat) : (b.wf r f x).seq = b.seq := rfl
@[simp] theorem Blk.wf_lac (b : Blk) (r : RegRef) (f : Fld) (x : Nat) : (b.wf r f x).lac = b.lac := rfl
@[simp] theorem Blk.wf_flash (b : Blk) (r : RegRef) (f : Fld) (x : Nat) : (b.wf r f x).flash = b.flash := rfl
@[simp] theorem Blk.wf_parts (b : Blk) (r : RegRef) (f : Fld) (x : Nat) : (b.wf r f x).parts = b.parts := rfl
@[simp] theorem Blk.wf_asleep (b : Blk) (r : RegRef) (f : Fld) (x : Nat) : (b.wf r f x).asleep = b.asleep := rfl
@[simp] theorem Blk.wf_hostMem (b : Blk) (r : RegRef) (f : Fld) (x : Nat) : (b.wf r f x).hostMem = b.hostMem := rfl
@[simp] theorem Blk.wf_hostHole (b : Blk) (r : RegRef) (f : Fld) (x : Nat) : (b.wf r f x).hostHole = b.hostHole := rfl
@[simp] theorem Blk.wf_readData (b : Blk) (r : RegRef) (f : Fld) (x : Nat) : (b.wf r f x).readData = b.readData := rfl
@[simp] theorem Blk.wf_fresh (b : Blk) (r : RegRef) (f : Fld) (x : Nat) : (b.wf r f x).fresh = b.fresh := rfl

@[simp] theorem Blk.wn_evg (b : Blk) (r : RegRef) (x : Nat) : (b.wn r x).evg = b.evg := rfl
@[simp] theorem Blk.wn_recd (b : Blk) (r : RegRef) (x : Nat) : (b.wn r x).recd = b.recd := rfl
@[simp] theorem Blk.wn_sec (b : Blk) (r : RegRef) (x : Nat) : (b.wn r x).sec = b.sec := rfl
@[simp] theorem Blk.wn_mbx (b : Blk) (r : RegRef) (x : Nat) : (b.wn r x).mbx = b.mbx := rfl
@[simp] theorem Blk.wn_units (b : Blk) (r : RegRef) (x : Nat) : (b.wn r x).units = b.units := rfl
@[simp] theorem Blk.wn_pwr (b : Blk) (r : RegRef) (x : Nat) : (b.wn r x).pwr = b.pwr := rfl
@[simp] theorem Blk.wn_pins (b : Blk) (r : RegRef) (x : Nat) : (b.wn r x).pins = b.pins := rfl
@[simp] theorem Blk.wn_pkg (b : Blk) (r : RegRef) (x : Nat) : (b.wn r x).pkg = b.pkg := rfl
@[simp] theorem Blk.wn_hbm (b : Blk) (r : RegRef) (x : Nat) : (b.wn r x).hbm = b.hbm := rfl
@[simp] theorem Blk.wn_ins (b : Blk) (r : RegRef) (x : Nat) : (b.wn r x).ins = b.ins := rfl
@[simp] theorem Blk.wn_cores (b : Blk) (r : RegRef) (x : Nat) : (b.wn r x).cores = b.cores := rfl
@[simp] theorem Blk.wn_vec (b : Blk) (r : RegRef) (x : Nat) : (b.wn r x).vec = b.vec := rfl
@[simp] theorem Blk.wn_stash (b : Blk) (r : RegRef) (x : Nat) : (b.wn r x).stash = b.stash := rfl
@[simp] theorem Blk.wn_seq (b : Blk) (r : RegRef) (x : Nat) : (b.wn r x).seq = b.seq := rfl
@[simp] theorem Blk.wn_lac (b : Blk) (r : RegRef) (x : Nat) : (b.wn r x).lac = b.lac := rfl
@[simp] theorem Blk.wn_flash (b : Blk) (r : RegRef) (x : Nat) : (b.wn r x).flash = b.flash := rfl
@[simp] theorem Blk.wn_parts (b : Blk) (r : RegRef) (x : Nat) : (b.wn r x).parts = b.parts := rfl
@[simp] theorem Blk.wn_asleep (b : Blk) (r : RegRef) (x : Nat) : (b.wn r x).asleep = b.asleep := rfl
@[simp] theorem Blk.wn_hostMem (b : Blk) (r : RegRef) (x : Nat) : (b.wn r x).hostMem = b.hostMem := rfl
@[simp] theorem Blk.wn_hostHole (b : Blk) (r : RegRef) (x : Nat) : (b.wn r x).hostHole = b.hostHole := rfl
@[simp] theorem Blk.wn_readData (b : Blk) (r : RegRef) (x : Nat) : (b.wn r x).readData = b.readData := rfl
@[simp] theorem Blk.wn_fresh (b : Blk) (r : RegRef) (x : Nat) : (b.wn r x).fresh = b.fresh := rfl

@[simp] theorem Blk.bump_evg (b : Blk) (r : RegRef) (n : Nat) : (b.bump r n).evg = b.evg := rfl
@[simp] theorem Blk.bump_recd (b : Blk) (r : RegRef) (n : Nat) : (b.bump r n).recd = b.recd := rfl
@[simp] theorem Blk.bump_sec (b : Blk) (r : RegRef) (n : Nat) : (b.bump r n).sec = b.sec := rfl
@[simp] theorem Blk.bump_mbx (b : Blk) (r : RegRef) (n : Nat) : (b.bump r n).mbx = b.mbx := rfl
@[simp] theorem Blk.bump_units (b : Blk) (r : RegRef) (n : Nat) : (b.bump r n).units = b.units := rfl
@[simp] theorem Blk.bump_pwr (b : Blk) (r : RegRef) (n : Nat) : (b.bump r n).pwr = b.pwr := rfl
@[simp] theorem Blk.bump_pins (b : Blk) (r : RegRef) (n : Nat) : (b.bump r n).pins = b.pins := rfl
@[simp] theorem Blk.bump_pkg (b : Blk) (r : RegRef) (n : Nat) : (b.bump r n).pkg = b.pkg := rfl
@[simp] theorem Blk.bump_hbm (b : Blk) (r : RegRef) (n : Nat) : (b.bump r n).hbm = b.hbm := rfl
@[simp] theorem Blk.bump_ins (b : Blk) (r : RegRef) (n : Nat) : (b.bump r n).ins = b.ins := rfl
@[simp] theorem Blk.bump_cores (b : Blk) (r : RegRef) (n : Nat) : (b.bump r n).cores = b.cores := rfl
@[simp] theorem Blk.bump_vec (b : Blk) (r : RegRef) (n : Nat) : (b.bump r n).vec = b.vec := rfl
@[simp] theorem Blk.bump_stash (b : Blk) (r : RegRef) (n : Nat) : (b.bump r n).stash = b.stash := rfl
@[simp] theorem Blk.bump_seq (b : Blk) (r : RegRef) (n : Nat) : (b.bump r n).seq = b.seq := rfl
@[simp] theorem Blk.bump_lac (b : Blk) (r : RegRef) (n : Nat) : (b.bump r n).lac = b.lac := rfl
@[simp] theorem Blk.bump_flash (b : Blk) (r : RegRef) (n : Nat) : (b.bump r n).flash = b.flash := rfl
@[simp] theorem Blk.bump_parts (b : Blk) (r : RegRef) (n : Nat) : (b.bump r n).parts = b.parts := rfl
@[simp] theorem Blk.bump_asleep (b : Blk) (r : RegRef) (n : Nat) : (b.bump r n).asleep = b.asleep := rfl
@[simp] theorem Blk.bump_hostMem (b : Blk) (r : RegRef) (n : Nat) : (b.bump r n).hostMem = b.hostMem := rfl
@[simp] theorem Blk.bump_hostHole (b : Blk) (r : RegRef) (n : Nat) : (b.bump r n).hostHole = b.hostHole := rfl
@[simp] theorem Blk.bump_readData (b : Blk) (r : RegRef) (n : Nat) : (b.bump r n).readData = b.readData := rfl
@[simp] theorem Blk.bump_fresh (b : Blk) (r : RegRef) (n : Nat) : (b.bump r n).fresh = b.fresh := rfl

@[simp] theorem Blk.bumpFld_evg (b : Blk) (r : RegRef) (f : Fld) (n : Nat) : (b.bumpFld r f n).evg = b.evg := rfl
@[simp] theorem Blk.bumpFld_recd (b : Blk) (r : RegRef) (f : Fld) (n : Nat) : (b.bumpFld r f n).recd = b.recd := rfl
@[simp] theorem Blk.bumpFld_sec (b : Blk) (r : RegRef) (f : Fld) (n : Nat) : (b.bumpFld r f n).sec = b.sec := rfl
@[simp] theorem Blk.bumpFld_mbx (b : Blk) (r : RegRef) (f : Fld) (n : Nat) : (b.bumpFld r f n).mbx = b.mbx := rfl
@[simp] theorem Blk.bumpFld_units (b : Blk) (r : RegRef) (f : Fld) (n : Nat) : (b.bumpFld r f n).units = b.units := rfl
@[simp] theorem Blk.bumpFld_pwr (b : Blk) (r : RegRef) (f : Fld) (n : Nat) : (b.bumpFld r f n).pwr = b.pwr := rfl
@[simp] theorem Blk.bumpFld_pins (b : Blk) (r : RegRef) (f : Fld) (n : Nat) : (b.bumpFld r f n).pins = b.pins := rfl
@[simp] theorem Blk.bumpFld_pkg (b : Blk) (r : RegRef) (f : Fld) (n : Nat) : (b.bumpFld r f n).pkg = b.pkg := rfl
@[simp] theorem Blk.bumpFld_hbm (b : Blk) (r : RegRef) (f : Fld) (n : Nat) : (b.bumpFld r f n).hbm = b.hbm := rfl
@[simp] theorem Blk.bumpFld_ins (b : Blk) (r : RegRef) (f : Fld) (n : Nat) : (b.bumpFld r f n).ins = b.ins := rfl
@[simp] theorem Blk.bumpFld_cores (b : Blk) (r : RegRef) (f : Fld) (n : Nat) : (b.bumpFld r f n).cores = b.cores := rfl
@[simp] theorem Blk.bumpFld_vec (b : Blk) (r : RegRef) (f : Fld) (n : Nat) : (b.bumpFld r f n).vec = b.vec := rfl
@[simp] theorem Blk.bumpFld_stash (b : Blk) (r : RegRef) (f : Fld) (n : Nat) : (b.bumpFld r f n).stash = b.stash := rfl
@[simp] theorem Blk.bumpFld_seq (b : Blk) (r : RegRef) (f : Fld) (n : Nat) : (b.bumpFld r f n).seq = b.seq := rfl
@[simp] theorem Blk.bumpFld_lac (b : Blk) (r : RegRef) (f : Fld) (n : Nat) : (b.bumpFld r f n).lac = b.lac := rfl
@[simp] theorem Blk.bumpFld_flash (b : Blk) (r : RegRef) (f : Fld) (n : Nat) : (b.bumpFld r f n).flash = b.flash := rfl
@[simp] theorem Blk.bumpFld_parts (b : Blk) (r : RegRef) (f : Fld) (n : Nat) : (b.bumpFld r f n).parts = b.parts := rfl
@[simp] theorem Blk.bumpFld_asleep (b : Blk) (r : RegRef) (f : Fld) (n : Nat) : (b.bumpFld r f n).asleep = b.asleep := rfl
@[simp] theorem Blk.bumpFld_hostMem (b : Blk) (r : RegRef) (f : Fld) (n : Nat) : (b.bumpFld r f n).hostMem = b.hostMem := rfl
@[simp] theorem Blk.bumpFld_hostHole (b : Blk) (r : RegRef) (f : Fld) (n : Nat) : (b.bumpFld r f n).hostHole = b.hostHole := rfl
@[simp] theorem Blk.bumpFld_readData (b : Blk) (r : RegRef) (f : Fld) (n : Nat) : (b.bumpFld r f n).readData = b.readData := rfl
@[simp] theorem Blk.bumpFld_fresh (b : Blk) (r : RegRef) (f : Fld) (n : Nat) : (b.bumpFld r f n).fresh = b.fresh := rfl

@[simp] theorem Blk.setStage_evg (b : Blk) (x : Nat) : (b.setStage x).evg = b.evg := rfl
@[simp] theorem Blk.setStage_recd (b : Blk) (x : Nat) : (b.setStage x).recd = b.recd := rfl
@[simp] theorem Blk.setStage_sec (b : Blk) (x : Nat) : (b.setStage x).sec = b.sec := rfl
@[simp] theorem Blk.setStage_mbx (b : Blk) (x : Nat) : (b.setStage x).mbx = b.mbx := rfl
@[simp] theorem Blk.setStage_units (b : Blk) (x : Nat) : (b.setStage x).units = b.units := rfl
@[simp] theorem Blk.setStage_pwr (b : Blk) (x : Nat) : (b.setStage x).pwr = b.pwr := rfl
@[simp] theorem Blk.setStage_pins (b : Blk) (x : Nat) : (b.setStage x).pins = b.pins := rfl
@[simp] theorem Blk.setStage_pkg (b : Blk) (x : Nat) : (b.setStage x).pkg = b.pkg := rfl
@[simp] theorem Blk.setStage_hbm (b : Blk) (x : Nat) : (b.setStage x).hbm = b.hbm := rfl
@[simp] theorem Blk.setStage_ins (b : Blk) (x : Nat) : (b.setStage x).ins = b.ins := rfl
@[simp] theorem Blk.setStage_cores (b : Blk) (x : Nat) : (b.setStage x).cores = b.cores := rfl
@[simp] theorem Blk.setStage_vec (b : Blk) (x : Nat) : (b.setStage x).vec = b.vec := rfl
@[simp] theorem Blk.setStage_stash (b : Blk) (x : Nat) : (b.setStage x).stash = b.stash := rfl
@[simp] theorem Blk.setStage_seq (b : Blk) (x : Nat) : (b.setStage x).seq = b.seq := rfl
@[simp] theorem Blk.setStage_lac (b : Blk) (x : Nat) : (b.setStage x).lac = b.lac := rfl
@[simp] theorem Blk.setStage_flash (b : Blk) (x : Nat) : (b.setStage x).flash = b.flash := rfl
@[simp] theorem Blk.setStage_parts (b : Blk) (x : Nat) : (b.setStage x).parts = b.parts := rfl
@[simp] theorem Blk.setStage_asleep (b : Blk) (x : Nat) : (b.setStage x).asleep = b.asleep := rfl
@[simp] theorem Blk.setStage_hostMem (b : Blk) (x : Nat) : (b.setStage x).hostMem = b.hostMem := rfl
@[simp] theorem Blk.setStage_hostHole (b : Blk) (x : Nat) : (b.setStage x).hostHole = b.hostHole := rfl
@[simp] theorem Blk.setStage_readData (b : Blk) (x : Nat) : (b.setStage x).readData = b.readData := rfl
@[simp] theorem Blk.setStage_fresh (b : Blk) (x : Nat) : (b.setStage x).fresh = b.fresh := rfl

@[simp] theorem Blk.tick_regs (b : Blk) : (b.tick).regs = b.regs := rfl
@[simp] theorem Blk.tick_evg (b : Blk) : (b.tick).evg = b.evg := rfl
@[simp] theorem Blk.tick_recd (b : Blk) : (b.tick).recd = b.recd := rfl
@[simp] theorem Blk.tick_sec (b : Blk) : (b.tick).sec = b.sec := rfl
@[simp] theorem Blk.tick_mbx (b : Blk) : (b.tick).mbx = b.mbx := rfl
@[simp] theorem Blk.tick_units (b : Blk) : (b.tick).units = b.units := rfl
@[simp] theorem Blk.tick_pwr (b : Blk) : (b.tick).pwr = b.pwr := rfl
@[simp] theorem Blk.tick_pins (b : Blk) : (b.tick).pins = b.pins := rfl
@[simp] theorem Blk.tick_pkg (b : Blk) : (b.tick).pkg = b.pkg := rfl
@[simp] theorem Blk.tick_hbm (b : Blk) : (b.tick).hbm = b.hbm := rfl
@[simp] theorem Blk.tick_ins (b : Blk) : (b.tick).ins = b.ins := rfl
@[simp] theorem Blk.tick_cores (b : Blk) : (b.tick).cores = b.cores := rfl
@[simp] theorem Blk.tick_vec (b : Blk) : (b.tick).vec = b.vec := rfl
@[simp] theorem Blk.tick_stash (b : Blk) : (b.tick).stash = b.stash := rfl
@[simp] theorem Blk.tick_seq (b : Blk) : (b.tick).seq = b.seq := rfl
@[simp] theorem Blk.tick_lac (b : Blk) : (b.tick).lac = b.lac := rfl
@[simp] theorem Blk.tick_flash (b : Blk) : (b.tick).flash = b.flash := rfl
@[simp] theorem Blk.tick_parts (b : Blk) : (b.tick).parts = b.parts := rfl
@[simp] theorem Blk.tick_asleep (b : Blk) : (b.tick).asleep = b.asleep := rfl
@[simp] theorem Blk.tick_hostMem (b : Blk) : (b.tick).hostMem = b.hostMem := rfl
@[simp] theorem Blk.tick_hostHole (b : Blk) : (b.tick).hostHole = b.hostHole := rfl
@[simp] theorem Blk.tick_readData (b : Blk) : (b.tick).readData = b.readData := rfl

@[simp] theorem Blk.setPart_regs (b : Blk) (p : Nat) (x : Part) : (b.setPart p x).regs = b.regs := rfl
@[simp] theorem Blk.setPart_evg (b : Blk) (p : Nat) (x : Part) : (b.setPart p x).evg = b.evg := rfl
@[simp] theorem Blk.setPart_recd (b : Blk) (p : Nat) (x : Part) : (b.setPart p x).recd = b.recd := rfl
@[simp] theorem Blk.setPart_sec (b : Blk) (p : Nat) (x : Part) : (b.setPart p x).sec = b.sec := rfl
@[simp] theorem Blk.setPart_mbx (b : Blk) (p : Nat) (x : Part) : (b.setPart p x).mbx = b.mbx := rfl
@[simp] theorem Blk.setPart_units (b : Blk) (p : Nat) (x : Part) : (b.setPart p x).units = b.units := rfl
@[simp] theorem Blk.setPart_pwr (b : Blk) (p : Nat) (x : Part) : (b.setPart p x).pwr = b.pwr := rfl
@[simp] theorem Blk.setPart_pins (b : Blk) (p : Nat) (x : Part) : (b.setPart p x).pins = b.pins := rfl
@[simp] theorem Blk.setPart_pkg (b : Blk) (p : Nat) (x : Part) : (b.setPart p x).pkg = b.pkg := rfl
@[simp] theorem Blk.setPart_hbm (b : Blk) (p : Nat) (x : Part) : (b.setPart p x).hbm = b.hbm := rfl
@[simp] theorem Blk.setPart_ins (b : Blk) (p : Nat) (x : Part) : (b.setPart p x).ins = b.ins := rfl
@[simp] theorem Blk.setPart_cores (b : Blk) (p : Nat) (x : Part) : (b.setPart p x).cores = b.cores := rfl
@[simp] theorem Blk.setPart_vec (b : Blk) (p : Nat) (x : Part) : (b.setPart p x).vec = b.vec := rfl
@[simp] theorem Blk.setPart_stash (b : Blk) (p : Nat) (x : Part) : (b.setPart p x).stash = b.stash := rfl
@[simp] theorem Blk.setPart_seq (b : Blk) (p : Nat) (x : Part) : (b.setPart p x).seq = b.seq := rfl
@[simp] theorem Blk.setPart_lac (b : Blk) (p : Nat) (x : Part) : (b.setPart p x).lac = b.lac := rfl
@[simp] theorem Blk.setPart_flash (b : Blk) (p : Nat) (x : Part) : (b.setPart p x).flash = b.flash := rfl
@[simp] theorem Blk.setPart_asleep (b : Blk) (p : Nat) (x : Part) : (b.setPart p x).asleep = b.asleep := rfl
@[simp] theorem Blk.setPart_hostMem (b : Blk) (p : Nat) (x : Part) : (b.setPart p x).hostMem = b.hostMem := rfl
@[simp] theorem Blk.setPart_hostHole (b : Blk) (p : Nat) (x : Part) : (b.setPart p x).hostHole = b.hostHole := rfl
@[simp] theorem Blk.setPart_readData (b : Blk) (p : Nat) (x : Part) : (b.setPart p x).readData = b.readData := rfl
@[simp] theorem Blk.setPart_fresh (b : Blk) (p : Nat) (x : Part) : (b.setPart p x).fresh = b.fresh := rfl

@[simp] theorem Blk.delPart_regs (b : Blk) (p : Nat) : (b.delPart p).regs = b.regs := rfl
@[simp] theorem Blk.delPart_evg (b : Blk) (p : Nat) : (b.delPart p).evg = b.evg := rfl
@[simp] theorem Blk.delPart_recd (b : Blk) (p : Nat) : (b.delPart p).recd = b.recd := rfl
@[simp] theorem Blk.delPart_sec (b : Blk) (p : Nat) : (b.delPart p).sec = b.sec := rfl
@[simp] theorem Blk.delPart_mbx (b : Blk) (p : Nat) : (b.delPart p).mbx = b.mbx := rfl
@[simp] theorem Blk.delPart_units (b : Blk) (p : Nat) : (b.delPart p).units = b.units := rfl
@[simp] theorem Blk.delPart_pwr (b : Blk) (p : Nat) : (b.delPart p).pwr = b.pwr := rfl
@[simp] theorem Blk.delPart_pins (b : Blk) (p : Nat) : (b.delPart p).pins = b.pins := rfl
@[simp] theorem Blk.delPart_pkg (b : Blk) (p : Nat) : (b.delPart p).pkg = b.pkg := rfl
@[simp] theorem Blk.delPart_hbm (b : Blk) (p : Nat) : (b.delPart p).hbm = b.hbm := rfl
@[simp] theorem Blk.delPart_ins (b : Blk) (p : Nat) : (b.delPart p).ins = b.ins := rfl
@[simp] theorem Blk.delPart_cores (b : Blk) (p : Nat) : (b.delPart p).cores = b.cores := rfl
@[simp] theorem Blk.delPart_vec (b : Blk) (p : Nat) : (b.delPart p).vec = b.vec := rfl
@[simp] theorem Blk.delPart_stash (b : Blk) (p : Nat) : (b.delPart p).stash = b.stash := rfl
@[simp] theorem Blk.delPart_seq (b : Blk) (p : Nat) : (b.delPart p).seq = b.seq := rfl
@[simp] theorem Blk.delPart_lac (b : Blk) (p : Nat) : (b.delPart p).lac = b.lac := rfl
@[simp] theorem Blk.delPart_flash (b : Blk) (p : Nat) : (b.delPart p).flash = b.flash := rfl
@[simp] theorem Blk.delPart_asleep (b : Blk) (p : Nat) : (b.delPart p).asleep = b.asleep := rfl
@[simp] theorem Blk.delPart_hostMem (b : Blk) (p : Nat) : (b.delPart p).hostMem = b.hostMem := rfl
@[simp] theorem Blk.delPart_hostHole (b : Blk) (p : Nat) : (b.delPart p).hostHole = b.hostHole := rfl
@[simp] theorem Blk.delPart_readData (b : Blk) (p : Nat) : (b.delPart p).readData = b.readData := rfl
@[simp] theorem Blk.delPart_fresh (b : Blk) (p : Nat) : (b.delPart p).fresh = b.fresh := rfl

/-! ### Registers after a write -/

theorem Blk.rd_wr_same (b : Blk) (r : RegRef) (v : RegVal) : (b.wr r v).rd r = v &&& r.name.row.mask := by
  simp [Blk.rd, Blk.wr]

theorem Blk.rd_wr_other (b : Blk) (r g : RegRef) (v : RegVal) (hr : r.sane) (hg : g.sane) (h : g ≠ r) : (b.wr r v).rd g = b.rd g :=
  RegFile.get_set_other _ _ _ _ hr hg h

theorem Blk.rd_wf_other (b : Blk) (r g : RegRef) (f : Fld) (x : Nat) (hr : r.sane) (hg : g.sane) (h : g ≠ r) : (b.wf r f x).rd g = b.rd g :=
  Blk.rd_wr_other _ _ _ _ hr hg h

theorem Blk.rd_wn_other (b : Blk) (r g : RegRef) (x : Nat) (hr : r.sane) (hg : g.sane) (h : g ≠ r) : (b.wn r x).rd g = b.rd g :=
  Blk.rd_wr_other _ _ _ _ hr hg h

theorem Blk.rd_bump_other (b : Blk) (r g : RegRef) (n : Nat) (hr : r.sane) (hg : g.sane) (h : g ≠ r) : (b.bump r n).rd g = b.rd g :=
  Blk.rd_wr_other _ _ _ _ hr hg h

theorem Blk.rf_wf_same (b : Blk) (r : RegRef) (f : Fld) (x : Nat) (h : f.lo + f.w ≤ r.name.row.width) : (b.wf r f x).rf r f = x % 2 ^ f.w := by
  have hw := RegName.width_le r.name
  rw [Blk.rf, Blk.wf, Blk.rd_wr_same, RegRow.mask, Fld.get_mask _ _ _ h hw, Fld.get_set _ _ _ (Nat.le_trans h hw)]

/-- Another field of the register. -/
theorem Blk.rf_wf_apart (b : Blk) (r : RegRef) (f g : Fld) (x : Nat) (hg : g.lo + g.w ≤ r.name.row.width) (h : g.lo + g.w ≤ f.lo ∨ f.lo + f.w ≤ g.lo) :
    (b.wf r f x).rf r g = b.rf r g := by
  have hw := RegName.width_le r.name
  rw [Blk.rf, Blk.wf, Blk.rd_wr_same, RegRow.mask, Fld.get_mask _ _ _ hg hw, Fld.get_set_apart _ _ _ _ (Nat.le_trans hg hw) h, Blk.rf]

theorem Blk.rf_wf_other (b : Blk) (r g : RegRef) (f f' : Fld) (x : Nat) (hr : r.sane) (hg : g.sane) (h : g ≠ r) : (b.wf r f x).rf g f' = b.rf g f' := by
  rw [Blk.rf, Blk.rd_wf_other _ _ _ _ _ hr hg h, Blk.rf]

theorem Blk.rn_wn_same (b : Blk) (r : RegRef) (x : Nat) : (b.wn r x).rn r = x % 2 ^ r.name.row.width := by
  have hw := RegName.width_le r.name
  rw [Blk.rn, Blk.wn, Blk.rd_wr_same, RegRow.mask, mask_toNat _ _ hw, BitVec.toNat_ofNat, Nat.mod_mod_of_dvd _ (Nat.pow_dvd_pow 2 hw)]

theorem Blk.rn_bump_same (b : Blk) (r : RegRef) (n : Nat) : (b.bump r n).rn r = min (b.rn r + n) (2 ^ r.name.row.width - 1) := by
  rw [Blk.bump, Blk.rn_wn_same, satAdd, Nat.mod_eq_of_lt]
  have := Nat.two_pow_pos r.name.row.width
  omega

theorem Blk.wr_wf (b : Blk) (r : RegRef) (v : RegVal) (h : b.regs.wf = true) : (b.wr r v).regs.wf = true := RegFile.set_wf _ _ _ h

/-! ### Partitions -/

theorem Blk.part_setPart (b : Blk) (p q : Nat) (x : Part) : (b.setPart p x).part q = if q = p then some x else b.part q :=
  slotGet_slotPut _ _ _ _

@[simp] theorem Blk.part_setPart_same (b : Blk) (p : Nat) (x : Part) : (b.setPart p x).part p = some x := by simp [Blk.part_setPart]

/-! ### A command's outcome -/

theorem State.go_ok (s : State) (ok : Bool) (f : Blk → Blk) (h : ok = true) : s.go ok f = .next { s with blk := f s.blk } := by simp [State.go, h]

theorem State.go_bad (s : State) (ok : Bool) (f : Blk → Blk) (h : ok = false) : s.go ok f = .fault .illFormed := by simp [State.go, h]

end Sys2Proof.Machine
end

