-- ==== Sys2Proof/Laws/Updates.lean ====
section
/-!
SUPPORT. The shared updates of an eyelet, a descriptor in flight, a partition and its step: what each leaves alone, and what is read after it.
-/
namespace Sys2Proof.Machine

@[simp] theorem Blk.setEye_regs (b : Blk) (e : Nat) (x : Eye) : (b.setEye e x).regs = b.regs := rfl
@[simp] theorem Blk.setEye_evg (b : Blk) (e : Nat) (x : Eye) : (b.setEye e x).evg = b.evg := rfl
@[simp] theorem Blk.setEye_recd (b : Blk) (e : Nat) (x : Eye) : (b.setEye e x).recd = b.recd := rfl
@[simp] theorem Blk.setEye_sec (b : Blk) (e : Nat) (x : Eye) : (b.setEye e x).sec = b.sec := rfl
@[simp] theorem Blk.setEye_mbx (b : Blk) (e : Nat) (x : Eye) : (b.setEye e x).mbx = b.mbx := rfl
@[simp] theorem Blk.setEye_units (b : Blk) (e : Nat) (x : Eye) : (b.setEye e x).units = b.units := rfl
@[simp] theorem Blk.setEye_pwr (b : Blk) (e : Nat) (x : Eye) : (b.setEye e x).pwr = b.pwr := rfl
@[simp] theorem Blk.setEye_pins (b : Blk) (e : Nat) (x : Eye) : (b.setEye e x).pins = b.pins := rfl
@[simp] theorem Blk.setEye_pkg (b : Blk) (e : Nat) (x : Eye) : (b.setEye e x).pkg = b.pkg := rfl
@[simp] theorem Blk.setEye_hbm (b : Blk) (e : Nat) (x : Eye) : (b.setEye e x).hbm = b.hbm := rfl
@[simp] theorem Blk.setEye_ins (b : Blk) (e : Nat) (x : Eye) : (b.setEye e x).ins = b.ins := rfl
@[simp] theorem Blk.setEye_cores (b : Blk) (e : Nat) (x : Eye) : (b.setEye e x).cores = b.cores := rfl
@[simp] theorem Blk.setEye_vec (b : Blk) (e : Nat) (x : Eye) : (b.setEye e x).vec = b.vec := rfl
@[simp] theorem Blk.setEye_stash (b : Blk) (e : Nat) (x : Eye) : (b.setEye e x).stash = b.stash := rfl
@[simp] theorem Blk.setEye_seq (b : Blk) (e : Nat) (x : Eye) : (b.setEye e x).seq = b.seq := rfl
@[simp] theorem Blk.setEye_flash (b : Blk) (e : Nat) (x : Eye) : (b.setEye e x).flash = b.flash := rfl
@[simp] theorem Blk.setEye_parts (b : Blk) (e : Nat) (x : Eye) : (b.setEye e x).parts = b.parts := rfl
@[simp] theorem Blk.setEye_asleep (b : Blk) (e : Nat) (x : Eye) : (b.setEye e x).asleep = b.asleep := rfl
@[simp] theorem Blk.setEye_hostMem (b : Blk) (e : Nat) (x : Eye) : (b.setEye e x).hostMem = b.hostMem := rfl
@[simp] theorem Blk.setEye_hostHole (b : Blk) (e : Nat) (x : Eye) : (b.setEye e x).hostHole = b.hostHole := rfl
@[simp] theorem Blk.setEye_readData (b : Blk) (e : Nat) (x : Eye) : (b.setEye e x).readData = b.readData := rfl
@[simp] theorem Blk.setEye_fresh (b : Blk) (e : Nat) (x : Eye) : (b.setEye e x).fresh = b.fresh := rfl

@[simp] theorem Blk.setFlight_regs (b : Blk) (f : Flight) : (b.setFlight f).regs = b.regs := rfl
@[simp] theorem Blk.setFlight_evg (b : Blk) (f : Flight) : (b.setFlight f).evg = b.evg := rfl
@[simp] theorem Blk.setFlight_recd (b : Blk) (f : Flight) : (b.setFlight f).recd = b.recd := rfl
@[simp] theorem Blk.setFlight_sec (b : Blk) (f : Flight) : (b.setFlight f).sec = b.sec := rfl
@[simp] theorem Blk.setFlight_mbx (b : Blk) (f : Flight) : (b.setFlight f).mbx = b.mbx := rfl
@[simp] theorem Blk.setFlight_units (b : Blk) (f : Flight) : (b.setFlight f).units = b.units := rfl
@[simp] theorem Blk.setFlight_pwr (b : Blk) (f : Flight) : (b.setFlight f).pwr = b.pwr := rfl
@[simp] theorem Blk.setFlight_pins (b : Blk) (f : Flight) : (b.setFlight f).pins = b.pins := rfl
@[simp] theorem Blk.setFlight_pkg (b : Blk) (f : Flight) : (b.setFlight f).pkg = b.pkg := rfl
@[simp] theorem Blk.setFlight_hbm (b : Blk) (f : Flight) : (b.setFlight f).hbm = b.hbm := rfl
@[simp] theorem Blk.setFlight_ins (b : Blk) (f : Flight) : (b.setFlight f).ins = b.ins := rfl
@[simp] theorem Blk.setFlight_cores (b : Blk) (f : Flight) : (b.setFlight f).cores = b.cores := rfl
@[simp] theorem Blk.setFlight_vec (b : Blk) (f : Flight) : (b.setFlight f).vec = b.vec := rfl
@[simp] theorem Blk.setFlight_stash (b : Blk) (f : Flight) : (b.setFlight f).stash = b.stash := rfl
@[simp] theorem Blk.setFlight_lac (b : Blk) (f : Flight) : (b.setFlight f).lac = b.lac := rfl
@[simp] theorem Blk.setFlight_flash (b : Blk) (f : Flight) : (b.setFlight f).flash = b.flash := rfl
@[simp] theorem Blk.setFlight_parts (b : Blk) (f : Flight) : (b.setFlight f).parts = b.parts := rfl
@[simp] theorem Blk.setFlight_asleep (b : Blk) (f : Flight) : (b.setFlight f).asleep = b.asleep := rfl
@[simp] theorem Blk.setFlight_hostMem (b : Blk) (f : Flight) : (b.setFlight f).hostMem = b.hostMem := rfl
@[simp] theorem Blk.setFlight_hostHole (b : Blk) (f : Flight) : (b.setFlight f).hostHole = b.hostHole := rfl
@[simp] theorem Blk.setFlight_readData (b : Blk) (f : Flight) : (b.setFlight f).readData = b.readData := rfl
@[simp] theorem Blk.setFlight_fresh (b : Blk) (f : Flight) : (b.setFlight f).fresh = b.fresh := rfl

@[simp] theorem Blk.setEyeState_evg (b : Blk) (e s : Nat) : (b.setEyeState e s).evg = b.evg := rfl
@[simp] theorem Blk.setEyeState_recd (b : Blk) (e s : Nat) : (b.setEyeState e s).recd = b.recd := rfl
@[simp] theorem Blk.setEyeState_sec (b : Blk) (e s : Nat) : (b.setEyeState e s).sec = b.sec := rfl
@[simp] theorem Blk.setEyeState_mbx (b : Blk) (e s : Nat) : (b.setEyeState e s).mbx = b.mbx := rfl
@[simp] theorem Blk.setEyeState_units (b : Blk) (e s : Nat) : (b.setEyeState e s).units = b.units := rfl
@[simp] theorem Blk.setEyeState_pwr (b : Blk) (e s : Nat) : (b.setEyeState e s).pwr = b.pwr := rfl
@[simp] theorem Blk.setEyeState_pins (b : Blk) (e s : Nat) : (b.setEyeState e s).pins = b.pins := rfl
@[simp] theorem Blk.setEyeState_pkg (b : Blk) (e s : Nat) : (b.setEyeState e s).pkg = b.pkg := rfl
@[simp] theorem Blk.setEyeState_hbm (b : Blk) (e s : Nat) : (b.setEyeState e s).hbm = b.hbm := rfl
@[simp] theorem Blk.setEyeState_ins (b : Blk) (e s : Nat) : (b.setEyeState e s).ins = b.ins := rfl
@[simp] theorem Blk.setEyeState_cores (b : Blk) (e s : Nat) : (b.setEyeState e s).cores = b.cores := rfl
@[simp] theorem Blk.setEyeState_vec (b : Blk) (e s : Nat) : (b.setEyeState e s).vec = b.vec := rfl
@[simp] theorem Blk.setEyeState_stash (b : Blk) (e s : Nat) : (b.setEyeState e s).stash = b.stash := rfl
@[simp] theorem Blk.setEyeState_seq (b : Blk) (e s : Nat) : (b.setEyeState e s).seq = b.seq := rfl
@[simp] theorem Blk.setEyeState_lac (b : Blk) (e s : Nat) : (b.setEyeState e s).lac = b.lac := rfl
@[simp] theorem Blk.setEyeState_flash (b : Blk) (e s : Nat) : (b.setEyeState e s).flash = b.flash := rfl
@[simp] theorem Blk.setEyeState_parts (b : Blk) (e s : Nat) : (b.setEyeState e s).parts = b.parts := rfl
@[simp] theorem Blk.setEyeState_asleep (b : Blk) (e s : Nat) : (b.setEyeState e s).asleep = b.asleep := rfl
@[simp] theorem Blk.setEyeState_hostMem (b : Blk) (e s : Nat) : (b.setEyeState e s).hostMem = b.hostMem := rfl
@[simp] theorem Blk.setEyeState_hostHole (b : Blk) (e s : Nat) : (b.setEyeState e s).hostHole = b.hostHole := rfl
@[simp] theorem Blk.setEyeState_readData (b : Blk) (e s : Nat) : (b.setEyeState e s).readData = b.readData := rfl
@[simp] theorem Blk.setEyeState_fresh (b : Blk) (e s : Nat) : (b.setEyeState e s).fresh = b.fresh := rfl

@[simp] theorem Blk.onPart_regs (b : Blk) (p : Nat) (f : Part → Part) : (b.onPart p f).regs = b.regs := by unfold Blk.onPart; split <;> rfl
@[simp] theorem Blk.onPart_evg (b : Blk) (p : Nat) (f : Part → Part) : (b.onPart p f).evg = b.evg := by unfold Blk.onPart; split <;> rfl
@[simp] theorem Blk.onPart_recd (b : Blk) (p : Nat) (f : Part → Part) : (b.onPart p f).recd = b.recd := by unfold Blk.onPart; split <;> rfl
@[simp] theorem Blk.onPart_sec (b : Blk) (p : Nat) (f : Part → Part) : (b.onPart p f).sec = b.sec := by unfold Blk.onPart; split <;> rfl
@[simp] theorem Blk.onPart_mbx (b : Blk) (p : Nat) (f : Part → Part) : (b.onPart p f).mbx = b.mbx := by unfold Blk.onPart; split <;> rfl
@[simp] theorem Blk.onPart_units (b : Blk) (p : Nat) (f : Part → Part) : (b.onPart p f).units = b.units := by unfold Blk.onPart; split <;> rfl
@[simp] theorem Blk.onPart_pwr (b : Blk) (p : Nat) (f : Part → Part) : (b.onPart p f).pwr = b.pwr := by unfold Blk.onPart; split <;> rfl
@[simp] theorem Blk.onPart_pins (b : Blk) (p : Nat) (f : Part → Part) : (b.onPart p f).pins = b.pins := by unfold Blk.onPart; split <;> rfl
@[simp] theorem Blk.onPart_pkg (b : Blk) (p : Nat) (f : Part → Part) : (b.onPart p f).pkg = b.pkg := by unfold Blk.onPart; split <;> rfl
@[simp] theorem Blk.onPart_hbm (b : Blk) (p : Nat) (f : Part → Part) : (b.onPart p f).hbm = b.hbm := by unfold Blk.onPart; split <;> rfl
@[simp] theorem Blk.onPart_ins (b : Blk) (p : Nat) (f : Part → Part) : (b.onPart p f).ins = b.ins := by unfold Blk.onPart; split <;> rfl
@[simp] theorem Blk.onPart_cores (b : Blk) (p : Nat) (f : Part → Part) : (b.onPart p f).cores = b.cores := by unfold Blk.onPart; split <;> rfl
@[simp] theorem Blk.onPart_vec (b : Blk) (p : Nat) (f : Part → Part) : (b.onPart p f).vec = b.vec := by unfold Blk.onPart; split <;> rfl
@[simp] theorem Blk.onPart_stash (b : Blk) (p : Nat) (f : Part → Part) : (b.onPart p f).stash = b.stash := by unfold Blk.onPart; split <;> rfl
@[simp] theorem Blk.onPart_seq (b : Blk) (p : Nat) (f : Part → Part) : (b.onPart p f).seq = b.seq := by unfold Blk.onPart; split <;> rfl
@[simp] theorem Blk.onPart_lac (b : Blk) (p : Nat) (f : Part → Part) : (b.onPart p f).lac = b.lac := by unfold Blk.onPart; split <;> rfl
@[simp] theorem Blk.onPart_flash (b : Blk) (p : Nat) (f : Part → Part) : (b.onPart p f).flash = b.flash := by unfold Blk.onPart; split <;> rfl
@[simp] theorem Blk.onPart_asleep (b : Blk) (p : Nat) (f : Part → Part) : (b.onPart p f).asleep = b.asleep := by unfold Blk.onPart; split <;> rfl
@[simp] theorem Blk.onPart_hostMem (b : Blk) (p : Nat) (f : Part → Part) : (b.onPart p f).hostMem = b.hostMem := by unfold Blk.onPart; split <;> rfl
@[simp] theorem Blk.onPart_hostHole (b : Blk) (p : Nat) (f : Part → Part) : (b.onPart p f).hostHole = b.hostHole := by unfold Blk.onPart; split <;> rfl
@[simp] theorem Blk.onPart_readData (b : Blk) (p : Nat) (f : Part → Part) : (b.onPart p f).readData = b.readData := by unfold Blk.onPart; split <;> rfl
@[simp] theorem Blk.onPart_fresh (b : Blk) (p : Nat) (f : Part → Part) : (b.onPart p f).fresh = b.fresh := by unfold Blk.onPart; split <;> rfl

/-- An eyelet read after an eyelet has been set. -/
theorem Blk.eye_setEye (b : Blk) (e k : Nat) (x : Eye) : (b.setEye e x).eye k = if k = e then x else b.eye k := by
  have h := slotGet_slotPut b.lac.eyes e k x
  unfold Blk.eye Blk.setEye slotGet slotPut
  rw [h]
  split <;> rfl

@[simp] theorem Blk.eye_setEye_same (b : Blk) (e : Nat) (x : Eye) : (b.setEye e x).eye e = x := by simp [Blk.eye_setEye]

/-- A partition read after a change of one: changed where it is that one and stands. -/
theorem Blk.part_onPart (b : Blk) (p q : Nat) (f : Part → Part) : (b.onPart p f).part q = if q = p then (b.part q).map f else b.part q := by
  unfold Blk.onPart
  split
  · rename_i x h
    rw [Blk.part_setPart]
    split
    · next e => rw [e, h]; rfl
    · rfl
  · rename_i h
    split
    · next e => rw [e, h]; rfl
    · rfl

/-- A partition's step read after a change of it. -/
theorem Blk.stepOf_onStep (b : Blk) (p q : Nat) (f : Step → Step) (h : (b.part p).isSome = true) :
    (b.onStep p f).stepOf q = if q = p then f (b.stepOf q) else b.stepOf q := by
  obtain ⟨x, hx⟩ := Option.isSome_iff_exists.mp h
  unfold Blk.stepOf Blk.onStep
  rw [Blk.part_onPart]
  by_cases e : q = p
  · subst e; simp [hx]
  · simp [e]

/-- A change of one collective or one flow is a change of its partition alone. -/
theorem Blk.part_onColl_other (b : Blk) (p q r : Nat) (f : Coll → Coll) (h : r ≠ p) : (b.onColl p q f).part r = b.part r := by
  simp [Blk.onColl, Blk.part_onPart, h]

theorem Blk.part_onFlow_other (b : Blk) (p c r : Nat) (f : Flow → Flow) (h : r ≠ p) : (b.onFlow p c f).part r = b.part r := by
  simp [Blk.onFlow, Blk.part_onPart, h]

end Sys2Proof.Machine
end

