-- ==== Sys2Proof/Tests/Slice0.lean ====
section
/-!
SUPPORT. The model's own tests.
-/
open Sys2Proof Sys2Proof.Machine

namespace Sys2Proof.Tests
set_option Elab.async false

/-- Partition 0 of cluster 0, with no last. -/
def part0 : Part := { clusters := 1, eyelets := 1, hbmShare := 1, flowShare := 1, slots := [1, 0, 0, 0] }

/-- A module at READY: every die present, the master as start-up leaves it, the host link up, partition 0 defined. -/
def ready : Blk :=
  { ((((Blk.blank .c4s24).setStage 5).wf ⟨.IDENT_PRESENT, 0, 0⟩ Fld.IDENT_PRESENT_PRESENT 0x3FF).wf ⟨.IDENT_MASTER, 0, 0⟩ Fld.IDENT_MASTER_POSITION 4) with
    parts := [(0, part0)], pins := { (Blk.blank .c4s24).pins with linkUp := true, linkWidth := 16, linkRate := 5 } }

/-- The machine with a module and nothing waiting. -/
def st (b : Blk) : State := { pending := [], blk := b }

/-- A request of a command in host mailbox 0 of the physical function, with payload fields as (offset, width, value). -/
def asks (b : Blk) (code : Nat) (pay : List (Nat × Nat × Nat)) (h : Nat := 0) : State :=
  st (({ b with mbx := { b.mbx with req := Mem.cells 0 (leBytes 2 code) ++ Mem.cells 4 (leBytes 4 h) ++ (pay.map (fun (x : Nat × Nat × Nat) => Mem.cells (16 + x.1) (leBytes x.2.1 x.2.2))).flatten } }).wf ⟨.MBX_STATUS, 0, 0⟩ Fld.MBX_STATUS_REQ_FULL 1)

/-- The module with a long operation in its table. -/
def withOp (b : Blk) (o : LongOp) : Blk := { b with mbx := { b.mbx with ops := [o] } }

/-- A RUN_STEPS of partition 0 that runs. -/
def runOp : LongOp := { handle := 256, fn := 0, mbx := 0, kind := .runSteps, part := 0, st := .running }

/-- The module with partition 0 changed. -/
def withPart (b : Blk) (x : Part) : Blk := { b with parts := [(0, x)] }

/-- A module of which only the master's die is up. -/
def few : Blk := ready.wf ⟨.IDENT_PRESENT, 0, 0⟩ Fld.IDENT_PRESENT_PRESENT 0x10

/-- A generation with no tensor. -/
def gen0 : Gen :=
  { rec_ := { s := 0, crc := 0, rank := 0, members := 1, epoch := 0, layout := 0, versions := [], u := 0, scale := 0, health := [], heads := [], ctrs := []
              rngStep := 0, guar := 0, faults := [], serial := 1, runS := 0, restores := 0, variant := 0 }
    tensors := [], complete := true, export_ := false }

/-- A descriptor at the head of queue 0 of cluster 0, of partition 0. -/
def flight (raw : BitVec 512) : Flight :=
  { id := 1, cl := 0, queue := 0, raw := raw, len := 64, phase := 0, shared := false, regath := false, record := false, mbatch := 0, recomp := false, parent := 0
    pending := 0, worst := 0, ptag := 0, skipped := false, ran := false, errIdx := 0, result := none }

/-- Queue 0 of cluster 0 bound to an engine's code, with a descriptor in flight and the engine ACTIVE. -/
def engineOf (code : Nat) (f : Flight) (b : Blk := ready) : State :=
  st (({ b with seq := { b.seq with flights := [f], next := 2 } }.wf (qReg 0 0) Fld.SEQ_Q_BIND code).wf (unitReg (codeUnit 0 code)) Fld.AWL_UNIT_ROLE 0)

def engine (code : Nat) (raw : BitVec 512) (b : Blk := ready) : State := engineOf code (flight raw) b

/-- A vector instruction's fields: tile 1 from tiles 2, 3 and 4, with the modifier given. -/
def vops (s1 s2 s3 : Nat) (mod : Nat := 0) (dst : Nat := 1) : VOps := { dst := dst, s1 := s1, s2 := s2, s3 := s3, pred := 0, pneg := false, mod := mod }

/-- A vector program on a core. -/
def vrun : Vrun :=
  { cl := 0, split := false, half := 0, pvl0 := 127, prc0 := 15, trapEn := 0, diag := false, base := 0, len := 1, iters := 1, ctx := 1, tag := 0, i := 0, pc := 0, flags := 0
    poison := false, stored := [], recomp := false, waiting := true, result := none }

/-- An empty payload with its aglet, of tag 1. -/
def blkOf (flags : Nat) : Block :=
  { pay := [], agl := Aglet.pack { pcrc := (crc32c []).toNat, tag := 1, version := 2, format := 3, flags := flags, epoch := 4, kind := 0, samples := 0 } }

/-- The context of a cluster engine of partition 0, and of the cobbler. -/
def ectx : ECtx := { cl := 0, part := 0, queue := 0, replay := false, recomp := false, cobbler := false, skip := false }

/-- A witness sample whose words are captured. -/
def closed : WitSample :=
  { core := 0, array := 0, bank := 0, half := 0, split := false, arith := 0, words := [], final := [], closed := true, mb := 0, shared := false }

/-- DMA descriptors of one block: ZERO of logical block 0, and COPY of block 1 to block 0. -/
def dmaZero1 : BitVec 512 := BitVec.ofNat 512 (1 + 2 ^ 192 + 3 * 2 ^ 212)
def dmaCopy1 : BitVec 512 := BitVec.ofNat 512 (1 + 4096 * 2 ^ 64 + 2 ^ 192)

/-- A queue that lives, whose head entry is of a dropped micro-batch, and whose counter has not run out. -/
def droppedQueue : State :=
  st ((((withPart ready { part0 with step := { Step.idle with state := 2, drop := [(0, 1)] } }).wf (qReg 0 0) Fld.SEQ_Q_LENGTH 1).wf (ctrReg 0 0) Fld.SEQ_CTR_VALUE 1).wf
    (unitReg (clUnit 0 15)) Fld.AWL_UNIT_ROLE 0)

/-- A module with a challenge out and a response for it in host memory, of the highest scopes and duration. -/
def unlocking : Blk :=
  { ready with
    sec := { ready.sec with nonce := some 0, bootCfg := { ready.sec.bootCfg with unlock := [digestVal (sha256 (zeros 64))] } }
    hostMem := Mem.cells 0 (leBytes 4 0x4B4C4E55) ++ Mem.cells 44 [7] ++ Mem.cells 48 (leBytes 4 86400) }

theorem load_fits (r : Nat) (_ : r < 16) (l : Nat) (hl : l < 128) :
    let b := (st { ready with cores := { ready.cores with cb := [(2, 64)] } }).blk
    (b.vrec (b.vctx 0) (bits (vops 32 32 32).mod 0 3)).addr (b.vctx 0).i r (128 * bits (vops 32 32 32).mod 3 8 + l) .bf16 + ebytes .bf16 ≤ coreBuf := by
  intro b
  rw [show b.vrec (b.vctx 0) (bits (vops 32 32 32).mod 0 3) = ⟨0, 1, 0, 0, 0, 0, 0, 0, 0, 0, 0, 0, 0⟩ by decide +kernel]
  simp [VRec.addr, eoff, ebytes, vops, bits, coreBuf, Fmt.bits]; omega

theorem sums_fit (n : Nat) (hn : n ≤ [List.replicate 32 (-3 : Int)].length) :
    -2147483648 ≤ (5 : BitVec 32).toInt + ([List.replicate 32 (-3 : Int)].take n).flatten.sum ∧
      (5 : BitVec 32).toInt + ([List.replicate 32 (-3 : Int)].take n).flatten.sum ≤ 2147483647 := by
  have h : n = 0 ∨ n = 1 := by simp at hn; omega
  rcases h with rfl | rfl <;> decide

/-- The CRC-32C register after so many zero bytes (the comparison makes the kernel evaluate the register byte by byte). -/
def crcZero : Nat → Nat → Nat
  | 0, c => c
  | n + 1, c => if c = c + 1 then 0 else crcZero n (crc32cBit 8 c)

theorem crc_zero (n c : Nat) : (zeros n).foldl (fun c x => crc32cBit 8 (c ^^^ x.toNat)) c = crcZero n c := by
  induction n generalizing c with
  | zero => rfl
  | succ n ih =>
    rw [show zeros (n + 1) = 0 :: zeros n from rfl, List.foldl_cons, ih]
    simp [crcZero]

/-- R230: the PCRC of an all-zero block that reset leaves is the CRC-32C of its payload. -/
theorem test_zero_block_crc : (crc32c (zeros 4096)).toNat = (Aglet.parse aglet0).pcrc := by
  have h : crcZero 4096 0xFFFFFFFF = 1728495222 := by decide +kernel
  unfold crc32c
  rw [crc_zero, h]; decide +kernel

theorem blank_block (pc loc : Nat) : ready.hbm.block pc loc = ⟨zeros 4096, aglet0⟩ := by
  have h : ready.hbm.data.read (hbmKey pc loc) 4096 = zeros 4096 := by
    rw [show ready.hbm.data = [] from rfl]
    unfold Mem.read Mem.byte zeros
    generalize 4096 = n
    simp [Sp.get, List.map_const']
  unfold Hbm.block
  rw [h]; rfl

theorem unfenced (b : Blk) (h : b.rf ⟨.IDENT_PRESENT, 0, 0⟩ Fld.IDENT_PRESENT_FENCED = 0) (pc loc : Nat) : b.hbmBlock pc loc = b.hbm.block pc loc := by
  have h : b.pcFenced pc = false := by
    unfold Blk.pcFenced Blk.fenced
    rw [h]; simp [bitOf]
  simp [Blk.hbmBlock, h]

theorem zero_block_ok (a : Nat) : ((ready.locBlock (.hbm a)).check { tag := 0, format := 0, epoch := some 0, version := none }).1 = .ok := by
  have h : ready.locBlock (.hbm a) = ⟨zeros 4096, aglet0⟩ := by
    unfold Blk.locBlock Blk.hbmGet
    simp only [unfenced ready (by decide +kernel), blank_block]
    cases ready.dataBlock (a / 4096) <;> rfl
  rw [h]; unfold Block.check
  simp only [test_zero_block_crc]; decide +kernel

theorem copy_mode : (DmaDesc.parse (flight dmaCopy1).raw).mode = 0 := by decide +kernel

theorem copy_block_ok :
    let d := DmaDesc.parse dmaCopy1
    let ex : Expect := { tag := d.tag, format := d.format, epoch := some d.epoch, version := if d.chkVer then some d.version else none }
    ((ready.locBlock (.hbm (4096 * 1))).check ex).1 = .ok := by
  intro d ex
  rw [show ex = { tag := 0, format := 0, epoch := some 0, version := none } by decide +kernel]
  exact zero_block_ok _

/-- A FIN_SCAN of one block, of a partition that holds it. -/
def scanState : State := engine 0x10 (1 + 2 ^ 96) (withPart ready { part0 with grants := [(0, 0, 4096), (2, 0, 4096)] })

theorem blank_insole (b : Blk) (cl n : Nat) (h : b.ins = ⟨[], []⟩) : b.ins.block cl n = ⟨zeros 4096, aglet0⟩ := by
  rw [h]
  unfold Insole.block Mem.read Mem.byte zeros
  generalize 4096 = k
  simp [Sp.get, List.map_const']

theorem zero_ok (ex : Expect) (ht : ex.tag = 0) (hf : ex.format = 0) (he : ex.epoch = some 0 ∨ ex.epoch = none) (hv : ex.version = some 0 ∨ ex.version = none) :
    ((⟨zeros 4096, aglet0⟩ : Block).check ex).1 = .ok := by
  obtain ⟨tag, format, epoch, version⟩ := ex
  subst ht hf
  unfold Block.check
  simp only [test_zero_block_crc]
  rcases he with rfl | rfl <;> rcases hv with rfl | rfl <;> decide +kernel

/-- A record of zeros in an insole that nothing has written passes its check. -/
theorem blank_record (b : Blk) (cl : Nat) (h : b.ins = ⟨[], []⟩) (hf : b.fenced (clDie cl) = false) : b.recCheck cl [(0, 64)] = .ok := by
  have hb : b.locBlock (.ins cl 0) = ⟨zeros 4096, aglet0⟩ := by
    unfold Blk.locBlock Blk.insGet
    simp only [hf]
    exact blank_insole b cl 0 h
  have hs : b.soundCheck (.ins cl 0) = .ok := by
    unfold Blk.soundCheck
    rw [hb]
    exact zero_ok _ (by decide +kernel) (by decide +kernel) (.inr rfl) (.inr rfl)
  have hk : ([(0, 64)].map (fun r : Nat × Nat => Loc.blocks (.ins cl r.1) r.2)).flatten.eraseDups = [.ins cl 0] := by
    rw [show ([(0, 64)].map (fun r : Nat × Nat => Loc.blocks (.ins cl r.1) r.2)).flatten = [.ins cl 0] by simp [Loc.blocks, Loc.off]]
    simp [List.eraseDups_cons]
  unfold Blk.recCheck
  rw [hk]
  simp [hs, EStat.worse]

theorem scan_passes :
    (finScan (scanState.blk.insErrs {}) (scanState.blk.ectxOf (flight (1 + 2 ^ 96))) (flight (1 + 2 ^ 96)).raw ({} : EngPhys).fault).st.rank ≠ 0 := by
  have hi : scanState.blk.insErrs {} = scanState.blk := rfl
  have hr : scanState.blk.recCheck (scanState.blk.ectxOf (flight (1 + 2 ^ 96))).cl [(dsc (flight (1 + 2 ^ 96)).raw 2 0 27, 64)] = .ok := by
    rw [show dsc (flight (1 + 2 ^ 96)).raw 2 0 27 = 0 by decide +kernel, show (scanState.blk.ectxOf (flight (1 + 2 ^ 96))).cl = 0 by decide +kernel]
    exact blank_record _ 0 rfl (by decide +kernel)
  rw [hi]
  unfold finScan
  dsimp only
  rw [hr]
  decide +kernel

/-- A last of one member with one variant, and a tensor of no blocks. -/
def variant0 : Variant :=
  { dies := 0x11, clusters := 1, order := 0, slotMap := [], slots := 0, stages := [], passes := [], sched := [{ cl := 0, progs := [], ctrs := [(254, 65535, 7)] }], needs := [], places := [], regions := []
    insole := [], segments := [], stash := [] }
def last0 : Last :=
  { jobKey := 1, feature := 0, heritage := 0, replica := 0, members := 1, rank := 0, mbs := 1, crc := 5, major := 1, tensors := [], variants := [variant0], groups := [], colls := []
    axes := [], dataAxis := 0, linked := [], gens := [], cut := [], relays := [], buddy := 0, partner := (0, 0, 0, 0), input := (0, 0, 0, 0, 0), hyper := [], hyperAt := 0
    grads := [], watch := [], cfgScale := 0, cfgUf := 0, cfgGh := 0, cfgWit := 0, cfgTol := 0, cfgStep := 0, cfgTmo := 0, cfgLac := 0, cfgAwl := 0, seat := (0, 0, 0) }

/-- Partition 0 in a run, with the last loaded, at the given step. -/
def running (s : Step) (o : LongOp := runOp) (l : Last := last0) : Blk := withOp (withPart ready { part0 with loaded := true, last := some l, step := s }) o

/-- A step with its state. -/
def at_ (n : Nat) : Step := { Step.idle with state := n }

/-- Queue 0 of cluster 0 with one entry of the given first byte, its sequencer, core 0 and the step's state. -/
def queueOf (s : Step) (h : Byte) (ctr : Nat := 0) : State :=
  let b := ((running s).wf (qReg 0 0) Fld.SEQ_Q_LENGTH 1).wf (ctrReg 0 0) Fld.SEQ_CTR_VALUE ctr
  st { (b.wf (unitReg (clUnit 0 15)) Fld.AWL_UNIT_ROLE 0).wf (unitReg (clUnit 0 0)) Fld.AWL_UNIT_ROLE 0 with ins := { b.ins with data := Mem.cells 0 [h] } }
def head0 (s : State) : Entry := (s.blk.headEntry 0 0).getD (Entry.parse 0 [])

/-- A FIN_APPLY of two units stopped at its first, whose record names no master and whose gradient block is sound. -/
def stopped : Flight := { flight (BitVec.ofNat 512 (2 + 2 * 2 ^ 96)) with skipped := true, ran := true }
def reissue : State :=
  engineOf 0x10 stopped { ready with
    ins := { ready.ins with data := [(5, 0xF0)] }
    hbm := { ready.hbm with aglets := [(0, Aglet.pack { pcrc := 2566472073, tag := 0, version := 0, format := 1, flags := 8, epoch := 0, kind := 0, samples := 0 })] } }

theorem reissue_block : reissue.blk.unitBlockOk (some (.hbm 0)) 0 1 0 = true := by
  have h0 : (crc32c (zeros 4096)).toNat = 2566472073 := by rw [test_zero_block_crc]; decide +kernel
  have hr : reissue.blk.hbm.data.read (hbmKey 0 0) 4096 = zeros 4096 := by
    rw [show reissue.blk.hbm.data = [] from rfl]
    unfold Mem.read Mem.byte zeros
    generalize 4096 = n
    simp [Sp.get, List.map_const']
  have h1 : reissue.blk.locBlock (.hbm 0) =
      ⟨zeros 4096, Aglet.pack { pcrc := 2566472073, tag := 0, version := 0, format := 1, flags := 8, epoch := 0, kind := 0, samples := 0 }⟩ := by
    unfold Blk.locBlock Blk.hbmGet
    dsimp only
    rw [show reissue.blk.dataBlock (0 / 4096) = some (0, 0) by decide +kernel]
    rw [Option.map_some, Option.getD_some, unfenced _ (by decide +kernel)]
    unfold Hbm.block
    rw [hr]
    rfl
  unfold Blk.unitBlockOk Block.check
  simp only [h1, h0]
  decide +kernel

theorem reissue_gradient :
    (reissue.blk.unitTwinned stopped = true ∧ 0 = stopped.errIdx + 1) ∨
      (reissue.blk.unitTwinned stopped = false ∧ reissue.blk.unitBlockOk (((reissue.blk.stoppedAt stopped).2[2]?).getD none) (reissue.blk.stoppedAt stopped).1.tagG 0x01
        (reissue.blk.stoppedAt stopped).1.ver = true ∧ 0 = stopped.errIdx) := by
  refine Or.inr ⟨by decide +kernel, ?_, rfl⟩
  rw [show ((reissue.blk.stoppedAt stopped).2[2]?).getD none = some (.hbm 0) by decide +kernel, show (reissue.blk.stoppedAt stopped).1.tagG = 0 by decide +kernel,
    show (reissue.blk.stoppedAt stopped).1.ver = 0 by decide +kernel]
  exact reissue_block

theorem no_variant (v : Variant) (h : ready.variantOf 0 = some v) : ∀ sch ∈ v.sched, ∀ z ∈ sch.ctrs, z.1 < 256 := by
  rw [show ready.variantOf 0 = none from rfl] at h
  cases h

theorem variant_ctrs (v : Variant) (h : (running (at_ 0)).variantOf 0 = some v) : ∀ sch ∈ v.sched, ∀ z ∈ sch.ctrs, z.1 < 256 := by
  rw [show (running (at_ 0)).variantOf 0 = some variant0 from rfl] at h
  cases h; decide

/-- A message of a kind from a member to this one. -/
def msg (kind src : Nat) (words : List Nat := []) : Msg :=
  { kind := kind, src := src, dst := 0, vc := 0, step := 0, attempt := 0, cseq := 0, chunk := 0, aglets := false, ctx := 0, blocks := [], words := words, names := [] }

/-- The last of member 0 of three. -/
def last3 : Last := { last0 with members := 3, gens := [0, 1, 0], cut := [{ eye := 0, peer := 1, axis := 0, alt := 0xFF, weights := 0, tmo := 0, ident := 0 }] }

/-- A collective that has not started, and a flow of it with another member. -/
def coll0 : Coll :=
  { cseq := 0, reports := 0, started := false, complete := false, status := 0, flags := 0, live := 0, contribs := [], result := [], counts := [], overflow := 0, badPeer := 0
    badChunk := 0, kib := 0, samples := 0, written := [] }
def flow0 : Flow :=
  { ctx := 0, state := 2, recv := true, relay := false, herit := false, first := 2, peer := 1, cseq := 0, step := 0, attempt := 0, vc := 4, eye := 0, alt := 0xFF, group := 0, grank := 1
    base := 0, tag := 0, version := 0, epoch := 0, format := 0, credit := 1, chunks := 2, done := 0, acked := 0, samples := 0, prog := 0, hop := 0, held := [] }

/-- Partition 0 with one collective of the given descriptor. -/
def collPart (raw : BitVec 512) (c : Coll) (fl : List Flow) : Part :=
  { part0 with loaded := true, last := some { last3 with colls := [raw], groups := [1 * 2 ^ 16] }, step := at_ 1, colls := [c], flows := fl
               grants := [(0, 0, 4096)] }
def collState (raw : BitVec 512) (c : Coll := coll0) (fl : List Flow := []) (o : LongOp := runOp) : State :=
  st ((withOp (withPart ready (collPart raw c fl)) o).wf (unitReg (unitId 4 0)) Fld.AWL_UNIT_ROLE 0)
def theColl (s : State) : CollAt := (s.blk.collAt 0 0).getD ⟨0, last0, CollDesc.parse 0, coll0, [], 0⟩

/-- An ALL_REDUCE of one block, and a SEND. -/
def reduce1 : BitVec 512 := BitVec.ofNat 512 (1 + 2 ^ 192 + 2 ^ 216)
def send1 : BitVec 512 := BitVec.ofNat 512 (5 + 2 ^ 192 + 2 ^ 216)

/-- A RESHARD that runs, its collectives drained, with nothing to move. -/
def reshardPart : Part := { collPart reduce1 { coll0 with complete := true } [] with reshard := some { last := last0, var := 0, moves := [], ident := 0, epoch := 1 } }
def reshardState : State := st (withOp (withPart ready reshardPart) { runOp with kind := .reshard })

/-- The module with one eyelet in a state. -/
def eyeBlk (e n : Nat) (x : Eye := .new) : Blk := ({ ready with lac := { ready.lac with eyes := [(e, x)] } }).wf (eyeReg e) Fld.EYE_STATE_STATE n

/-- A DATA flit of one message, and what it decodes as. -/
def flitHead0 : FlitHead := { typ := 1, vc := 0, som := true, eom := true, unseq := false, seq := 0, ack := 0, crVc := 0, crCnt := 0 }
def flit0 : List Byte := flitBytes flitHead0 []

/-- R304: a flit as sent decodes as itself. -/
theorem test_flit_sound : flitDecode flit0 = (some flit0, []) := by decide +kernel

/-- A package with an open seat whose die is admitted, its aperture one block. -/
def seated : Blk :=
  let b := (Blk.blank .c4s20s).wf ⟨.IDENT_PRESENT, 0, 0⟩ Fld.IDENT_PRESENT_SEAT 1
  { b with pkg := { b.pkg with seatBase := 4096, seatSize := 4096 } }

/-- A partition within a step whose cluster has one ACTIVE core and no SPARE. -/
def deferring : Blk := (running (at_ 1)).wf (unitReg (clUnit 0 0)) Fld.AWL_UNIT_ROLE 0

/-- Partition 0 with a last, and what it secures. -/
def securing0 (q : Option Securing) (tw : List TwinAsk := []) (l : Last := last3) : Part :=
  { part0 with loaded := true, last := some l, step := at_ 1, securing := q, twins := tw }
def q0 : Securing :=
  { s := 0, op := 0, layers := 3, read := true, partner := false, flash := false, pFail := false, fFail := false, holdMs := 0, chunks := 0, acked := 0, gen := gen0 }
def twin0 : TwinAsk := { items := [], ver := 0, ranks := [1], fin := false, hard := false }

/-- A last with one tensor of one block in the held half. -/
def tensor0 : Tensor :=
  { tag := 0, recipe := 0, format := 0, kind := 0, life := 1, stash := 0, gather := 0, bytes := 4096, lBase := 0, version := 0, epoch := 0, watch := 0, digest := 0 }
def lastT : Last := { last3 with tensors := [tensor0], variants := [{ variant0 with places := [(1, 0, 1)] }] }
def twinState : State := st (withPart ready (securing0 none [] lastT))

theorem zero_check : ((⟨zeros 4096, aglet0⟩ : Block).check { tag := 0, format := 0, epoch := some 0, version := some 0 }).1 = .ok := by
  unfold Block.check
  simp only [test_zero_block_crc]; decide +kernel

theorem twin_block0 (z : Block) (hz : twinState.blk.hbmGet 0 = some z)
    (hc : (z.check { tag := 0, format := 0, epoch := some 0, version := some 0 }).1 = .ok) : twinState.blk.twinBlocks 0 0 [(0, 0, 0)] = some [z] := by
  have hh : twinState.blk.holderBlk 0 0 0 0 = some 0 := by decide +kernel
  have he : twinState.blk.expectOf 0 0 0 0 = { tag := 0, format := 0, epoch := some 0, version := some 0 } := by decide +kernel
  unfold Blk.twinBlocks
  simp [hh, hz, he, hc]

theorem twin_get : twinState.blk.hbmGet 0 = some ⟨zeros 4096, aglet0⟩ := by
  unfold Blk.hbmGet
  rw [show twinState.blk.dataBlock 0 = some (0, 0) by decide +kernel, Option.map_some, ← blank_block 0 0]
  rfl

theorem twin_block : (twinState.blk.eyeTake 0 (twinState.blk.eyeVc 0 0)).twinBlocks 0 0 [(0, 0, 0)] = some [⟨zeros 4096, aglet0⟩] :=
  twin_block0 _ twin_get zero_check

theorem no_secured (t : Tensor × Nat) (h : t ∈ last3.secured) (P : Prop) : P := by
  rw [show last3.secured = [] from rfl] at h; cases h


/-! ### Every hypothesis of a statement is met somewhere -/

/-- The hypotheses of each clause of Obligations.QueriesAnswer are met together. -/
theorem witness_QueriesAnswer :
    (∃ s : State, ∃ f : Nat, ∃ m : Nat, let b := s.blk; let r := b.reqOf f m; Stands b f m 0x01 ∧ Passes b r false (!r.reservedOk []) false false) ∧
    (∃ s : State, ∃ f : Nat, ∃ m : Nat, let b := s.blk; let r := b.reqOf f m; Stands b f m 0x02 ∧ r.u 0 1 = 0 ∧ Passes b r false (!r.reservedOk [(0, 1)]) false false) ∧
    (∃ s : State, ∃ f : Nat, ∃ m : Nat, let b := s.blk; let r := b.reqOf f m; ∃ x, Stands b f m 0x02 ∧ r.u 0 1 = 1 ∧ b.part (r.u 1 1) = some x ∧ Passes b r (decide (r.u 1 1 ≤ 7) && (b.part (r.u 1 1)).isNone) (!r.reservedOk [(0, 2)] || decide (7 < r.u 1 1)) false false) ∧
    (∃ s : State, ∃ f : Nat, ∃ m : Nat, let b := s.blk; let r := b.reqOf f m; ∃ o, Stands b f m 0x02 ∧ r.u 0 1 = 2 ∧ b.handleOp r = some o ∧ Passes b r false (!r.reservedOk [(0, 1)]) false false) ∧
    (∃ s : State, ∃ f : Nat, ∃ m : Nat, let b := s.blk; let r := b.reqOf f m; ∃ c, Stands b f m 0x02 ∧ r.u 0 1 = 3 ∧ b.hostWrite (r.u 16 8) (b.genList (r.u 1 1)) = some c ∧ Passes b r (decide (r.u 1 1 ≤ 7) && (b.part (r.u 1 1)).isNone) (!r.reservedOk [(0, 2), (16, 8)] || decide (7 < r.u 1 1)) false false) ∧
    (∃ s : State, ∃ f : Nat, ∃ m : Nat, ∃ q : RegBlk, ∃ c : Blk, let b := s.blk; let r := b.reqOf f m; let y := b.blockRead (r.u 2 1) q (r.u 4 1) (r.u 12 4 / 4) (r.u 8 4); Stands b f m 0x02 ∧ r.u 0 1 = 4 ∧ blkOrder[r.u 3 1]? = some q ∧ b.up (r.u 2 1) = true ∧ y.2.hostWrite (r.u 16 8) y.1 = some c ∧ Passes b r false (!r.reservedOk [(0, 1), (2, 3), (8, 16)] || decide (9 < r.u 2 1) || decide (18 < r.u 3 1) || decide (8 < r.u 4 1) || decide (2 ^ 20 < r.u 12 4) || decide (r.u 8 4 % 4 ≠ 0) || decide (r.u 12 4 % 4 ≠ 0)) false false) ∧
    (∃ s : State, ∃ f : Nat, ∃ m : Nat, ∃ c : Blk, let b := s.blk; let r := b.reqOf f m; let us := (((List.range 10).filter b.up).map unitsOf).flatten; let xs := (us.map (fun u => leBytes 4 u ++ leBytes 4 (b.regView (unitReg u)).toNat)).flatten; Stands b f m 0x02 ∧ r.u 0 1 = 5 ∧ b.hostWrite (r.u 16 8) xs = some c ∧ Passes b r false (!r.reservedOk [(0, 1), (16, 8)]) false false) :=
  ⟨⟨(asks ready 0x1 []), 0, 0, by unfold Stands Passes; decide +kernel⟩,
   ⟨(asks ready 0x2 []), 0, 0, by unfold Stands Passes; decide +kernel⟩,
   ⟨(asks ready 0x2 [(0, 1, 1)]), 0, 0, part0, by unfold Stands Passes; decide +kernel⟩,
   ⟨(asks (withOp ready runOp) 0x2 [(0, 1, 2)] 256), 0, 0, runOp, by unfold Stands Passes; decide +kernel⟩,
   ⟨(asks ready 0x2 [(0, 1, 3)]), 0, 0, (((asks ready 0x2 [(0, 1, 3)]).blk.hostWrite 0 ((asks ready 0x2 [(0, 1, 3)]).blk.genList 0)).getD (asks ready 0x2 [(0, 1, 3)]).blk), by unfold Stands Passes; decide +kernel⟩,
   ⟨(asks ready 0x2 [(0, 1, 4), (2, 1, 4), (3, 1, 1), (12, 4, 8)]), 0, 0, blkOrder[1], (((asks ready 0x2 [(0, 1, 4), (2, 1, 4), (3, 1, 1), (12, 4, 8)]).blk.blockRead 4 (blkOrder[1]) 0 2 0).2.hostWrite 0 ((asks ready 0x2 [(0, 1, 4), (2, 1, 4), (3, 1, 1), (12, 4, 8)]).blk.blockRead 4 (blkOrder[1]) 0 2 0).1).getD ready, by unfold Stands Passes; decide +kernel⟩,
   ⟨(asks few 0x2 [(0, 1, 5)]), 0, 0, (((asks few 0x2 [(0, 1, 5)]).blk.hostWrite 0 ([4, 0, 0, 0, 6, 0, 0, 0])).getD (asks few 0x2 [(0, 1, 5)]).blk), by unfold Stands Passes; decide +kernel⟩⟩

/-- The hypotheses of each clause of Obligations.SetPowerSets are met together. -/
theorem witness_SetPowerSets :
    (∃ s : State, ∃ f : Nat, ∃ m : Nat, let b := s.blk; let r := b.reqOf f m; let pay := !r.reservedOk [(0, 10)]; Stands b f m 0x40 ∧ r.u 0 1 = 1 ∧ Passes b r false pay false false) ∧
    (∃ s : State, ∃ f : Nat, ∃ m : Nat, let b := s.blk; let r := b.reqOf f m; let pay := !r.reservedOk [(0, 10)]; Stands b f m 0x40 ∧ r.u 0 1 = 2 ∧ r.u 1 1 ≤ 7 ∧ (b.part (r.u 1 1)).isSome = true ∧ Passes b r false pay false false) ∧
    (∃ s : State, ∃ f : Nat, ∃ m : Nat, let b := s.blk; let r := b.reqOf f m; let pay := !r.reservedOk [(0, 10)]; Stands b f m 0x40 ∧ r.u 0 1 = 4 ∧ r.u 6 1 ≤ 4 ∧ Passes b r false pay false false) ∧
    (∃ s : State, ∃ f : Nat, ∃ m : Nat, let b := s.blk; let r := b.reqOf f m; let pay := !r.reservedOk [(0, 10)]; Stands b f m 0x40 ∧ r.u 0 1 = 8 ∧ r.u 7 1 = 1 ∧ ((∀ o ∈ b.mbx.ops, o.kind = .runSteps → o.st.final = true)) ∧ Passes b r false pay false false) ∧
    (∃ s : State, ∃ f : Nat, ∃ m : Nat, let b := s.blk; let r := b.reqOf f m; let pay := !r.reservedOk [(0, 10)]; Stands b f m 0x40 ∧ r.u 0 1 = 8 ∧ r.u 7 1 = 0 ∧ b.pwr.doze = true ∧ Passes b r false pay false false) ∧
    (∃ s : State, ∃ f : Nat, ∃ m : Nat, let b := s.blk; let r := b.reqOf f m; let pay := !r.reservedOk [(0, 10)]; Stands b f m 0x40 ∧ r.u 0 1 = 16 ∧ r.u 8 1 ≤ 63 ∧ r.u 9 1 ≤ 3 ∧ Passes b r false pay false false) :=
  ⟨⟨(asks ready 0x40 [(0, 1, 1), (2, 2, 3800)]), 0, 0, by unfold Stands Passes; decide +kernel⟩,
   ⟨(asks ready 0x40 [(0, 1, 2), (4, 2, 100)]), 0, 0, by unfold Stands Passes; decide +kernel⟩,
   ⟨(asks ready 0x40 [(0, 1, 4), (6, 1, 4)]), 0, 0, by unfold Stands Passes; decide +kernel⟩,
   ⟨(asks ready 0x40 [(0, 1, 8), (7, 1, 1)]), 0, 0, by unfold Stands Passes; decide +kernel⟩,
   ⟨(asks { ready with pwr := { ready.pwr with doze := true } } 0x40 [(0, 1, 8)]), 0, 0, by unfold Stands Passes; decide +kernel⟩,
   ⟨(asks ready 0x40 [(0, 1, 16), (8, 1, 63), (9, 1, 3)]), 0, 0, by unfold Stands Passes; decide +kernel⟩⟩

/-- The hypotheses of each clause of Obligations.PartitionsAndPolicy are met together. -/
theorem witness_PartitionsAndPolicy :
    (∃ s : State, ∃ f : Nat, ∃ m : Nat, let b := s.blk; let r := b.reqOf f m; let p := r.u 0 1; let slots := (List.range 4).map (fun d => r.u (28 + d) 1); let pay := !r.reservedOk [(0, 2), (8, 18), (28, 4)] || decide (7 < p); Stands b f m 0x41 ∧ r.u 1 1 = 0 ∧ b.partOk p (r.u 8 8) (r.u 16 8) (r.u 24 1) (r.u 25 1) slots = true ∧ Passes b r (b.partBusy p) pay false false) ∧
    (∃ s : State, ∃ f : Nat, ∃ m : Nat, let b := s.blk; let r := b.reqOf f m; let p := r.u 0 1; let pay := !r.reservedOk [(0, 2), (8, 18), (28, 4)] || decide (7 < p); Stands b f m 0x41 ∧ r.u 1 1 = 1 ∧ Passes b r (b.partBusy p) pay false false) ∧
    (∃ s : State, ∃ f : Nat, ∃ m : Nat, let b := s.blk; let r := b.reqOf f m; let p := r.u 0 1; let q : Policy := { layers := if r.u 2 1 = 0 then 3 else r.u 2 1, minSteps := if r.u 20 4 = 0 then 8 else r.u 20 4, maxSteps := if r.u 24 4 = 0 then 1000 else r.u 24 4, priorS := if r.u 28 4 = 0 then 86400 else r.u 28 4, costMs := if r.u 32 4 = 0 then 500 else r.u 32 4 }; Stands b f m 0x20 ∧ r.u 1 1 = 3 ∧ Passes b r (!b.isLoaded p || b.unrestored p) (!r.reservedOk [(0, 3), (20, 16)] || decide (7 < p) || decide (3 < r.u 2 1) || decide (q.maxSteps < q.minSteps)) false false) ∧
    (∃ s : State, ∃ f : Nat, ∃ m : Nat, let b := s.blk; let r := b.reqOf f m; let p := r.u 0 1; Stands b f m 0x20 ∧ r.u 1 1 = 4 ∧ Passes b r (!b.isLoaded p || b.unrestored p) (!r.reservedOk [(0, 3)] || decide (7 < p) || decide (3 < r.u 2 1)) false false) :=
  ⟨⟨(asks ready 0x41 [(8, 8, 3), (16, 8, 1), (24, 1, 64), (25, 1, 64), (28, 1, 16)]), 0, 0, by unfold Stands Passes; decide +kernel⟩,
   ⟨(asks ready 0x41 [(1, 1, 1)]), 0, 0, by unfold Stands Passes; decide +kernel⟩,
   ⟨(asks (withPart ready { part0 with loaded := true }) 0x20 [(1, 1, 3), (2, 1, 3), (20, 4, 9), (24, 4, 9)]), 0, 0, by unfold Stands Passes; decide +kernel⟩,
   ⟨(asks (withPart ready { part0 with loaded := true }) 0x20 [(1, 1, 4)]), 0, 0, by unfold Stands Passes; decide +kernel⟩⟩

/-- The hypotheses of each clause of Obligations.RecorderAndUnlock are met together. -/
theorem witness_RecorderAndUnlock :
    (∃ s : State, ∃ f : Nat, ∃ m : Nat, let b := s.blk; let r := b.reqOf f m; let from_ := max (r.u 0 8) b.recd.oldestSeq; let n := min (r.u 16 4 / 64) (b.recd.nextSeq - from_); let recs := (List.range n).filterMap (fun i => b.recFetch (from_ + i) [] []); ∃ c, Stands b f m 0x50 ∧ b.hostWrite (r.u 8 8) (recs.map RecEntry.bytes).flatten = some c ∧ Passes b r false (!r.reservedOk [(0, 20)] || decide (r.u 16 4 % 64 ≠ 0) || decide (r.u 16 4 < 64) || decide (2 ^ 20 < r.u 16 4)) false false) ∧
    (∃ s : State, ∃ f : Nat, ∃ m : Nat, let b := s.blk; let r := b.reqOf f m; Stands b f m 0x51 ∧ bitOf b.sec.scopes 1 = true ∧ Passes b r false (!r.reservedOk [(0, 8)] || decide (b.recd.nextSeq ≤ r.u 0 8)) false false) ∧
    (∃ s : State, ∃ f : Nat, ∃ m : Nat, let b := s.blk; let r := b.reqOf f m; Stands b f m 0x60 ∧ b.rn ⟨.SEC_UNLOCK_FAIL, iod0, 0⟩ < 8 ∧ Passes b r false (!r.reservedOk []) false false) ∧
    (∃ s : State, ∃ f : Nat, ∃ m : Nat, let b := s.blk; let r := b.reqOf f m; Stands b f m 0x61 ∧ r.u 8 4 = 0 ∧ Passes b r false (!r.reservedOk [(0, 12)]) false false) :=
  ⟨⟨(asks ready 0x50 [(16, 4, 64)]), 0, 0, (((asks ready 0x50 [(16, 4, 64)]).blk.hostWrite 0 []).getD ready), by unfold Stands Passes; decide +kernel⟩,
   ⟨(asks { ready with sec := { ready.sec with scopes := 2 } } 0x51 []), 0, 0, by unfold Stands Passes; decide +kernel⟩,
   ⟨(asks ready 0x60 []), 0, 0, by unfold Stands Passes; decide +kernel⟩,
   ⟨(asks ready 0x61 []), 0, 0, by unfold Stands Passes; decide +kernel⟩⟩

/-- The hypotheses of each clause of Obligations.LastCommandsAccepted are met together. -/
theorem witness_LastCommandsAccepted :
    (∃ s : State, ∃ f : Nat, ∃ m : Nat, let b := s.blk; let r := b.reqOf f m; let p := r.u 0 1; b.pwr.doze = false ∧ Stands b f m 0x10 ∧ Passes b r ((b.part p).isNone || b.isLoaded p || b.exclusiveBusy p) (!r.reservedOk [(0, 1), (4, 4), (8, 8)] || decide (7 < p)) false b.opsBusy) ∧
    (∃ s : State, ∃ f : Nat, ∃ m : Nat, let b := s.blk; let r := b.reqOf f m; let p := r.u 0 1; b.pwr.doze = false ∧ Stands b f m 0x11 ∧ Passes b r (!b.isLoaded p || b.exclusiveBusy p) (!r.reservedOk [(0, 1)] || decide (7 < p)) false b.opsBusy) ∧
    (∃ s : State, ∃ f : Nat, ∃ m : Nat, let b := s.blk; let r := b.reqOf f m; let p := r.u 0 1; b.pwr.doze = false ∧ Stands b f m 0x12 ∧ Passes b r (!b.isLoaded p || b.unrestored p || b.exclusiveBusy p) (!r.reservedOk [(0, 2), (4, 8), (16, 12), (32, 8)] || decide (7 < p) || decide (1 < r.u 1 1) || (!decide (r.u 1 1 = 1) && decide (r.u 4 4 = 0)) || decide (r.u 8 4 ≠ b.sOf p % 2 ^ 32) || !feedOk (r.u 16 8) (r.u 24 4)) false b.opsBusy) ∧
    (∃ s : State, ∃ f : Nat, ∃ m : Nat, let b := s.blk; let r := b.reqOf f m; let p := r.u 0 1; b.pwr.doze = false ∧ Stands b f m 0x17 ∧ (Passes b r (!b.isLoaded p || (b.opOn p (fun k => k == .reshard)).isSome || b.opLive p (fun k => k == .loadLast || k == .unloadLast || k == .restore)) (!r.reservedOk [(0, 1), (4, 14)] || decide (7 < p) || decide (r.u 16 2 ≠ (b.rf ⟨.LAC_EPOCH, iod0, 0⟩ Fld.LAC_EPOCH_EPOCH + 1) % 4096)) false b.opsBusy)) ∧
    (∃ s : State, ∃ f : Nat, ∃ m : Nat, let b := s.blk; let r := b.reqOf f m; let p := r.u 0 1; b.pwr.doze = false ∧ Stands b f m 0x16 ∧ (Passes b r (!b.isLoaded p || b.unrestored p || b.exclusiveBusy p) (!r.reservedOk [(0, 2), (4, 8), (16, 12), (32, if r.u 1 1 = 3 then 20 else 8)] || decide (7 < p) || decide (3 < r.u 1 1) || !decide (r.u 4 4 < r.u 8 4) || !feedOk (r.u 16 8) (r.u 24 4) || !((b.part p).any (fun x => x.digests.any (fun d => decide (d.s = r.u 8 4))))) false b.opsBusy)) :=
  ⟨⟨(asks ready 0x10 []), 0, 0, by unfold Stands Passes; decide +kernel⟩,
   ⟨(asks (withPart ready { part0 with loaded := true }) 0x11 []), 0, 0, by unfold Stands Passes; decide +kernel⟩,
   ⟨(asks (withPart ready { part0 with loaded := true }) 0x12 [(4, 4, 1), (16, 8, 4096), (24, 4, 4096)]), 0, 0, by unfold Stands Passes; decide +kernel⟩,
   ⟨(asks (withPart ready { part0 with loaded := true }) 0x17 [(16, 2, 1)]), 0, 0, by unfold Stands Passes; decide +kernel⟩,
   ⟨(asks (withPart ready { part0 with loaded := true, digests := [{ s := 1, outcome := .apply, attempts := 1, names := [], n := 1, digests := [] }] }) 0x16 [(4, 4, 0), (8, 4, 1), (16, 8, 4096), (24, 4, 4096)]), 0, 0, by unfold Stands Passes; decide +kernel⟩⟩

/-- The hypotheses of each clause of Obligations.CareCommandsAccepted are met together. -/
theorem witness_CareCommandsAccepted :
    (∃ s : State, ∃ f : Nat, ∃ m : Nat, let b := s.blk; let r := b.reqOf f m; let p := r.u 0 1; b.pwr.doze = false ∧ Stands b f m 0x20 ∧ r.u 1 1 = 0 ∧ Passes b r (!b.isLoaded p || b.unrestored p || b.opLive p OpKind.exclusive || b.isSecuring p) (!r.reservedOk [(0, 3)] || decide (7 < p) || decide (3 < r.u 2 1)) false b.opsBusy) ∧
    (∃ s : State, ∃ f : Nat, ∃ m : Nat, let b := s.blk; let r := b.reqOf f m; let p := r.u 0 1; b.pwr.doze = false ∧ Stands b f m 0x20 ∧ r.u 1 1 = 1 ∧ Passes b r (!b.isLoaded p || b.unrestored p) (!r.reservedOk [(0, 3), (4, 4)] || decide (7 < p) || decide (3 < r.u 2 1)) false b.opsBusy) ∧
    (∃ s : State, ∃ f : Nat, ∃ m : Nat, let b := s.blk; let r := b.reqOf f m; let p := r.u 0 1; ∃ x, b.pwr.doze = false ∧ Stands b f m 0x20 ∧ r.u 1 1 = 2 ∧ b.flashFile p (r.u 4 4) = some x ∧ Passes b r ((b.part p).isNone || b.unrestored p || (b.flashFile p (r.u 4 4)).isNone) (!r.reservedOk [(0, 3), (4, 16)] || decide (7 < p) || decide (3 < r.u 2 1)) false b.opsBusy) ∧
    (∃ s : State, ∃ f : Nat, ∃ m : Nat, let b := s.blk; let r := b.reqOf f m; let p := r.u 0 1; b.pwr.doze = false ∧ Stands b f m 0x21 ∧ (Passes b r (!b.isLoaded p || b.exclusiveBusy p || b.opLive p (fun k => k == .secure || k == .export_) || b.isSecuring p) (!r.reservedOk (if r.u 1 1 = 3 then [(0, 2), (4, 16)] else [(0, 2), (4, 4)]) || decide (7 < p) || decide (3 < r.u 1 1)) false b.opsBusy)) ∧
    (∃ s : State, ∃ f : Nat, ∃ m : Nat, let b := s.blk; let r := b.reqOf f m; let p := r.u 0 1; let us := (List.range p).map (fun i => r.u (2 + 2 * i) 2); b.pwr.doze = false ∧ Stands b f m 0x30 ∧ (Passes b r false (!r.reservedOk [(0, 1), (2, 2 * p)] || decide (p = 0) || decide (112 < p) || !us.all (fun u => b.unitExists u && b.present (unitDie u))) false b.opsBusy)) ∧
    (∃ s : State, ∃ f : Nat, ∃ m : Nat, let b := s.blk; let r := b.reqOf f m; let p := r.u 0 1; b.pwr.doze = false ∧ Stands b f m 0x31 ∧ Passes b r (decide (p ≤ 7) && (b.part p).isNone) (!r.reservedOk [(0, 1), (8, 16)] || (decide (7 < p) && decide (p ≠ 0xFF)) || decide (r.u 16 8 = 0) || !b.scrubRange p (r.u 8 8) (r.u 16 8)) false b.opsBusy) :=
  ⟨⟨(asks (withPart ready { part0 with loaded := true }) 0x20 []), 0, 0, by unfold Stands Passes; decide +kernel⟩,
   ⟨(asks (withPart ready { part0 with loaded := true }) 0x20 [(1, 1, 1), (4, 4, 1)]), 0, 0, by unfold Stands Passes; decide +kernel⟩,
   ⟨(asks { ready with flash := [(0, gen0)] } 0x20 [(1, 1, 2)]), 0, 0, (0, gen0), by unfold Stands Passes; decide +kernel⟩,
   ⟨(asks (withPart ready { part0 with loaded := true }) 0x21 []), 0, 0, by unfold Stands Passes; decide +kernel⟩,
   ⟨(asks ready 0x30 [(0, 1, 1), (2, 2, 0)]), 0, 0, by unfold Stands Passes; decide +kernel⟩,
   ⟨(asks ready 0x31 [(0, 1, 0xFF), (16, 8, 1)]), 0, 0, by unfold Stands Passes; decide +kernel⟩⟩

/-- The hypotheses of each clause of Obligations.FirmwareAndAttest are met together. -/
theorem witness_FirmwareAndAttest :
    (∃ s : State, ∃ f : Nat, ∃ m : Nat, let b := s.blk; let r := b.reqOf f m; ∃ c, ∃ o, Stands b f m 0x62 ∧ ((∀ x ∈ b.mbx.ops, x.kind = .fwUpdate → x.st.final = true)) ∧ Passes b r false (!r.reservedOk [(4, 4), (8, 8), (16, 1)] || decide (1 < r.u 16 1)) false b.opsBusy ∧ c = b.accept r { handle := 0, fn := f, mbx := m, kind := .fwUpdate, part := 0xFF, st := .running, scatter := r.u 8 8, nScatter := r.u 4 4, activate := r.u 16 1 } ∧ c.mbx.ops.getLast? = some o) ∧
    (∃ s : State, ∃ f : Nat, ∃ m : Nat, let b := s.blk; let r := b.reqOf f m; Stands b f m 0x63 ∧ Passes b r false (!r.reservedOk [(0, 44)] || decide (r.u 40 4 < 131072)) false b.opsBusy) :=
  ⟨⟨(asks ready 0x62 []), 0, 0, ((asks ready 0x62 []).blk.accept ((asks ready 0x62 []).blk.reqOf 0 0) { handle := 0, fn := 0, mbx := 0, kind := .fwUpdate, part := 0xFF, st := .running }), (((asks ready 0x62 []).blk.accept ((asks ready 0x62 []).blk.reqOf 0 0) { handle := 0, fn := 0, mbx := 0, kind := .fwUpdate, part := 0xFF, st := .running }).mbx.ops.getLast?.getD runOp), by unfold Stands Passes; decide +kernel⟩,
   ⟨(asks ready 0x63 [(40, 4, 131072)]), 0, 0, by unfold Stands Passes; decide +kernel⟩⟩

/-- The hypotheses of each clause of Obligations.ChecksInOrder are met together. -/
theorem witness_ChecksInOrder :
    (∃ r : Req, cmdRow r.code = none) ∧
    (∃ r : Req, ∃ w : CmdRow, cmdRow r.code = some w) ∧
    (∃ s : State, ∃ f : Nat, ∃ m : Nat, ∃ st : Status, let b := s.blk; let r := b.reqOf f m; let p := r.u 0 1; Stands b f m 0x10 ∧ b.judge r ((b.part p).isNone || b.isLoaded p || b.exclusiveBusy p) false (!r.reservedOk [(0, 1), (4, 4), (8, 8)] || decide (7 < p)) false b.opsBusy = some st) :=
  ⟨⟨(st ready).blk.reqOf 0 0, by decide +kernel⟩,
   ⟨(asks ready 0x1 []).blk.reqOf 0 0, ⟨1, .any, true, true⟩, by decide +kernel⟩,
   ⟨(asks (withPart ready { part0 with loaded := true }) 0x10 []), 0, 0, .refusedState, by unfold Stands; decide +kernel⟩⟩

/-- The hypotheses of each clause of Obligations.OperationsSuspendAndEnd are met together. -/
theorem witness_OperationsSuspendAndEnd :
    (∃ s : State, ∃ f : Nat, ∃ m : Nat, ∃ o : LongOp, let b := s.blk; let r := b.reqOf f m; ∃ now : Bool, Stands b f m 0x13 ∧ r.u 0 1 = b2n now ∧ b.handleOp r = some o ∧ o.st = .running ∧ suspendable o.kind now = true ∧ Passes b r false (!r.reservedOk [(0, 1)]) false false) ∧
    (∃ s : State, ∃ f : Nat, ∃ m : Nat, ∃ o : LongOp, let b := s.blk; let r := b.reqOf f m; Stands b f m 0x14 ∧ b.handleOp r = some o ∧ o.st = .suspended ∧ b.pwr.coolStop = false ∧ b.pwr.wait = false ∧ Passes b r false (!r.reservedOk []) false false) ∧
    (∃ s : State, ∃ f : Nat, ∃ m : Nat, ∃ o : LongOp, ∃ c : Blk, let b := s.blk; let r := b.reqOf f m; Stands b f m 0x15 ∧ b.handleOp r = some o ∧ o.st.final = false ∧ b.cancelEffect o = some c ∧ Passes b r false (!r.reservedOk []) false false) ∧
    (∃ s : State, ∃ h : Nat, ∃ o : LongOp, let b := s.blk; h < 2 ^ 32 ∧ b.op h = some o ∧ o.st = .running ∧ o.susp ≠ .none ∧ o.ended = false ∧ (((o.kind = .runSteps ∨ o.kind = .replayStep) → b.atSuspension o.part = true))) ∧
    (∃ s : State, ∃ h : Nat, ∃ o : LongOp, let b := s.blk; h < 2 ^ 32 ∧ b.op h = some o ∧ o.ended = true ∧ o.st = .running ∧ o.kind ≠ .fwUpdate) :=
  ⟨⟨(asks (withOp ready runOp) 0x13 [(0, 1, 1)] 256), 0, 0, runOp, true, by unfold Stands Passes; decide +kernel⟩,
   ⟨(asks (withOp ready { runOp with st := .suspended }) 0x14 [] 256), 0, 0, { runOp with st := .suspended }, by unfold Stands Passes; decide +kernel⟩,
   ⟨(asks (withOp ready { runOp with kind := .scrub }) 0x15 [] 256), 0, 0, { runOp with kind := .scrub }, (((asks (withOp ready { runOp with kind := .scrub }) 0x15 [] 256).blk.cancelEffect { runOp with kind := .scrub }).getD ready), by unfold Stands Passes; decide +kernel⟩,
   ⟨(st (withOp ready { runOp with kind := .scrub, susp := .boundary })), 256, { runOp with kind := .scrub, susp := .boundary }, by decide +kernel⟩,
   ⟨(st (withOp ready { runOp with kind := .scrub, ended := true })), 256, { runOp with kind := .scrub, ended := true }, by decide +kernel⟩⟩

/-- The hypotheses of each clause of Obligations.MailboxTransport are met together. -/
theorem witness_MailboxTransport :
    (∃ s : State, ∃ f : Nat, ∃ m : Nat, ∃ owner : Nat, ∃ msg : List Byte, let b := s.blk; f < 9 ∧ m < fnMailboxes f ∧ owner < 9 ∧ msg.length = 256 ∧ b.reqFull f m = false) ∧
    (∃ s : State, ∃ f : Nat, ∃ m : Nat, ∃ owner : Nat, ∃ msg : List Byte, let b := s.blk; f < 9 ∧ m < fnMailboxes f ∧ owner < 9 ∧ msg.length = 256 ∧ b.reqFull f m = true) ∧
    (∃ s : State, ∃ f : Nat, ∃ m : Nat, ∃ owner : Nat, let b := s.blk; f < 9 ∧ m < fnMailboxes f ∧ owner < 9 ∧ b.rspFull f m = true ∧ b.queued f m = []) ∧
    (∃ s : State, ∃ f : Nat, ∃ m : Nat, ∃ owner : Nat, let b := s.blk; ∃ x, ∃ xs, f < 9 ∧ m < fnMailboxes f ∧ owner < 9 ∧ b.rspFull f m = true ∧ b.queued f m = x :: xs) ∧
    (∃ s : State, ∃ f : Nat, ∃ m : Nat, ∃ owner : Nat, let b := s.blk; let lock : RegRef := ⟨.MBX_LOCK, owner, m⟩; f < 9 ∧ m < fnMailboxes f ∧ owner < 9 ∧ b.rn lock = 0) ∧
    (∃ s : State, ∃ f : Nat, ∃ m : Nat, ∃ owner : Nat, let b := s.blk; let lock : RegRef := ⟨.MBX_LOCK, owner, m⟩; f < 9 ∧ m < fnMailboxes f ∧ owner < 9 ∧ b.rn lock = fnId f) ∧
    (∃ s : State, ∃ f : Nat, ∃ m : Nat, ∃ owner : Nat, let b := s.blk; let lock : RegRef := ⟨.MBX_LOCK, owner, m⟩; f < 9 ∧ m < fnMailboxes f ∧ owner < 9 ∧ b.rn lock ≠ fnId f) ∧
    (∃ f : Nat, ∃ m : Nat, ∃ owner : Nat, ∃ mask : Nat, f < 9 ∧ m < fnMailboxes f ∧ owner < 9 ∧ mask < 2 ^ 64) :=
  ⟨⟨(st ready), 8, 3, 0, (zeros 256), by decide +kernel⟩,
   ⟨(asks ready 1 []), 0, 0, 0, (zeros 256), by decide +kernel⟩,
   ⟨(st (ready.wf ⟨.MBX_STATUS, 8, 3⟩ Fld.MBX_STATUS_RSP_FULL 1)), 8, 3, 0, by decide +kernel⟩,
   ⟨(st ((ready.wf ⟨.MBX_STATUS, 8, 3⟩ Fld.MBX_STATUS_RSP_FULL 1).setQueued 8 3 [[]])), 8, 3, 0, [], [], by decide +kernel⟩,
   ⟨(st ready), 0, 3, 8, by decide +kernel⟩,
   ⟨(st (ready.wn ⟨.MBX_LOCK, 0, 15⟩ 1)), 0, 15, 0, by decide +kernel⟩,
   ⟨(st (ready.wn ⟨.MBX_LOCK, 0, 15⟩ 18)), 0, 15, 0, by decide +kernel⟩,
   ⟨0, 0, 0, 2 ^ 64 - 1, by decide +kernel⟩⟩

/-- The hypotheses of each clause of Obligations.DoorbellsAndMessages are met together. -/
theorem witness_DoorbellsAndMessages :
    (∃ f : Nat, ∃ p : Nat, ∃ v : Nat, f < 9 ∧ p < 8 ∧ v < 2 ^ 32 ∧ ((f = 0 ∨ f = p + 1))) ∧
    (∃ f : Nat, ∃ p : Nat, ∃ v : Nat, f < 9 ∧ p < 8 ∧ v < 2 ^ 32 ∧ f ≠ 0 ∧ f ≠ p + 1) ∧
    (∃ s : State, ∃ v : Nat, let b := s.blk; v < 2 ^ 32 ∧ bits v 0 3 = 1 ∧ bits v 16 16 = 0xC0B1 ∧ b.stage ≠ 0 ∧ b.stage ≠ 8 ∧ b.pkg.armed = 0) ∧
    (∃ s : State, ∃ v : Nat, let b := s.blk; v < 2 ^ 32 ∧ bits v 0 3 = 2 ∧ bits v 16 16 = 0xC0B1 ∧ b.stage ≠ 0 ∧ b.stage ≠ 8 ∧ b.pkg.armed = 0) ∧
    (∃ s : State, ∃ v : Nat, let b := s.blk; v < 2 ^ 32 ∧ bits v 0 3 = 1 ∧ bits v 16 16 = 0xC0B1 ∧ b.stage ≠ 0 ∧ b.stage ≠ 8 ∧ b.pkg.armed = v) ∧
    (∃ s : State, ∃ v : Nat, let b := s.blk; v < 2 ^ 32 ∧ bits v 0 3 = 2 ∧ bits v 16 16 = 0xC0B1 ∧ b.stage ≠ 0 ∧ b.stage ≠ 8 ∧ b.pkg.armed = v) ∧
    (∃ s : State, ∃ v : Nat, let b := s.blk; v < 2 ^ 32 ∧ bits v 0 3 ≠ 2 ∧ bits v 16 16 ≠ 0xC0B1 ∧ b.stage ≠ 0 ∧ b.stage ≠ 8) ∧
    (∃ s : State, ∃ d : Nat, ∃ bit : Nat, let b := s.blk; d < 10 ∧ bit < 32 ∧ b.fenced d = false ∧ ((bit < 10 → b.fenced bit = false))) ∧
    (∃ s : State, ∃ d : Nat, ∃ bit : Nat, let b := s.blk; d < 10 ∧ bit < 32 ∧ ((b.fenced d = true ∨ (bit < 10 ∧ b.fenced bit = true)))) ∧
    (∃ s : State, ∃ dst : Nat, ∃ src : Nat, ∃ msg : List Byte, let b := s.blk; dst < 10 ∧ src < 10 ∧ src ≠ dst ∧ msg.length = 256 ∧ ((b.fenced src = true ∨ b.fenced dst = true))) ∧
    (∃ s : State, ∃ dst : Nat, ∃ src : Nat, ∃ msg : List Byte, let b := s.blk; dst < 10 ∧ src < 10 ∧ src ≠ dst ∧ msg.length = 256 ∧ b.fenced src = false ∧ b.fenced dst = false ∧ slotGet b.mbx.cobbler (dst * 16 + src) = none) ∧
    (∃ s : State, ∃ cl : Nat, ∃ msg : List Byte, let b := s.blk; cl < 36 ∧ b.up (clDie cl) = true ∧ msg.length = 256 ∧ slotGet b.mbx.cluster cl = none) :=
  ⟨⟨8, 7, 2 ^ 32 - 1, by decide +kernel⟩,
   ⟨8, 6, 0, by decide +kernel⟩,
   ⟨(st ready), 0xC0B10001, by decide +kernel⟩,
   ⟨(st ready), 0xC0B10002, by decide +kernel⟩,
   ⟨(st { ready with pkg := { ready.pkg with armed := 0xC0B10001 } }), 0xC0B10001, by decide +kernel⟩,
   ⟨(st { ready with pkg := { ready.pkg with armed := 0xC0B10002 } }), 0xC0B10002, by decide +kernel⟩,
   ⟨(st ready), 1, by decide +kernel⟩,
   ⟨(st ready), 9, 31, by decide +kernel⟩,
   ⟨(st (ready.wf ⟨.IDENT_PRESENT, 0, 0⟩ Fld.IDENT_PRESENT_FENCED 2)), 9, 1, by decide +kernel⟩,
   ⟨(st (ready.wf ⟨.IDENT_PRESENT, 0, 0⟩ Fld.IDENT_PRESENT_FENCED 512)), 9, 8, (zeros 256), by decide +kernel⟩,
   ⟨(st ready), 9, 8, (zeros 256), by decide +kernel⟩,
   ⟨(st ready), 35, (zeros 256), by decide +kernel⟩⟩

/-- The hypotheses of each clause of Obligations.EventGathererActs are met together. -/
theorem witness_EventGathererActs :
    (∃ s : State, ∃ d : Nat, ∃ t : Nat, ∃ src : Nat, ∃ served : Nat, let b := s.blk; let e := evDie d t; evPortNo d t = true ∧ src < 2048 ∧ served < 256 ∧ b.evTarget e (src / 32) = t ∧ served ≠ 0 ∧ served ≤ b.evCount e src ∧ Sp.get 0 b.evg.level (e * 2048 + src) = 0) ∧
    (∃ s : State, ∃ d : Nat, ∃ t : Nat, ∃ src : Nat, ∃ served : Nat, let b := s.blk; let e := evDie d t; evPortNo d t = true ∧ src < 2048 ∧ served < 256 ∧ ((b.evTarget e (src / 32) ≠ t ∨ b.evCount e src = 0 ∨ served = 0))) ∧
    (∃ s : State, ∃ d : Nat, ∃ t : Nat, ∃ v : Nat, let b := s.blk; let port := evPort d t; evPortNo d t = true ∧ v < 2 ^ 32 ∧ (b.rf ⟨.EVG_Q_PROD, port, 0⟩ Fld.EVG_Q_PROD_COUNT + 65536 - b.rf ⟨.EVG_Q_CONS, port, 0⟩ Fld.EVG_Q_CONS_COUNT) % 65536 < (v % 65536 + 65536 - b.rf ⟨.EVG_Q_CONS, port, 0⟩ Fld.EVG_Q_CONS_COUNT) % 65536) ∧
    (∃ s : State, ∃ d : Nat, ∃ v : Nat, let b := s.blk; evPortNo d 0 = true ∧ v < 2 ^ 32 ∧ (v % 65536 + 65536 - b.rf ⟨.EVG_Q_CONS, d * 16, 0⟩ Fld.EVG_Q_CONS_COUNT) % 65536 ≤ (b.rf ⟨.EVG_Q_PROD, d * 16, 0⟩ Fld.EVG_Q_PROD_COUNT + 65536 - b.rf ⟨.EVG_Q_CONS, d * 16, 0⟩ Fld.EVG_Q_CONS_COUNT) % 65536) ∧
    (∃ s : State, ∃ d : Nat, ∃ v : Nat, let b := s.blk; evPortNo d 0 = true ∧ v < 2 ^ 32 ∧ b.rf ⟨.EVG_Q_CFG, d * 16, 0⟩ Fld.EVG_Q_CFG_ENABLE = 0 ∧ bits v 4 1 = 1) ∧
    (∃ s : State, ∃ d : Nat, ∃ t : Nat, ∃ v : Nat, ∃ g : Nat, let b := s.blk; let e := evDie d t; evPortNo d t = true ∧ g < 64 ∧ v < 2 ^ 32 ∧ b.evTarget e g = t) ∧
    (∃ s : State, ∃ d : Nat, ∃ t : Nat, ∃ v : Nat, ∃ g : Nat, let b := s.blk; let e := evDie d t; evPortNo d t = true ∧ g < 64 ∧ v < 2 ^ 32 ∧ b.evTarget e g ≠ t) ∧
    (∃ s : State, ∃ d : Nat, ∃ src : Nat, let b := s.blk; d < 10 ∧ src < 2048 ∧ evExists b.pkg.sku d src = true ∧ Sp.get 0 b.evg.level (d * 2048 + src) = 0) ∧
    (∃ s : State, ∃ d : Nat, ∃ g : Nat, let b := s.blk; d < 10 ∧ g < 64 ∧ Sp.get 0 b.evg.holdoff (d * 64 + g) ≠ 0) ∧
    (∃ s : State, ∃ f : Nat, let b := s.blk; f < 9 ∧ b.evCoalescing (iod0 * 16 + 1 + f) = true ∧ Sp.get 0 b.evg.coal (iod0 * 16 + 1 + f) ≠ 0) :=
  ⟨⟨(st ({ ready with evg := { ready.evg with cnt := [(9 * 2048 + 64, 255)] } }.wf ⟨.EVG_GRP_CFG, 144, 2⟩ Fld.EVG_GRP_CFG_TARGET 0)), 9, 0, 64, 255, by decide +kernel⟩,
   ⟨(st ready), 4, 9, 2047, 0, by decide +kernel⟩,
   ⟨(st ready), 4, 9, 1, by decide +kernel⟩,
   ⟨(st ready), 9, 0, by decide +kernel⟩,
   ⟨(st ready), 9, 16, by decide +kernel⟩,
   ⟨(st (ready.wf ⟨.EVG_GRP_CFG, 64, 63⟩ Fld.EVG_GRP_CFG_TARGET 9)), 4, 9, 0, 63, by decide +kernel⟩,
   ⟨(st (ready.wf ⟨.EVG_GRP_CFG, 64, 63⟩ Fld.EVG_GRP_CFG_TARGET 9)), 4, 8, 0, 63, by decide +kernel⟩,
   ⟨(st ready), 4, 1800, by decide +kernel⟩,
   ⟨(st { ready with evg := { ready.evg with holdoff := [(9 * 64 + 14, 1)] } }), 9, 14, by decide +kernel⟩,
   ⟨(st ({ ready with evg := { ready.evg with coal := [(73, 1)] } }.wf ⟨.EVG_Q_CFG, 73, 0⟩ Fld.EVG_Q_CFG_MODE 1)), 8, by decide +kernel⟩⟩

/-- The hypotheses of each clause of Obligations.RegisterAccess are met together. -/
theorem witness_RegisterAccess :
    (∃ d : Nat, d < 10) ∧
    (∃ core : Nat, ∃ upd : Nat, core < 180 ∧ upd < 2 ^ 32) :=
  ⟨⟨9, by decide +kernel⟩,
   ⟨179, 2 ^ 32 - 1, by decide +kernel⟩⟩

/-- The hypotheses of each clause of Obligations.DebugLockActs are met together. -/
theorem witness_DebugLockActs :
    (∃ s : State, ∃ f : Nat, ∃ m : Nat, ∃ x : List Byte, let b := s.blk; let r := b.reqOf f m; let u (off n : Nat) : Nat := leNat ((x.drop off).take n); let key := digestVal (sha256 ((x.drop 52).take 64)); Stands b f m 0x61 ∧ r.u 8 4 = 29908 ∧ Passes b r false (!r.reservedOk [(0, 12)]) false false ∧ b.hostRead (r.u 0 8) 29908 = some x ∧ u 0 4 = 0x4B4C4E55 ∧ b.sec.nonce = some (digestVal ((x.drop 4).take 32)) ∧ u 36 4 = bits (b.rn ⟨.IDENT_DIE, 0, iod0⟩) 32 32 ∧ u 40 4 = b.rn ⟨.IDENT_PART, 0, 0⟩ % 2 ^ 32 ∧ 1 ≤ u 44 1 ∧ u 44 1 ≤ 7 ∧ 1 ≤ u 48 4 ∧ u 48 4 ≤ 86400 ∧ key ∈ b.sec.bootCfg.unlock) ∧
    (∃ s : State, ∃ f : Nat, ∃ m : Nat, ∃ x : List Byte, let b := s.blk; let r := b.reqOf f m; Stands b f m 0x61 ∧ r.u 8 4 = 29908 ∧ Passes b r false (!r.reservedOk [(0, 12)]) false false ∧ b.hostRead (r.u 0 8) 29908 = some x ∧ b.sec.nonce ≠ some (digestVal ((x.drop 4).take 32))) ∧
    (∃ s : State, let b := s.blk; b.sec.scopes ≠ 0) ∧
    (∃ s : State, ∃ v : Nat, let b := s.blk; v < 2 ^ 32 ∧ bitOf b.sec.scopes 0 = true ∧ bitOf b.sec.scopes 2 = true ∧ bitOf v 0 = true) ∧
    (∃ s : State, ∃ v : Nat, let b := s.blk; v < 2 ^ 32 ∧ bitOf b.sec.scopes 0 = false) :=
  ⟨⟨(asks unlocking 0x61 [(8, 4, 29908)]), 0, 0, (unlocking.hostMem.read 0 29908), by exact ⟨by unfold Stands; decide +kernel, by decide +kernel, by unfold Passes; decide +kernel, rfl, by decide +kernel, by decide +kernel, by decide +kernel, by decide +kernel, by decide +kernel, by decide +kernel, by decide +kernel, by decide +kernel, by decide +kernel⟩⟩,
   ⟨(asks { unlocking with sec := { unlocking.sec with nonce := none } } 0x61 [(8, 4, 29908)]), 0, 0, (unlocking.hostMem.read 0 29908), by exact ⟨by unfold Stands; decide +kernel, by decide +kernel, by unfold Passes; decide +kernel, rfl, by decide +kernel⟩⟩,
   ⟨(st { ready with sec := { ready.sec with scopes := 2 } }), by decide +kernel⟩,
   ⟨(st { ready with sec := { ready.sec with scopes := 5 } }), 1, by decide +kernel⟩,
   ⟨(st ready), 1, by decide +kernel⟩⟩

/-- The hypotheses of each clause of Obligations.WindowsAndMirror are met together. -/
theorem witness_WindowsAndMirror :
    (∃ s : State, ∃ x : Nat, ∃ xs : List Byte, let b := s.blk; let at_ := b.bar2Base + x; xs ≠ [] ∧ ((b.runLive = true ∨ b.dataBlock ((at_ + xs.length - 1) / 4096) = none))) ∧
    (∃ s : State, ∃ x : Nat, ∃ xs : List Byte, let b := s.blk; let at_ := b.bar2Base + x; xs ≠ [] ∧ at_ % 4096 + xs.length ≤ 4096 ∧ b.runLive = false ∧ (b.dataBlock (at_ / 4096)).isSome = true ∧ b.parts = []) ∧
    (∃ s : State, let b := s.blk; bitOf b.sec.scopes 0 = false) ∧
    (∃ s : State, ∃ a : Nat, ∃ off : Nat, ∃ k : Nat, ∃ d : Nat, ∃ q : RegBlk, ∃ g : RegRef, ∃ o : Nat, let b := s.blk; bitOf b.sec.scopes 0 = true ∧ windowAt (a / 4 * 4) = some (d, q, k, off) ∧ b.up d = true ∧ regFind d q k off = some (g, o)) :=
  ⟨⟨(st (withOp ready runOp)), 0, [1], by decide +kernel⟩,
   ⟨(st { ready with parts := [] }), 0, (zeros 4096), by decide +kernel⟩,
   ⟨(st ready), by decide +kernel⟩,
   ⟨(st { ready with sec := { ready.sec with scopes := 1 } }), 0x1000000, 0, 0, 0, blkOrder[0], ⟨.IDENT_PART, 0, 0⟩, 0, by decide +kernel⟩⟩

/-- The hypotheses of each clause of Obligations.RoleCommandsAct are met together. -/
theorem witness_RoleCommandsAct :
    (∃ s : State, ∃ u : Nat, let b := s.blk; unitNo u = true ∧ b.present (unitDie u) = true ∧ ((b.role u = roActive ∨ b.role u = roSpare ∨ b.role u = roIdle))) ∧
    (∃ s : State, ∃ u : Nat, let b := s.blk; unitNo u = true ∧ b.present (unitDie u) = true ∧ ((b.role u = roFenced ∨ b.role u = roSuspect ∨ b.role u = roTesting))) ∧
    (∃ s : State, ∃ u : Nat, let b := s.blk; let t : TestReq := { unit := u, trigger := .command, prevRole := b.role u, deferred := false }; let waits := (b.askTest u .command).mustDefer t; let may := (b.askTest u .command).testMay t; unitNo u = true ∧ b.present (unitDie u) = true ∧ b.role u ≠ roFailed ∧ ((∀ t ∈ b.units.running, t.unit ≠ u)) ∧ ((∀ t ∈ b.units.queue, t.unit ≠ u)) ∧ b.sec.loadsOk (awlSection u) = true ∧ waits = false ∧ may = true ∧ b.role u ≠ roActive ∧ ((unitDie u < 4 → unitSlot u % 16 = 15 → b.clusterWorks (unitCluster u) = true))) ∧
    (∃ s : State, ∃ u : Nat, let b := s.blk; let t : TestReq := { unit := u, trigger := .command, prevRole := b.role u, deferred := false }; let waits := (b.askTest u .command).mustDefer t; unitNo u = true ∧ b.present (unitDie u) = true ∧ b.role u ≠ roFailed ∧ ((∀ t ∈ b.units.running, t.unit ≠ u)) ∧ ((∀ t ∈ b.units.queue, t.unit ≠ u)) ∧ b.sec.loadsOk (awlSection u) = true ∧ waits = true) ∧
    (∃ s : State, ∃ u : Nat, let b := s.blk; let t : TestReq := { unit := u, trigger := .command, prevRole := b.role u, deferred := false }; let waits := (b.askTest u .command).mustDefer t; let may := (b.askTest u .command).testMay t; unitNo u = true ∧ b.present (unitDie u) = true ∧ b.role u ≠ roFailed ∧ ((∀ t ∈ b.units.running, t.unit ≠ u)) ∧ ((∀ t ∈ b.units.queue, t.unit ≠ u)) ∧ b.sec.loadsOk (awlSection u) = true ∧ waits = false ∧ may = false) ∧
    (∃ s : State, ∃ u : Nat, let b := s.blk; unitNo u = true ∧ b.present (unitDie u) = true ∧ b.role u ≠ roFailed ∧ ((∃ t ∈ b.units.running, t.unit = u)) ∧ ((∀ t ∈ b.units.queue, t.unit ≠ u))) ∧
    (∃ s : State, ∃ u : Nat, let b := s.blk; unitNo u = true ∧ b.present (unitDie u) = true ∧ b.role u ≠ roFailed ∧ u ∈ b.units.passed) ∧
    (∃ s : State, ∃ u : Nat, let b := s.blk; unitNo u = true ∧ b.present (unitDie u) = true ∧ b.role u ≠ roFailed ∧ u ∉ b.units.passed) ∧
    (∃ s : State, ∃ u : Nat, let b := s.blk; unitNo u = true ∧ b.present (unitDie u) = true ∧ unitDie u < 4 ∧ unitSlot u % 16 < 5 ∧ ((b.role u = roActive ∨ b.role u = roIdle))) ∧
    (∃ s : State, ∃ u : Nat, let b := s.blk; unitNo u = true ∧ b.present (unitDie u) = true ∧ b.role u = roFailed ∧ ((∀ t ∈ b.units.queue, t.unit ≠ u))) ∧
    (∃ u : Nat, ∃ v : Nat, ∃ r : Nat, unitNo u = true ∧ unitNo v = true ∧ r ≤ 7 ∧ v ≠ u) ∧
    (∃ u : Nat, ∃ v : Nat, ∃ r : Nat, ∃ g : RegRef, unitNo u = true ∧ unitNo v = true ∧ r ≤ 7 ∧ regOk g = true ∧ g.name.row.blk ≠ RegBlk.evg ∧ g ≠ unitReg u) :=
  ⟨⟨(st (ready.wf (unitReg (0)) Fld.AWL_UNIT_ROLE 0)), 0, by decide +kernel⟩,
   ⟨(st (ready.wf (unitReg (9)) Fld.AWL_UNIT_ROLE 2)), 9, by decide +kernel⟩,
   ⟨(st ready), 3 + 16 * 132, by decide +kernel⟩,
   ⟨(st deferring), clUnit 0 0, by decide +kernel⟩,
   ⟨(st { (running (at_ 0)) with units := { ready.units with running := [⟨clUnit 0 1, .command, 0, false, false⟩] } }), clUnit 0 13, by decide +kernel⟩,
   ⟨(st { ready with units := { ready.units with running := [⟨9, .command, 0, false, false⟩] } }), 9, by decide +kernel⟩,
   ⟨(st { ready with units := { ready.units with passed := [0] } }), 0, by decide +kernel⟩,
   ⟨(st ready), 9 + 16 * 0, by decide +kernel⟩,
   ⟨(st (ready.wf (unitReg (3 + 16 * 132)) Fld.AWL_UNIT_ROLE 0)), 3 + 16 * 132, by decide +kernel⟩,
   ⟨(st (ready.wf (unitReg (3 + 16 * 143)) Fld.AWL_UNIT_ROLE 5)), 3 + 16 * 143, by decide +kernel⟩,
   ⟨3 + 16 * 143, 9, 7, by decide +kernel⟩,
   ⟨3 + 16 * 143, 9, 7, ⟨.AWL_UNIT, 3, 142⟩, by decide +kernel⟩⟩

/-- The hypotheses of each clause of Obligations.CobblerWritesAct are met together. -/
theorem witness_CobblerWritesAct :
    (∃ o : Nat, ∃ p : Nat, o < 10 ∧ p < 11 ∧ p ≠ o) ∧
    (∃ s : State, ∃ o : Nat, ∃ p : Nat, let b := s.blk; o < 10 ∧ p < 10 ∧ o = b.master ∧ b.mayAdmit p = true) ∧
    (∃ s : State, ∃ o : Nat, let b := s.blk; ∃ v, v < 2 ^ 32 ∧ o < 10 ∧ o ≠ b.master) ∧
    (∃ s : State, let b := s.blk; b.relayMay = true ∧ b.hbm.relaying = []) ∧
    (∃ s : State, let b := s.blk; b.relayMay = false) ∧
    (∃ s : State, let b := s.blk; b.hbm.relaying ≠ []) ∧
    (∃ s : State, ∃ e : Nat, ∃ mask : Nat, let b := s.blk; e < 48 ∧ 0 < mask ∧ mask < 256 ∧ b.eyeFlits e = true) ∧
    (∃ s : State, ∃ e : Nat, let b := s.blk; e < 48 ∧ b.pausing e = false) ∧
    (∃ s : State, ∃ e : Nat, let b := s.blk; e < 48 ∧ b.eyeUp e = true ∧ ((b.rf (eyeReg e) Fld.EYE_STATE_PAUSE_TMO = 1 ∨ (b.eye e).tmoPast = true ∨ (b.rf (eyeReg e) Fld.EYE_STATE_QUIESCED = 1 ∧ (b.eye e).replay = [])))) :=
  ⟨⟨9, 10, by decide +kernel⟩,
   ⟨(st ({ ready with pkg := { ready.pkg with lost := 8, rejoined := 8 } })), 4, 3, by decide +kernel⟩,
   ⟨(st ready), 3, 2 ^ 32 - 1, by decide +kernel⟩,
   ⟨(st ready), by decide +kernel⟩,
   ⟨(st (withOp (withPart ready { part0 with loaded := true, step := { Step.idle with state := 2 } }) runOp)), by decide +kernel⟩,
   ⟨(st { ready with hbm := { ready.hbm with relaying := [1535] } }), by decide +kernel⟩,
   ⟨(st (ready.wf (eyeReg 47) Fld.EYE_STATE_STATE 6)), 47, 255, by decide +kernel⟩,
   ⟨(st ready), 47, by decide +kernel⟩,
   ⟨(st ((ready.wf (eyeReg 47) Fld.EYE_STATE_STATE 5).wf (eyeReg 47) Fld.EYE_STATE_QUIESCED 1)), 47, by decide +kernel⟩⟩

/-- The hypotheses of Obligations.IntegerElementwise are met together. -/
theorem witness_IntegerElementwise :
    ∃ s : State, ∃ core : Nat, ∃ op : Nat, ∃ f : VOps, ∃ i : Instr, ∃ g : BitVec 32 → BitVec 32 → BitVec 32, let b := s.blk; ((i, op, g) ∈ ([(.iadd core f, 0, fun a c => a + c), (.isub core f, 1, fun a c => a - c), (.imul core f, 2, fun a c => a * c), (.imax core f, 3, fun a c => if a.toInt < c.toInt then c else a), (.imin core f, 4, fun a c => if a.toInt < c.toInt then a else c), (.iand core f, 5, fun a c => a &&& c), (.ior core f, 6, fun a c => a ||| c), (.ixor core f, 7, fun a c => a ^^^ c), (.ishl core f, 8, fun a c => a <<< (c.toNat % 32)), (.ishr core f, 9, fun a c => a.sshiftRight (c.toNat % 32)), (.imov core f, 10, fun a _ => a)] : List (Instr × Nat × (BitVec 32 → BitVec 32 → BitVec 32)))) ∧ CoreReady b core ⟨2, op, f⟩ :=
  ⟨(st ready), 179, 0, (vops 2 3 32), .iadd 179 (vops 2 3 32), (fun a c => a + c), by exact ⟨List.Mem.head _, by unfold CoreReady; decide +kernel⟩⟩

/-- The hypotheses of Obligations.FloatElementwise are met together. -/
theorem witness_FloatElementwise :
    ∃ s : State, ∃ core : Nat, ∃ cls : Nat, ∃ op : Nat, ∃ f : VOps, ∃ i : Instr, let b := s.blk; ((i, cls, op) ∈ ([(.fadd core f, 1, 0), (.fsub core f, 1, 1), (.fmul core f, 1, 2), (.ffma core f, 1, 3), (.fmax core f, 1, 4), (.fmin core f, 1, 5), (.fabs core f, 1, 6), (.fneg core f, 1, 7), (.fmov core f, 1, 8), (.cvtfi core f, 1, 9), (.cvtif core f, 1, 10), (.rcp core f, 3, 0), (.rsqrt core f, 3, 1), (.sqrt core f, 3, 2), (.exp2 core f, 3, 3), (.log2 core f, 3, 4), (.tanh core f, 3, 5), (.erf core f, 3, 6)] : List (Instr × Nat × Nat))) ∧ CoreReady b core ⟨cls, op, f⟩ :=
  ⟨(st ready), 179, 1, 0, (vops 2 3 32), .fadd 179 (vops 2 3 32), by exact ⟨List.Mem.head _, by unfold CoreReady; decide +kernel⟩⟩

/-- The hypotheses of each clause of Obligations.ReductionsWriteResult are met together. -/
theorem witness_ReductionsWriteResult :
    (∃ s : State, ∃ core : Nat, ∃ op : Nat, ∃ f : VOps, ∃ i : Instr, let b := s.blk; (i, op) ∈ ([(.redSum core f, 0), (.sumsq core f, 1), (.prod core f, 2), (.redMax core f, 3), (.redMin core f, 4), (.argmax core f, 5), (.argmin core f, 6), (.isum core f, 8), (.redImax core f, 9), (.redImin core f, 10)] : List (Instr × Nat)) ∧ CoreReady b core ⟨4, op, f⟩ ∧ bits f.mod 0 3 = 0) ∧
    (∃ xs : List (Option (BitVec 32)), xs.length ≤ 128 ∧ xs.any Option.isSome = true) :=
  ⟨⟨(st ready), 179, 0, (vops 2 32 32), .redSum 179 (vops 2 32 32), by exact ⟨List.Mem.head _, by unfold CoreReady; decide +kernel, by decide +kernel⟩⟩,
   ⟨(List.replicate 127 none ++ [some 5]), by decide +kernel⟩⟩

/-- The hypotheses of Obligations.PermutationsMove are met together. -/
theorem witness_PermutationsMove :
    ∃ s : State, ∃ core : Nat, ∃ op : Nat, ∃ f : VOps, ∃ i : Instr, let b := s.blk; (i, op) ∈ ([(.lperm core f, 0), (.rperm core f, 1), (.lbcast core f, 2), (.rbcast core f, 3), (.lrot core f, 4)] : List (Instr × Nat)) ∧ CoreReady b core ⟨5, op, f⟩ :=
  ⟨(st ready), 179, 0, (vops 2 3 32), .lperm 179 (vops 2 3 32), by exact ⟨List.Mem.head _, by unfold CoreReady; decide +kernel⟩⟩

/-- The hypotheses of Obligations.PredicatesSet are met together. -/
theorem witness_PredicatesSet :
    ∃ s : State, ∃ core : Nat, ∃ op : Nat, ∃ f : VOps, ∃ i : Instr, let b := s.blk; (i, op) ∈ ([(.fcmp core f, 0), (.icmp core f, 1), (.pand core f, 2), (.por core f, 3), (.pxor core f, 4), (.pnot core f, 5), (.ptri core f, 6), (.drop core f, 7)] : List (Instr × Nat)) ∧ CoreReady b core ⟨6, op, f⟩ :=
  ⟨(st ready), 179, 0, (vops 2 3 32 0 7), .fcmp 179 (vops 2 3 32 0 7), by exact ⟨List.Mem.head _, by unfold CoreReady; decide +kernel⟩⟩

/-- The hypotheses of each clause of Obligations.ControlInstructions are met together. -/
theorem witness_ControlInstructions :
    (∃ s : State, ∃ core : Nat, ∃ f : VOps, let b := s.blk; slotGet b.vec.runs core = none ∧ CoreReady b core ⟨0, 0, f⟩) ∧
    (∃ s : State, ∃ core : Nat, ∃ f : VOps, let b := s.blk; slotGet b.vec.runs core = none ∧ CoreReady b core ⟨0, 1, f⟩) ∧
    (∃ s : State, ∃ core : Nat, ∃ f : VOps, let b := s.blk; slotGet b.vec.runs core = none ∧ CoreReady b core ⟨0, 2, f⟩) ∧
    (∃ s : State, ∃ core : Nat, ∃ f : VOps, let b := s.blk; slotGet b.vec.runs core = none ∧ CoreReady b core ⟨0, 3, f⟩) ∧
    (∃ s : State, ∃ core : Nat, ∃ f : VOps, let b := s.blk; let bk := bankNo core (bits f.mod 0 2) (bits f.mod 2 1); slotGet b.vec.runs core = none ∧ CoreReady b core ⟨0, 4, f⟩ ∧ b.cores.bankState bk 0 = 2 ∧ b.cores.bankState bk 1 = 2) :=
  ⟨⟨(st ready), 179, (vops 32 32 32 0), by unfold CoreReady; decide +kernel⟩,
   ⟨(st ready), 179, (vops 32 32 32 0), by unfold CoreReady; decide +kernel⟩,
   ⟨(st ready), 179, (vops 32 32 32 128), by unfold CoreReady; decide +kernel⟩,
   ⟨(st ready), 179, (vops 32 32 32 16), by unfold CoreReady; decide +kernel⟩,
   ⟨(st { ready with cores := { ready.cores with banks := [(2 * bankNo 179 3 1, 2), (2 * bankNo 179 3 1 + 1, 2)] } }), 179, (vops 32 32 32 7), by unfold CoreReady; decide +kernel⟩⟩

/-- The hypotheses of each clause of Obligations.LoadStoreMove are met together. -/
theorem witness_LoadStoreMove :
    (∃ s : State, ∃ core : Nat, ∃ f : VOps, ∃ fmt : Fmt, let b := s.blk; let x := b.vctx core; let rc := b.vrec x (bits f.mod 0 3); let n (l : Nat) := 128 * bits f.mod 3 8 + l; Fmt.ofCode rc.fmt = some fmt ∧ vScaled fmt = 0 ∧ fmt ≠ .ext16 ∧ fmt ≠ .acc32 ∧ CoreReady b core ⟨7, 0, f⟩ ∧ fmt.bits ≠ 4 ∧ ((∀ r l, r < 16 → l < 128 → b.vactive x f r l = true → rc.addr x.i r (n l) fmt + ebytes fmt ≤ coreBuf))) ∧
    (∃ s : State, ∃ core : Nat, ∃ f : VOps, ∃ fmt : Fmt, let b := s.blk; let x := b.vctx core; let rc := b.vrec x (bits f.mod 0 3); let ps := b.vstPlain x ⟨7, 1, f⟩ rc fmt (bits f.mod 11 2) (bits f.mod 3 8); Fmt.ofCode rc.fmt = some fmt ∧ vScaled fmt = 0 ∧ fmt ≠ .ext16 ∧ fmt ≠ .acc32 ∧ CoreReady b core ⟨7, 1, f⟩ ∧ fmt = .bf16 ∧ (ps.all (fun p => decide (p.addr + 2 ≤ coreBuf)) = true)) :=
  ⟨⟨(st { ready with cores := { ready.cores with cb := [(2, 64)] } }), 0, (vops 32 32 32), .bf16, by exact ⟨by decide +kernel, by decide, by decide, by decide, by unfold CoreReady; decide +kernel, by decide, fun r l hr hl _ => load_fits r hr l hl⟩⟩,
   ⟨(st { ready with cores := { ready.cores with cb := [(2, 64)] } }), 0, (vops 2 32 32 0 0), .bf16, by unfold CoreReady; decide +kernel⟩⟩

/-- The hypotheses of each clause of Obligations.ArrayDescriptorsRun are met together. -/
theorem witness_ArrayDescriptorsRun :
    (∃ s : State, ∃ cl : Nat, ∃ q : Nat, ∃ f : Flight, let b := s.blk; let st := ArrDesc.check f.raw (b.ectxOf f).part (b.rn ⟨.IDENT_FEATURE_EFF, 0, 0⟩) (b.splitOthers f); cl < 36 ∧ q < 16 ∧ b.engTake cl q 0 4 0 = some f ∧ st = .ok) ∧
    (∃ s : State, ∃ cl : Nat, ∃ q : Nat, ∃ f : Flight, let b := s.blk; let st := ArrDesc.check f.raw (b.ectxOf f).part (b.rn ⟨.IDENT_FEATURE_EFF, 0, 0⟩) (b.splitOthers f); cl < 36 ∧ q < 16 ∧ b.engTake cl q 0 4 0 = some f ∧ st ≠ .ok) ∧
    (∃ s : State, ∃ cl : Nat, ∃ q : Nat, ∃ f : Flight, let b := s.blk; let st := ArrDesc.check f.raw (b.ectxOf f).part (b.rn ⟨.IDENT_FEATURE_EFF, 0, 0⟩) (b.splitOthers f); cl < 36 ∧ q < 16 ∧ b.engTake cl q 0 4 1 = some f ∧ st ≠ .ok) ∧
    (∃ s : State, ∃ cl : Nat, ∃ q : Nat, ∃ f : Flight, let b := s.blk; let core := (b.coreOf f).1; let d := ArrDesc.parse f.raw; let st := ArrDesc.check f.raw (b.ectxOf f).part (b.rn ⟨.IDENT_FEATURE_EFF, 0, 0⟩) (b.splitOthers f); cl < 36 ∧ q < 16 ∧ b.engTake cl q 0 4 1 = some f ∧ st = .ok ∧ b.arrReady core d = true) ∧
    (∃ s : State, ∃ cl : Nat, ∃ q : Nat, let b := s.blk; cl < 36 ∧ q < 16 ∧ b.engTake cl q 0 4 1 = none) ∧
    (∃ s : State, ∃ cl : Nat, ∃ q : Nat, ∃ f : Flight, let b := s.blk; let st := ArrDesc.check f.raw (b.ectxOf f).part (b.rn ⟨.IDENT_FEATURE_EFF, 0, 0⟩) (b.splitOthers f); cl < 36 ∧ q < 16 ∧ b.engTake cl q 0 4 2 = some f ∧ st ≠ .ok) ∧
    (∃ s : State, ∃ cl : Nat, ∃ q : Nat, ∃ f : Flight, let b := s.blk; let core := (b.coreOf f).1; let d := ArrDesc.parse f.raw; let st := ArrDesc.check f.raw (b.ectxOf f).part (b.rn ⟨.IDENT_FEATURE_EFF, 0, 0⟩) (b.splitOthers f); cl < 36 ∧ q < 16 ∧ b.engTake cl q 0 4 2 = some f ∧ st = .ok ∧ b.arrReady core d = false) ∧
    (∃ s : State, ∃ cl : Nat, ∃ q : Nat, ∃ ph : ArrPhys, ∃ f : Flight, let b := s.blk; let core := (b.coreOf f).1; let d := ArrDesc.parse f.raw; let st := ArrDesc.check f.raw (b.ectxOf f).part (b.rn ⟨.IDENT_FEATURE_EFF, 0, 0⟩) (b.splitOthers f); cl < 36 ∧ q < 16 ∧ b.engTake cl q 0 4 2 = some f ∧ st = .ok ∧ b.arrReady core d = true ∧ ph.fault = none) ∧
    (∃ s : State, ∃ cl : Nat, ∃ q : Nat, ∃ ph : ArrPhys, ∃ f : Flight, let b := s.blk; let core := (b.coreOf f).1; let d := ArrDesc.parse f.raw; let st := ArrDesc.check f.raw (b.ectxOf f).part (b.rn ⟨.IDENT_FEATURE_EFF, 0, 0⟩) (b.splitOthers f); ∃ x, cl < 36 ∧ q < 16 ∧ b.engTake cl q 0 4 2 = some f ∧ st = .ok ∧ b.arrReady core d = true ∧ ph.fault = some x ∧ x.rng = false ∧ x.array < 4 ∧ d.split = false) :=
  ⟨⟨(engine 0 0), 0, 0, (flight 0), by decide +kernel⟩,
   ⟨(engine 4 (2 ^ 31)), 0, 0, (flight (2 ^ 31)), by decide +kernel⟩,
   ⟨(engine 0 1), 0, 0, (flight 1), by decide +kernel⟩,
   ⟨(engine 0 (1 + 2 ^ 8 + 2 ^ 16 + 2 ^ 20 + 2 ^ 32 + 2 ^ 40) ({ ready with cores := { ready.cores with samples := [(0, closed)] } })), 0, 0, (flight (1 + 2 ^ 8 + 2 ^ 16 + 2 ^ 20 + 2 ^ 32 + 2 ^ 40)), by decide +kernel⟩,
   ⟨(st ready), 35, 15, by decide +kernel⟩,
   ⟨(engine 0 2), 0, 0, (flight 2), by decide +kernel⟩,
   ⟨(engine 0 (2 + 2 ^ 8) { ready with cores := { ready.cores with banks := [(0, 2), (1, 2)] } }), 0, 0, (flight (2 + 2 ^ 8)), by decide +kernel⟩,
   ⟨(engine 0 (2 + 2 ^ 8)), 0, 0, { fault := none, ce := 0, upsets := [], dry := 0, sWait := 0, dWait := 0, bubble := 0, hold := 0 }, (flight (2 + 2 ^ 8)), by decide +kernel⟩,
   ⟨(engine 0 (2 + 2 ^ 8)), 0, 0, { fault := some { array := 0, check := 0 }, ce := 0, upsets := [], dry := 0, sWait := 0, dWait := 0, bubble := 0, hold := 0 }, (flight (2 + 2 ^ 8)), { array := 0, check := 0 }, by decide +kernel⟩⟩

/-- The hypotheses of each clause of Obligations.MatmulFrame are met together. -/
theorem witness_MatmulFrame :
    (∃ core : Nat, ∃ d : ArrDesc, ∃ ph : ArrPhys, ∃ k, ph.upsets = [] ∧ d.mRows ≤ 128 ∧ d.half ≤ 1 ∧ ((∀ p ∈ d.named, k / 2 ^ 14 ≠ bankNo core p.1 d.bank))) ∧
    (∃ cl : Nat, ∃ d : ArrDesc, ∃ ph : ArrPhys, ∃ k, ph.upsets = [] ∧ d.mRows ≤ 128 ∧ d.half ≤ 1 ∧ ((k / 2 ^ 27 ≠ cl ∨ k % 2 ^ 27 < 0x7A00000))) ∧
    (∃ s : State, ∃ cl : Nat, ∃ q : Nat, ∃ ph : ArrPhys, ∃ f : Flight, let b := s.blk; cl < 36 ∧ q < 16 ∧ ph.upsets = [] ∧ ph.fault = none ∧ ArrDesc.check f.raw (b.ectxOf f).part (b.rn ⟨.IDENT_FEATURE_EFF, 0, 0⟩) (b.splitOthers f) = .ok ∧ b.engTake cl q 0 4 0 = some f) ∧
    (∃ s : State, ∃ cl : Nat, ∃ q : Nat, ∃ ph : ArrPhys, ∃ f : Flight, let b := s.blk; let core := (b.coreOf f).1; let d := ArrDesc.parse f.raw; cl < 36 ∧ q < 16 ∧ ph.upsets = [] ∧ ph.fault = none ∧ ArrDesc.check f.raw (b.ectxOf f).part (b.rn ⟨.IDENT_FEATURE_EFF, 0, 0⟩) (b.splitOthers f) = .ok ∧ b.engTake cl q 0 4 1 = some f ∧ b.arrReady core d = true) ∧
    (∃ s : State, ∃ cl : Nat, ∃ q : Nat, ∃ ph : ArrPhys, ∃ f : Flight, let b := s.blk; let core := (b.coreOf f).1; let d := ArrDesc.parse f.raw; cl < 36 ∧ q < 16 ∧ ph.upsets = [] ∧ ph.fault = none ∧ ArrDesc.check f.raw (b.ectxOf f).part (b.rn ⟨.IDENT_FEATURE_EFF, 0, 0⟩) (b.splitOthers f) = .ok ∧ b.engTake cl q 0 4 2 = some f ∧ b.arrReady core d = true) :=
  ⟨⟨0, (ArrDesc.parse (1 + 2 ^ 8 + 2 ^ 16 + 2 ^ 20 + 2 ^ 32 + 2 ^ 40)), { fault := none, ce := 0, upsets := [], dry := 0, sWait := 0, dWait := 0, bubble := 0, hold := 0 }, 2 ^ 14, by decide +kernel⟩,
   ⟨0, (ArrDesc.parse (1 + 2 ^ 8 + 2 ^ 16 + 2 ^ 20 + 2 ^ 32 + 2 ^ 40)), { fault := none, ce := 0, upsets := [], dry := 0, sWait := 0, dWait := 0, bubble := 0, hold := 0 }, 2 ^ 27, by decide +kernel⟩,
   ⟨(engine 0 0), 0, 0, { fault := none, ce := 0, upsets := [], dry := 0, sWait := 0, dWait := 0, bubble := 0, hold := 0 }, (flight 0), by decide +kernel⟩,
   ⟨(engine 0 (1 + 2 ^ 8 + 2 ^ 16 + 2 ^ 20 + 2 ^ 32 + 2 ^ 40)), 0, 0, { fault := none, ce := 0, upsets := [], dry := 0, sWait := 0, dWait := 0, bubble := 0, hold := 0 }, (flight (1 + 2 ^ 8 + 2 ^ 16 + 2 ^ 20 + 2 ^ 32 + 2 ^ 40)), by decide +kernel⟩,
   ⟨(engine 0 (2 + 2 ^ 8)), 0, 0, { fault := none, ce := 0, upsets := [], dry := 0, sWait := 0, dWait := 0, bubble := 0, hold := 0 }, (flight (2 + 2 ^ 8)), by decide +kernel⟩⟩

/-- The hypotheses of Obligations.IntegerProductsExact are met together. -/
theorem witness_IntegerProductsExact :
    ∃ w : BitVec 32, ∃ bands : List (List Int), ((∀ x ∈ bands, x.length = 32)) ∧ ((∀ n, n ≤ bands.length → -2147483648 ≤ w.toInt + (bands.take n).flatten.sum ∧ w.toInt + (bands.take n).flatten.sum ≤ 2147483647)) :=
  ⟨5, [List.replicate 32 (-3)], by exact ⟨by decide, sums_fit⟩⟩

/-- The hypotheses of each clause of Obligations.VectorDescriptorsRun are met together. -/
theorem witness_VectorDescriptorsRun :
    (∃ s : State, ∃ cl : Nat, ∃ q : Nat, ∃ f : Flight, let b := s.blk; let c := (b.coreOf f).1; let chk := vecCheck f.raw (b.ectxOf f).part (b.ectxOf f).cobbler; let free := b.rf ⟨.SEQ_VEC_STATE, c, 0⟩ Fld.SEQ_VEC_STATE_FENCED = 0; cl < 36 ∧ q < 16 ∧ b.engTake cl q 8 12 0 = some f ∧ free ∧ f.pending = 0 ∧ chk = .ok) ∧
    (∃ s : State, ∃ cl : Nat, ∃ q : Nat, ∃ f : Flight, let b := s.blk; let c := (b.coreOf f).1; let chk := vecCheck f.raw (b.ectxOf f).part (b.ectxOf f).cobbler; let free := b.rf ⟨.SEQ_VEC_STATE, c, 0⟩ Fld.SEQ_VEC_STATE_FENCED = 0; cl < 36 ∧ q < 16 ∧ b.engTake cl q 8 12 0 = some f ∧ free ∧ f.pending = 0 ∧ chk ≠ .ok) ∧
    (∃ s : State, ∃ cl : Nat, ∃ q : Nat, let b := s.blk; cl < 36 ∧ q < 16 ∧ b.engTake cl q 8 12 3 = none) ∧
    (∃ s : State, ∃ cl : Nat, ∃ q : Nat, ∃ f : Flight, let b := s.blk; let c := (b.coreOf f).1; let free := b.rf ⟨.SEQ_VEC_STATE, c, 0⟩ Fld.SEQ_VEC_STATE_FENCED = 0; cl < 36 ∧ q < 16 ∧ b.engTake cl q 8 12 0 = some f ∧ ¬ free) ∧
    (∃ s : State, ∃ cl : Nat, ∃ q : Nat, ∃ f : Flight, let b := s.blk; let c := (b.coreOf f).1; let chk := vecCheck f.raw (b.ectxOf f).part (b.ectxOf f).cobbler; let free := b.rf ⟨.SEQ_VEC_STATE, c, 0⟩ Fld.SEQ_VEC_STATE_FENCED = 0; cl < 36 ∧ q < 16 ∧ b.engTake cl q 8 12 3 = some f ∧ free ∧ f.pending = 0 ∧ chk = .ok ∧ slotGet b.vec.runs c = none) ∧
    (∃ s : State, ∃ cl : Nat, ∃ q : Nat, ∃ core : Nat, ∃ r : Vrun, let b := s.blk; let w := b.vFetch core r; cl < 36 ∧ q < 16 ∧ core < 180 ∧ slotGet b.vec.runs core = some r ∧ r.result = none ∧ r.waiting = true ∧ ((w.f.accs (vSources w.cls w.op)).any (fun x => (if r.split then [r.half] else [0, 1]).any (fun h => decide (b.cores.bankState (bankNo core (accArr x) (accBank x)) h = 0))) = true)) :=
  ⟨⟨(engine 8 (2 ^ 64)), 0, 0, (flight (2 ^ 64)), by decide +kernel⟩,
   ⟨(engine 12 (2 ^ 31)), 0, 0, (flight (2 ^ 31)), by decide +kernel⟩,
   ⟨(st ready), 35, 15, by decide +kernel⟩,
   ⟨(engine 8 0 (ready.wf ⟨.SEQ_VEC_STATE, 0, 0⟩ Fld.SEQ_VEC_STATE_FENCED 1)), 0, 0, (flight 0), by decide +kernel⟩,
   ⟨(engine 8 (3 + 2 ^ 64)), 0, 0, (flight (3 + 2 ^ 64)), by decide +kernel⟩,
   ⟨(st { ready with vec := { ready.vec with runs := [(0, vrun)] }, cores := { ready.cores with cb := Mem.cells 0 (leBytes 8 (1 + 8 * 2 ^ 4 + 2 ^ 10 + 0x40 * 2 ^ 15 + 0x20 * 2 ^ 22 + 0x20 * 2 ^ 29)) } }), 0, 0, 0, vrun, by decide +kernel⟩⟩

/-- The hypotheses of each clause of Obligations.EngineDescriptorsRun are met together. -/
theorem witness_EngineDescriptorsRun :
    (∃ s : State, ∃ cl : Nat, ∃ q : Nat, ∃ ph : EngPhys, ∃ f : Flight, ∃ i : Instr, ∃ lo : Nat, ∃ hi : Nat, ∃ op : Nat, ∃ run : Blk → ECtx → BitVec 512 → EPhys → EOut, let b := s.blk; cl < 36 ∧ q < 16 ∧ ((i, lo, hi, op, run) ∈ ([(.save cl q ph, 0x11, 0x11, 1, stashOp), (.load cl q ph, 0x11, 0x11, 2, stashOp), (.free cl q ph, 0x11, 0x11, 3, stashOp), (.gather cl q ph, 0x12, 0x12, 1, gatherRun), (.scatter cl q ph, 0x12, 0x12, 2, gatherRun), (.sort cl q ph, 0x12, 0x12, 3, gatherRun), (.param cl q ph, 0x12, 0x12, 4, gatherRun), (.amax cl q ph, 0x13, 0x13, 2, layoutRun), (.wcopy cl q ph, 0x13, 0x13, 4, layoutRun)] : List (Instr × Nat × Nat × Nat × (Blk → ECtx → BitVec 512 → EPhys → EOut)))) ∧ b.engTake cl q lo hi op = some f) ∧
    (∃ s : State, ∃ cl : Nat, ∃ q : Nat, ∃ ph : EngPhys, ∃ i : Instr, ∃ lo : Nat, ∃ hi : Nat, ∃ op : Nat, ∃ run : Blk → ECtx → BitVec 512 → EPhys → EOut, let b := s.blk; cl < 36 ∧ q < 16 ∧ ((i, lo, hi, op, run) ∈ ([(.save cl q ph, 0x11, 0x11, 1, stashOp), (.load cl q ph, 0x11, 0x11, 2, stashOp), (.free cl q ph, 0x11, 0x11, 3, stashOp), (.gather cl q ph, 0x12, 0x12, 1, gatherRun), (.scatter cl q ph, 0x12, 0x12, 2, gatherRun), (.sort cl q ph, 0x12, 0x12, 3, gatherRun), (.param cl q ph, 0x12, 0x12, 4, gatherRun), (.amax cl q ph, 0x13, 0x13, 2, layoutRun), (.wcopy cl q ph, 0x13, 0x13, 4, layoutRun)] : List (Instr × Nat × Nat × Nat × (Blk → ECtx → BitVec 512 → EPhys → EOut)))) ∧ b.engTake cl q lo hi op = none) ∧
    (∃ s : State, ∃ cl : Nat, ∃ q : Nat, ∃ f : Flight, let b := s.blk; cl < 36 ∧ q < 16 ∧ b.engTake cl q 0x10 0x17 0 = some f) ∧
    (∃ s : State, ∃ cl : Nat, ∃ q : Nat, let b := s.blk; cl < 36 ∧ q < 16 ∧ b.engTake cl q 0x10 0x17 0 = none) ∧
    (∃ s : State, ∃ cl : Nat, ∃ q : Nat, ∃ f : Flight, let b := s.blk; let fenced := (∃ d ∈ b.iodsUp, b.rf ⟨.LAC_EPOCH, d, 0⟩ Fld.LAC_EPOCH_FENCING = 1) ∧ b.drained = true; cl < 36 ∧ q < 16 ∧ fenced ∧ b.engTake cl q 0x13 0x13 3 = some f) ∧
    (∃ s : State, ∃ cl : Nat, ∃ q : Nat, let b := s.blk; let fenced := (∃ d ∈ b.iodsUp, b.rf ⟨.LAC_EPOCH, d, 0⟩ Fld.LAC_EPOCH_FENCING = 1) ∧ b.drained = true; cl < 36 ∧ q < 16 ∧ ¬ fenced) ∧
    (∃ s : State, ∃ cl : Nat, ∃ q : Nat, ∃ ph : EngPhys, ∃ f : Flight, let b := s.blk; let scan := finScan (b.insErrs ph) (b.ectxOf f) f.raw ph.fault; cl < 36 ∧ q < 16 ∧ b.engTake cl q 0x10 0x10 1 = some f ∧ scan.st.rank = 0) ∧
    (∃ s : State, ∃ cl : Nat, ∃ q : Nat, ∃ ph : EngPhys, ∃ f : Flight, let b := s.blk; let scan := finScan (b.insErrs ph) (b.ectxOf f) f.raw ph.fault; cl < 36 ∧ q < 16 ∧ b.engTake cl q 0x10 0x10 1 = some f ∧ scan.st.rank ≠ 0) ∧
    (∃ s : State, ∃ cl : Nat, ∃ q : Nat, ∃ f : Flight, let b := s.blk; cl < 36 ∧ q < 16 ∧ b.engTake cl q 0x10 0x10 2 = some f) ∧
    (∃ s : State, ∃ cl : Nat, ∃ q : Nat, ∃ f : Flight, let b := s.blk; cl < 36 ∧ q < 16 ∧ b.engTake cl q 0x13 0x13 1 = some f) ∧
    (∃ s : State, ∃ cl : Nat, ∃ q : Nat, ∃ mode : Nat, ∃ ph : EngPhys, ∃ f : Flight, ∃ i : Instr, let b := s.blk; cl < 36 ∧ q < 16 ∧ (i, mode) ∈ ([(.dmaCopy cl q ph, 0), (.dmaIn cl q ph, 1), (.dmaOut cl q ph, 2), (.dmaZero cl q ph, 3)] : List (Instr × Nat)) ∧ b.engTake cl q 0x14 0x17 1 = some f ∧ (DmaDesc.parse f.raw).mode = mode) :=
  ⟨⟨(engine 0x11 1), 0, 0, {}, (flight 1), .save 0 0 {}, 0x11, 0x11, 1, stashOp, by exact ⟨by decide, by decide, List.Mem.head _, by decide +kernel⟩⟩,
   ⟨(st ready), 35, 15, {}, .save 35 15 {}, 0x11, 0x11, 1, stashOp, by exact ⟨by decide, by decide, List.Mem.head _, by decide +kernel⟩⟩,
   ⟨(engine 0x17 0), 0, 0, (flight 0), by decide +kernel⟩,
   ⟨(st ready), 35, 15, by decide +kernel⟩,
   ⟨(engine 0x13 3 (ready.wf ⟨.LAC_EPOCH, 4, 0⟩ Fld.LAC_EPOCH_FENCING 1)), 0, 0, (flight 3), by decide +kernel⟩,
   ⟨(st ready), 35, 15, by decide +kernel⟩,
   ⟨(engine 0x10 1), 0, 0, {}, (flight 1), by decide +kernel⟩,
   ⟨scanState, 0, 0, {}, (flight (1 + 2 ^ 96)), by exact ⟨by decide, by decide, by decide +kernel, scan_passes⟩⟩,
   ⟨(engine 0x10 2), 0, 0, (flight 2), by decide +kernel⟩,
   ⟨(engine 0x13 1), 0, 0, (flight 1), by decide +kernel⟩,
   ⟨(engine 0x14 dmaCopy1), 0, 0, 0, {}, (flight dmaCopy1), .dmaCopy 0 0 {}, by exact ⟨by decide, by decide, List.Mem.head _, by decide +kernel, copy_mode⟩⟩⟩

/-- The hypotheses of each clause of Obligations.DescriptorsThatMoveNothing are met together. -/
theorem witness_DescriptorsThatMoveNothing :
    (∃ x : ECtx, ∃ raw : BitVec 512, ∃ run, ∃ fields, dsc raw 0 6 3 ≠ x.part ∧ ((run, fields) ∈ ([(dmaRun, dmaFields), (finScan, finFields), (finApply, finFields), (stashRun, stashFields), (gatherRun, gthFields), (layoutRun, layFields)] : List ((Blk → ECtx → BitVec 512 → EPhys → EOut) × List (Nat × Nat × Nat)))) ∧ reservedZero raw ([(0, 0, 9), (0, 16, 16), (1, 0, 8)] ++ fields) = true) ∧
    (∃ b : Blk, ∃ x : ECtx, ∃ d : StashDesc, slotGet b.stash.ents (4096 * x.cl + d.entry) = none) ∧
    (∃ d : StashDesc, ∃ e : StashDesc, d.entry = e.entry) ∧
    (∃ s : State, ∃ cl : Nat, ∃ q : Nat, ∃ p : Nat, ∃ e : Entry, let b := s.blk; cl < 36 ∧ q < 16 ∧ b.queueLive cl q = some p ∧ b.headEntry cl q = some e ∧ e.legal = true ∧ e.kind = 0 ∧ (b.stepOf p).dropped e.mbatch = true ∧ b.ctr cl (ctrOf (b.rf (qReg cl q) Fld.SEQ_Q_BIND) e.raw) ≠ 0) :=
  ⟨⟨ectx, (2 ^ 6), dmaRun, dmaFields, by exact ⟨by decide +kernel, List.Mem.head _, by decide +kernel⟩⟩,
   ⟨ready, ectx, (StashDesc.parse 0), by decide +kernel⟩,
   ⟨(StashDesc.parse 0), (StashDesc.parse 0), by decide +kernel⟩,
   ⟨droppedQueue, 0, 0, 0, ((droppedQueue.blk.headEntry 0 0).getD (Entry.parse 0 [])), by decide +kernel⟩⟩

/-- The hypotheses of each clause of Obligations.BlocksAreCheckedAndMoved are met together. -/
theorem witness_BlocksAreCheckedAndMoved :
    (∃ x : Block, let a := Aglet.parse x.agl; let crc := agletCrcOk x.agl && decide ((crc32c x.pay).toNat = a.pcrc); crc = false) ∧
    (∃ x : Block, let a := Aglet.parse x.agl; let crc := agletCrcOk x.agl && decide ((crc32c x.pay).toNat = a.pcrc); crc = true ∧ a.poison = true) ∧
    (∃ x : Block, ∃ e : Expect, let a := Aglet.parse x.agl; let crc := agletCrcOk x.agl && decide ((crc32c x.pay).toNat = a.pcrc); let ident := decide (a.tag = e.tag) && (decide (e.format = 0) || decide (a.format = e.format)) && (match e.epoch with | some v => decide (a.epoch = v) | none => true); crc = true ∧ a.poison = false ∧ ident = false) ∧
    (∃ x : Block, ∃ e : Expect, let a := Aglet.parse x.agl; let crc := agletCrcOk x.agl && decide ((crc32c x.pay).toNat = a.pcrc); let ident := decide (a.tag = e.tag) && (decide (e.format = 0) || decide (a.format = e.format)) && (match e.epoch with | some v => decide (a.epoch = v) | none => true); ∃ v, crc = true ∧ a.poison = false ∧ ident = true ∧ e.version = some v ∧ ((a.version ≠ v ∨ a.stale = true))) ∧
    (∃ x : Block, ∃ e : Expect, let a := Aglet.parse x.agl; let crc := agletCrcOk x.agl && decide ((crc32c x.pay).toNat = a.pcrc); let ident := decide (a.tag = e.tag) && (decide (e.format = 0) || decide (a.format = e.format)) && (match e.epoch with | some v => decide (a.epoch = v) | none => true); crc = true ∧ a.poison = false ∧ ident = true ∧ e.version = none) ∧
    (∃ x : Block, ∃ e : Expect, let a := Aglet.parse x.agl; let crc := agletCrcOk x.agl && decide ((crc32c x.pay).toNat = a.pcrc); let ident := decide (a.tag = e.tag) && (decide (e.format = 0) || decide (a.format = e.format)) && (match e.epoch with | some v => decide (a.epoch = v) | none => true); ∃ v, crc = true ∧ a.poison = false ∧ ident = true ∧ e.version = some v ∧ a.version = v ∧ a.stale = false) ∧
    (∃ b : Blk, ∃ x : ECtx, ∃ raw : BitVec 512, ∃ a : Nat, let d := DmaDesc.parse raw; headCheck x raw dmaFields = none ∧ dsc raw 0 0 6 = 1 ∧ d.blocks = 1 ∧ d.sStride = 0 ∧ d.dStride = 0 ∧ locOf x.cl d.dst = some (.hbm (4096 * a)) ∧ b.locOk x (.hbm (4096 * a)) 4096 = true ∧ b.pkg.sku.seat = false ∧ d.mode = 3) ∧
    (∃ b : Blk, ∃ x : ECtx, ∃ raw : BitVec 512, ∃ a : Nat, ∃ c : Nat, let d := DmaDesc.parse raw; let ex : Expect := { tag := d.tag, format := d.format, epoch := some d.epoch, version := if d.chkVer then some d.version else none }; headCheck x raw dmaFields = none ∧ dsc raw 0 0 6 = 1 ∧ d.blocks = 1 ∧ d.sStride = 0 ∧ d.dStride = 0 ∧ locOf x.cl d.dst = some (.hbm (4096 * a)) ∧ b.locOk x (.hbm (4096 * a)) 4096 = true ∧ b.pkg.sku.seat = false ∧ d.mode = 0 ∧ locOf x.cl d.src = some (.hbm (4096 * c)) ∧ b.locOk x (.hbm (4096 * c)) 4096 = true ∧ (b.hbmGet c).isSome = true ∧ ((b.locBlock (.hbm (4096 * c))).check ex).1 = .ok) :=
  ⟨⟨{ pay := [], agl := 0 }, by decide +kernel⟩,
   ⟨(blkOf 1), by decide +kernel⟩,
   ⟨(blkOf 0), { tag := 2, format := 3, epoch := none, version := none }, by decide +kernel⟩,
   ⟨(blkOf 2), { tag := 1, format := 3, epoch := some 4, version := some 2 }, 2, by decide +kernel⟩,
   ⟨(blkOf 0), { tag := 1, format := 3, epoch := some 4, version := none }, by decide +kernel⟩,
   ⟨(blkOf 0), { tag := 1, format := 3, epoch := some 4, version := some 2 }, 2, by decide +kernel⟩,
   ⟨ready, { ectx with cobbler := true }, dmaZero1, 0, by decide +kernel⟩,
   ⟨ready, { ectx with cobbler := true }, dmaCopy1, 0, 1, by exact ⟨by decide +kernel, by decide +kernel, by decide +kernel, by decide +kernel, by decide +kernel, by decide +kernel, by decide +kernel, rfl, by decide +kernel, by decide +kernel, by decide +kernel, by decide +kernel, copy_block_ok⟩⟩⟩

/-- The hypotheses of each clause of Obligations.QueueEntriesIssue are met together. -/
theorem witness_QueueEntriesIssue :
    (∃ s : State, ∃ cl : Nat, ∃ q : Nat, ∃ p : Nat, ∃ e : Entry, let b := s.blk; let engine := b.rf (qReg cl q) Fld.SEQ_Q_BIND; cl < 36 ∧ q < 16 ∧ b.queueLive cl q = some p ∧ b.headEntry cl q = some e ∧ e.legal = true ∧ e.kind = 0 ∧ b.passes p cl q e = false ∧ b.entryOpen p engine e = true ∧ b.waitOk cl e = true ∧ b.boardRoom cl q = true ∧ b.unitUp (codeUnit cl engine) = true) ∧
    (∃ s : State, ∃ cl : Nat, ∃ q : Nat, ∃ p : Nat, ∃ e : Entry, let b := s.blk; let engine := b.rf (qReg cl q) Fld.SEQ_Q_BIND; cl < 36 ∧ q < 16 ∧ b.queueLive cl q = some p ∧ b.headEntry cl q = some e ∧ e.legal = true ∧ e.kind = 0 ∧ b.passes p cl q e = false ∧ ((b.entryOpen p engine e = false ∨ b.waitOk cl e = false ∨ b.boardRoom cl q = false))) ∧
    (∃ s : State, ∃ cl : Nat, ∃ q : Nat, ∃ p : Nat, ∃ e : Entry, let b := s.blk; cl < 36 ∧ q < 16 ∧ b.queueLive cl q = some p ∧ b.headEntry cl q = some e ∧ e.legal = true ∧ e.kind = 0 ∧ b.passes p cl q e = true) ∧
    (∃ s : State, ∃ cl : Nat, ∃ q : Nat, ∃ p : Nat, ∃ e : Entry, let b := s.blk; cl < 36 ∧ q < 16 ∧ b.queueLive cl q = some p ∧ b.headEntry cl q = some e ∧ e.legal = true ∧ e.kind = 1 ∧ b.passes p cl q e = false ∧ b.phaseOpen p e.phase = true ∧ b.waitOk cl e = true) ∧
    (∃ s : State, ∃ cl : Nat, ∃ q : Nat, ∃ p : Nat, ∃ e : Entry, let b := s.blk; cl < 36 ∧ q < 16 ∧ b.queueLive cl q = some p ∧ b.headEntry cl q = some e ∧ e.legal = true ∧ e.kind = 1 ∧ b.passes p cl q e = true) ∧
    (∃ s : State, ∃ cl : Nat, ∃ q : Nat, ∃ p : Nat, ∃ e : Entry, let b := s.blk; cl < 36 ∧ q < 16 ∧ b.queueLive cl q = some p ∧ b.headEntry cl q = some e ∧ e.legal = true ∧ e.kind = 1 ∧ b.passes p cl q e = false ∧ b.waitOk cl e = false) ∧
    (∃ s : State, ∃ cl : Nat, ∃ q : Nat, ∃ mine : BitVec 512, let b := s.blk; let engine := b.rf (qReg cl q) Fld.SEQ_Q_BIND; cl < 36 ∧ q < 16 ∧ b.up (clDie cl) = true ∧ b.boardRoom cl q = true ∧ b.unitUp (codeUnit cl engine) = true ∧ b.ownOpen cl engine mine = true) ∧
    (∃ s : State, ∃ cl : Nat, ∃ q : Nat, ∃ mine : BitVec 512, let b := s.blk; let engine := b.rf (qReg cl q) Fld.SEQ_Q_BIND; cl < 36 ∧ q < 16 ∧ b.ownOpen cl engine mine = false) ∧
    (∃ s : State, ∃ cl : Nat, ∃ n : Nat, ∃ res : Nat, ∃ f : Flight, let b := s.blk; cl < 36 ∧ (b.flightsOf cl)[n]? = some f ∧ f.result = some res ∧ finStopped (b.bindOf f) f.raw (res % 256) = false ∧ ((res % 256 < 0x20 ∨ res % 256 = 0x32))) ∧
    (∃ s : State, ∃ cl : Nat, ∃ n : Nat, ∃ f : Flight, let b := s.blk; let k := ctrOf (b.bindOf f) f.raw; cl < 36 ∧ (b.flightsOf cl)[n]? = some f ∧ f.result = some 0 ∧ f.parent = 0 ∧ f.record = false ∧ f.late = false ∧ ((∀ g ∈ b.seq.flights, g.seg = [])) ∧ k < 255 ∧ b.ctr cl k ≠ 0) ∧
    (∃ s : State, ∃ cl : Nat, ∃ n : Nat, ∃ f : Flight, let b := s.blk; cl < 36 ∧ (b.flightsOf cl)[n]? = some f ∧ f.result = none) :=
  ⟨⟨(queueOf (at_ 1) 0), 0, 0, 0, (head0 (queueOf (at_ 1) 0)), by decide +kernel⟩,
   ⟨(queueOf (at_ 2) 0), 0, 0, 0, (head0 (queueOf (at_ 2) 0)), by decide +kernel⟩,
   ⟨droppedQueue, 0, 0, 0, (head0 droppedQueue), by decide +kernel⟩,
   ⟨(queueOf (at_ 1) 1), 0, 0, 0, (head0 (queueOf (at_ 1) 1)), by decide +kernel⟩,
   ⟨(st { droppedQueue.blk with ins := { droppedQueue.blk.ins with data := Mem.cells 0 [1] } }), 0, 0, 0, (head0 (st { droppedQueue.blk with ins := { droppedQueue.blk.ins with data := Mem.cells 0 [1] } })), by decide +kernel⟩,
   ⟨(queueOf (at_ 1) 5 1), 0, 0, 0, (head0 (queueOf (at_ 1) 5 1)), by decide +kernel⟩,
   ⟨(queueOf (at_ 1) 0), 0, 0, 0, by decide +kernel⟩,
   ⟨(st ((ready.wf (qReg 0 0) Fld.SEQ_Q_BIND 0x10))), 0, 0, 2, by decide +kernel⟩,
   ⟨(engineOf 4 ({ flight 0 with result := some 0x1F })), 0, 0, 0x1F, { flight 0 with result := some 0x1F }, by decide +kernel⟩,
   ⟨(engineOf 4 ({ flight 0 with result := some 0 }) ((running (at_ 1)).wf (ctrReg 0 0) Fld.SEQ_CTR_VALUE 1)), 0, 0, { flight 0 with result := some 0 }, by decide +kernel⟩,
   ⟨(engine 4 0), 0, 0, (flight 0), by decide +kernel⟩⟩

/-- The hypotheses of each clause of Obligations.ContextsEnd are met together. -/
theorem witness_ContextsEnd :
    (∃ s : State, ∃ cl : Nat, ∃ n : Nat, ∃ done : Option Nat, ∃ f : Flight, let b := s.blk; let code := b.bindOf f; cl < 36 ∧ (b.flightsOf cl)[n]? = some f ∧ (b.stepOf ((b.partOf cl).getD 0xFF)).aborted = true ∧ b.kept f = false ∧ ((f.ran = true ∨ bindKind code < 2 ∨ done = none))) ∧
    (∃ s : State, ∃ cl : Nat, ∃ n : Nat, ∃ f : Flight, let b := s.blk; let code := b.bindOf f; cl < 36 ∧ (b.flightsOf cl)[n]? = some f ∧ (b.stepOf ((b.partOf cl).getD 0xFF)).aborted = true ∧ b.kept f = false ∧ f.ran = false ∧ bindKind code = 2) ∧
    (∃ s : State, ∃ cl : Nat, ∃ n : Nat, ∃ f : Flight, let b := s.blk; cl < 36 ∧ (b.flightsOf cl)[n]? = some f ∧ b.kept f = true) ∧
    (∃ s : State, ∃ f : Flight, let b := s.blk; let code := b.bindOf f; ((code = 0x10 ∧ opOf code f.raw = 2) ∨ (∃ r, f.result = some r ∧ (r % 256 = 0x30 ∨ r % 256 = 0x31)))) ∧
    (∃ s : State, ∃ f : Flight, let b := s.blk; b.begun f = false) ∧
    (∃ s : State, ∃ cl : Nat, ∃ q : Nat, ∃ on : Nat, ∃ k : Nat, ∃ f : Flight, let b := s.blk; cl < 36 ∧ q < 16 ∧ on < 36 ∧ clDie on = clDie cl ∧ b.unitUp (clUnit on 5) = true ∧ (b.seq.flights.find? (fun g => g.cl == cl && g.queue == q && g.skipped) = some f) ∧ (((b.unitTwinned f = true ∧ k = f.errIdx + 1) ∨ (b.unitTwinned f = false ∧ b.unitBlockOk (((b.stoppedAt f).2[2]?).getD none) (b.stoppedAt f).1.tagG 0x01 (b.stoppedAt f).1.ver = true ∧ k = f.errIdx))) ∧ dsc (finFrom f.raw k) 3 0 24 ≠ 0) :=
  ⟨⟨(engine 4 0 (running { Step.idle with aborted := true })), 0, 0, none, (flight 0), by decide +kernel⟩,
   ⟨(engine 0x17 0 (running { Step.idle with aborted := true })), 0, 0, (flight 0), by decide +kernel⟩,
   ⟨(engine 0x10 2 (running { Step.idle with aborted := true })), 0, 0, (flight 2), by decide +kernel⟩,
   ⟨(engine 0x10 2 (running { Step.idle with aborted := true })), (flight 2), by exact Or.inl (by decide +kernel)⟩,
   ⟨(engineOf 4 ({ flight 0 with result := some 0 })), { flight 0 with result := some 0 }, by decide +kernel⟩,
   ⟨reissue, 0, 0, 0, 0, stopped, by exact ⟨by decide, by decide, by decide, by decide, by decide +kernel, by decide +kernel, reissue_gradient, by decide +kernel⟩⟩⟩

/-- The hypotheses of each clause of Obligations.FeedAndAttempts are met together. -/
theorem witness_FeedAndAttempts :
    (∃ s : State, ∃ p : Nat, ∃ o : LongOp, ∃ l : Last, ∃ x : Part, let b := s.blk; let st := b.stepOf p; let prod := b.rn ⟨.DBL_FEED_PROD, 0, p⟩ % 65536; let there := b.pins.linkUp && decide ((prod + 65536 - st.fed % 65536) % 65536 ≠ 0); let take := b.feedTake p o l st.fed (b.sOf p + (st.fed - st.cons)) false; p < 8 ∧ b.part p = some x ∧ b.feedOp p = some o ∧ b.lastOf p = some l ∧ o.entries ≠ 0 ∧ o.st = .running ∧ st.fed < st.cons + 2 ∧ there = true ∧ (take.stepOf p).fed ≠ st.fed) ∧
    (∃ s : State, ∃ p : Nat, ∃ o : LongOp, ∃ l : Last, ∃ x : Part, let b := s.blk; let st := b.stepOf p; let prod := b.rn ⟨.DBL_FEED_PROD, 0, p⟩ % 65536; let there := b.pins.linkUp && decide ((prod + 65536 - st.fed % 65536) % 65536 ≠ 0); p < 8 ∧ b.part p = some x ∧ b.feedOp p = some o ∧ b.lastOf p = some l ∧ o.entries ≠ 0 ∧ o.st = .running ∧ st.fed = st.cons ∧ there = false) ∧
    (∃ s : State, ∃ p : Nat, ∃ o : LongOp, ∃ l : Last, ∃ x : Part, let b := s.blk; let st := b.stepOf p; p < 8 ∧ b.part p = some x ∧ b.feedOp p = some o ∧ b.lastOf p = some l ∧ o.entries ≠ 0 ∧ o.st = .running ∧ st.cons + 2 ≤ st.fed) ∧
    (∃ s : State, ∃ p : Nat, ∃ u : Nat, ∃ x : Part, let b := s.blk; let st := b.stepOf p; p < 8 ∧ b.part p = some x ∧ b.mayStart p = true ∧ x.recast = [] ∧ ((∀ a ∈ x.twins, a.fin = true)) ∧ b.owedBy p = [] ∧ st.reclick = false ∧ b.recorded p = none ∧ st.abortNext = 0 ∧ unitNo u = true) ∧
    (∃ s : State, ∃ p : Nat, ∃ x : Part, let b := s.blk; let st := b.stepOf p; p < 8 ∧ b.part p = some x ∧ b.mayStart p = true ∧ b.owedBy p = [] ∧ st.reclick = false ∧ b.recorded p = none ∧ st.abortNext ≠ 0) ∧
    (∃ s : State, ∃ p : Nat, ∃ x : Part, let b := s.blk; let st := b.stepOf p; p < 8 ∧ b.part p = some x ∧ b.mayStart p = true ∧ b.owedBy p ≠ [] ∧ st.abortNext ≠ 0) ∧
    (∃ s : State, ∃ p : Nat, ∃ x : Part, let b := s.blk; p < 8 ∧ b.part p = some x ∧ b.mayStart p = false) :=
  ⟨⟨(st ((running (at_ 0) ({ runOp with entries := 4 })).wn ⟨.DBL_FEED_PROD, 0, 0⟩ 1)), 0, { runOp with entries := 4 }, last0, { part0 with loaded := true, last := some last0, step := (at_ 0) }, by decide +kernel⟩,
   ⟨(st (running (at_ 0) ({ runOp with entries := 4 }))), 0, { runOp with entries := 4 }, last0, { part0 with loaded := true, last := some last0, step := (at_ 0) }, by decide +kernel⟩,
   ⟨(st (running { Step.idle with fed := 2 } ({ runOp with entries := 4 }))), 0, { runOp with entries := 4 }, last0, { part0 with loaded := true, last := some last0, step := { Step.idle with fed := 2 } }, by decide +kernel⟩,
   ⟨(st (running { Step.idle with fed := 1 })), 0, 0, { part0 with loaded := true, last := some last0, step := { Step.idle with fed := 1 } }, by decide +kernel⟩,
   ⟨(st (running { Step.idle with abortNext := 7 })), 0, { part0 with loaded := true, last := some last0, step := { Step.idle with abortNext := 7 } }, by decide +kernel⟩,
   ⟨(st { (running { Step.idle with abortNext := 7 }) with units := { ready.units with owed := [(0, 0, false)] } }), 0, { part0 with loaded := true, last := some last0, step := { Step.idle with abortNext := 7 } }, by decide +kernel⟩,
   ⟨(st (running (at_ 0))), 0, { part0 with loaded := true, last := some last0, step := (at_ 0) }, by decide +kernel⟩⟩

/-- The hypotheses of each clause of Obligations.ClusterStartsAfresh are met together. -/
theorem witness_ClusterStartsAfresh :
    (∃ b : Blk, ∃ p : Nat, ∃ cl : Nat, ∃ q, cl < 36 ∧ ((∀ v, b.variantOf p = some v → ∀ sch ∈ v.sched, ∀ z ∈ sch.ctrs, z.1 < 256)) ∧ q < 16) ∧
    (∃ b : Blk, ∃ p : Nat, ∃ cl : Nat, ∃ v, ∃ sch, ∃ n, ∃ i, ∃ r, cl < 36 ∧ ((∀ v, b.variantOf p = some v → ∀ sch ∈ v.sched, ∀ z ∈ sch.ctrs, z.1 < 256)) ∧ b.variantOf p = some v ∧ (v.sched.find? (fun (z : Sched) => z.cl == cl) = some sch) ∧ n < 255 ∧ ((sch.ctrs.map (fun z => z.1)).Nodup) ∧ (n, i, r) ∈ sch.ctrs) ∧
    (∃ b : Blk, ∃ p : Nat, ∃ cl : Nat, ∃ g : RegRef, cl < 36 ∧ ((∀ v, b.variantOf p = some v → ∀ sch ∈ v.sched, ∀ z ∈ sch.ctrs, z.1 < 256)) ∧ regOk g = true ∧ g.at_ ≠ cl) :=
  ⟨⟨ready, 0, 35, 15, by exact ⟨by decide, no_variant, by decide⟩⟩,
   ⟨(running (at_ 0)), 0, 0, variant0, { cl := 0, progs := [], ctrs := [(254, 65535, 7)] }, 254, 65535, 7, by exact ⟨by decide, variant_ctrs, by decide +kernel, by decide +kernel, by decide, by decide, by decide⟩⟩,
   ⟨ready, 0, 35, ⟨.SEQ_RNG_STEP, 34, 0⟩, by exact ⟨by decide, no_variant, by decide +kernel, by decide⟩⟩⟩

/-- The hypotheses of each clause of Obligations.ClosingMessagesAct are met together. -/
theorem witness_ClosingMessagesAct :
    (∃ s : State, ∃ p : Nat, ∃ e : Nat, ∃ l : Last, let b := s.blk; let st := b.stepOf p; p < 8 ∧ e < 48 ∧ b.lastOf p = some l ∧ st.state = 1 ∧ st.sent = false ∧ st.held = false ∧ b.wordReady p = true ∧ b.recorded p = none ∧ st.drop = [] ∧ st.carry = false) ∧
    (∃ s : State, ∃ p : Nat, ∃ e : Nat, ∃ l : Last, let b := s.blk; let st := b.stepOf p; p < 8 ∧ e < 48 ∧ b.lastOf p = some l ∧ st.state = 1 ∧ st.sent = false ∧ st.held = false ∧ b.wordReady p = true ∧ st.carry = true) ∧
    (∃ s : State, ∃ p : Nat, ∃ e : Nat, ∃ l : Last, let b := s.blk; let st := b.stepOf p; p < 8 ∧ e < 48 ∧ b.lastOf p = some l ∧ ((st.state ≠ 1 ∨ st.sent = true ∨ b.wordReady p = false))) ∧
    (∃ s : State, ∃ p : Nat, ∃ e : Nat, ∃ m : Msg, ∃ l : Last, let b := s.blk; let here := b.eyeExists e = true ∧ b.miswired e = false ∧ b.msgArrived e m = true ∧ b.partOfEye e = some p ∧ l.cut.any (fun c => c.eye == e) = true; let kid := m.src ∈ childRanks l.rank l.members; p < 8 ∧ e < 48 ∧ b.lastOf p = some l ∧ m.kind = 0x40 ∧ here ∧ m.dst = l.rank ∧ kid) ∧
    (∃ s : State, ∃ p : Nat, ∃ e : Nat, ∃ l : Last, let b := s.blk; let st := b.stepOf p; p < 8 ∧ e < 48 ∧ b.lastOf p = some l ∧ l.rank = 0 ∧ st.rootOut = true ∧ st.sent = true ∧ st.round = 3) ∧
    (∃ s : State, ∃ p : Nat, ∃ e : Nat, ∃ m : Msg, ∃ l : Last, let b := s.blk; let st := b.stepOf p; let here := b.eyeExists e = true ∧ b.miswired e = false ∧ b.msgArrived e m = true ∧ b.partOfEye e = some p ∧ l.cut.any (fun c => c.eye == e) = true; p < 8 ∧ e < 48 ∧ b.lastOf p = some l ∧ m.kind = 0x41 ∧ here ∧ m.dst = l.rank ∧ l.rank ≠ 0 ∧ m.src = parentRank l.rank ∧ st.sent = true ∧ st.round = 3 ∧ m.cseq = 3) ∧
    (∃ s : State, ∃ p : Nat, ∃ e : Nat, ∃ m : Msg, ∃ l : Last, let b := s.blk; let st := b.stepOf p; let here := b.eyeExists e = true ∧ b.miswired e = false ∧ b.msgArrived e m = true ∧ b.partOfEye e = some p ∧ l.cut.any (fun c => c.eye == e) = true; let kid := m.src ∈ childRanks l.rank l.members; p < 8 ∧ e < 48 ∧ b.lastOf p = some l ∧ m.kind = 0x42 ∧ here ∧ m.dst = l.rank ∧ kid ∧ m.names.length < 470 ∧ slotGet st.kidNames (m.src + 2 ^ 20) = none ∧ m.src < 2 ^ 20) ∧
    (∃ s : State, ∃ p : Nat, ∃ e : Nat, ∃ l : Last, let b := s.blk; let st := b.stepOf p; p < 8 ∧ e < 48 ∧ b.lastOf p = some l ∧ l.rank = 0 ∧ st.rootOut = true ∧ st.round = 2) ∧
    (∃ s : State, ∃ p : Nat, ∃ e : Nat, ∃ l : Last, let b := s.blk; let st := b.stepOf p; p < 8 ∧ e < 48 ∧ b.lastOf p = some l ∧ st.state = 2 ∧ st.sent = true ∧ st.outcome = .none) ∧
    (∃ s : State, ∃ p : Nat, ∃ e : Nat, ∃ l : Last, let b := s.blk; let st := b.stepOf p; p < 8 ∧ e < 48 ∧ b.lastOf p = some l ∧ st.outcome ≠ .none) ∧
    (∃ s : State, ∃ p : Nat, ∃ e : Nat, ∃ m : Msg, ∃ l : Last, let b := s.blk; let st := b.stepOf p; let here := b.eyeExists e = true ∧ b.miswired e = false ∧ b.msgArrived e m = true ∧ b.partOfEye e = some p ∧ l.cut.any (fun c => c.eye == e) = true; p < 8 ∧ e < 48 ∧ b.lastOf p = some l ∧ m.kind = 0x44 ∧ here ∧ m.dst = l.rank ∧ b.attemptAhead p m.step m.attempt = false ∧ ((st.open? = false ∨ m.step ≠ b.sOf p % 65536 ∨ m.attempt ≠ st.attempt))) ∧
    (∃ s : State, ∃ p : Nat, ∃ e : Nat, ∃ m : Msg, ∃ l : Last, let b := s.blk; let here := b.eyeExists e = true ∧ b.miswired e = false ∧ b.msgArrived e m = true ∧ b.partOfEye e = some p ∧ l.cut.any (fun c => c.eye == e) = true; p < 8 ∧ e < 48 ∧ b.lastOf p = some l ∧ m.kind = 0x44 ∧ here ∧ m.dst = l.rank ∧ b.attemptAhead p m.step m.attempt = true) ∧
    (∃ s : State, ∃ p : Nat, ∃ e : Nat, ∃ m : Msg, ∃ l : Last, let b := s.blk; let st := b.stepOf p; let here := b.eyeExists e = true ∧ b.miswired e = false ∧ b.msgArrived e m = true ∧ b.partOfEye e = some p ∧ l.cut.any (fun c => c.eye == e) = true; p < 8 ∧ e < 48 ∧ b.lastOf p = some l ∧ m.kind = 0x44 ∧ here ∧ m.dst = l.rank ∧ m.step = b.sOf p % 65536 ∧ m.attempt = st.attempt ∧ st.open? = true) ∧
    (∃ s : State, ∃ p : Nat, ∃ e : Nat, ∃ m : Msg, ∃ l : Last, let b := s.blk; let here := b.eyeExists e = true ∧ b.miswired e = false ∧ b.msgArrived e m = true ∧ b.partOfEye e = some p ∧ l.cut.any (fun c => c.eye == e) = true; p < 8 ∧ e < 48 ∧ b.lastOf p = some l ∧ m.kind = 0x45 ∧ here ∧ m.dst = l.rank) ∧
    (∃ s : State, ∃ p : Nat, ∃ e : Nat, ∃ m : Msg, ∃ l : Last, let b := s.blk; let st := b.stepOf p; let here := b.eyeExists e = true ∧ b.miswired e = false ∧ b.msgArrived e m = true ∧ b.partOfEye e = some p ∧ l.cut.any (fun c => c.eye == e) = true; p < 8 ∧ e < 48 ∧ b.lastOf p = some l ∧ m.kind = 0x46 ∧ here ∧ m.dst = l.rank ∧ m.step = b.sOf p % 65536 ∧ m.attempt = st.attempt ∧ st.open? = true) ∧
    (∃ s : State, ∃ p : Nat, ∃ e : Nat, ∃ m : Msg, ∃ l : Last, let b := s.blk; let st := b.stepOf p; let here := b.eyeExists e = true ∧ b.miswired e = false ∧ b.msgArrived e m = true ∧ b.partOfEye e = some p ∧ l.cut.any (fun c => c.eye == e) = true; p < 8 ∧ e < 48 ∧ b.lastOf p = some l ∧ m.kind = 0x46 ∧ here ∧ m.dst = l.rank ∧ m.step = b.sOf p % 65536 ∧ ((st.state = 0 ∨ st.attempt < m.attempt))) ∧
    (∃ s : State, ∃ p : Nat, ∃ e : Nat, ∃ m : Msg, ∃ l : Last, let b := s.blk; let here := b.eyeExists e = true ∧ b.miswired e = false ∧ b.msgArrived e m = true ∧ b.partOfEye e = some p ∧ l.cut.any (fun c => c.eye == e) = true; p < 8 ∧ e < 48 ∧ b.lastOf p = some l ∧ m.kind = 0x46 ∧ here ∧ m.dst ≠ l.rank) :=
  ⟨⟨(st (running (at_ 1) runOp last3)), 0, 0, last3, by decide +kernel⟩,
   ⟨(st (running ({ at_ 1 with carry := true }) runOp last3)), 0, 0, last3, by decide +kernel⟩,
   ⟨(st (running (at_ 0) runOp last3)), 0, 0, last3, by decide +kernel⟩,
   ⟨(st (running (at_ 1) runOp last3)), 0, 0, (msg 0x40 2), last3, by decide +kernel⟩,
   ⟨(st (running ({ at_ 2 with rootOut := true, sent := true, round := 3 }) runOp last3)), 0, 0, last3, by decide +kernel⟩,
   ⟨(st (running ({ at_ 2 with sent := true, round := 3 }) runOp ({ last3 with rank := 1 }))), 0, 0, { msg 0x41 0 with dst := 1, cseq := 3 }, ({ last3 with rank := 1 }), by decide +kernel⟩,
   ⟨(st (running (at_ 1) runOp last3)), 0, 0, (msg 0x42 2), last3, by decide +kernel⟩,
   ⟨(st (running ({ at_ 2 with rootOut := true, sent := true, round := 2 }) runOp last3)), 0, 0, last3, by decide +kernel⟩,
   ⟨(st (running ({ at_ 2 with sent := true }) runOp last3)), 0, 0, last3, by decide +kernel⟩,
   ⟨(st (running ({ at_ 2 with outcome := .apply }) runOp last3)), 0, 0, last3, by decide +kernel⟩,
   ⟨(st (running (at_ 2) runOp last3)), 0, 0, (msg 0x44 1), last3, by decide +kernel⟩,
   ⟨(st (running (at_ 1) runOp last3)), 0, 0, { msg 0x44 1 with attempt := 1 }, last3, by decide +kernel⟩,
   ⟨(st (running (at_ 1) runOp last3)), 0, 0, (msg 0x44 1), last3, by decide +kernel⟩,
   ⟨(st (running (at_ 1) runOp last3)), 0, 0, (msg 0x45 1), last3, by decide +kernel⟩,
   ⟨(st (running (at_ 1) runOp last3)), 0, 0, (msg 0x46 1), last3, by decide +kernel⟩,
   ⟨(st (running (at_ 0) runOp last3)), 0, 0, { msg 0x46 1 with attempt := 1 }, last3, by decide +kernel⟩,
   ⟨(st (running (at_ 1) runOp last3)), 0, 0, { msg 0x46 1 with dst := 2 }, last3, by decide +kernel⟩⟩

/-- The hypotheses of Obligations.ClosingWordsCombine are met together. -/
theorem witness_ClosingWordsCombine :
    ∃ i, i < 6 :=
  ⟨5, by decide +kernel⟩

/-- The hypotheses of each clause of Obligations.ClosingOutcome are met together. -/
theorem witness_ClosingOutcome :
    (∃ w1 : Nat, ∃ w3 : Option Nat, let mismatch := cwHas w1 fMismatch = true ∨ ∃ w, w3 = some w ∧ cwHas w fMismatch = true; mismatch) ∧
    (∃ w1 : Nat, ∃ w3 : Option Nat, let mismatch := cwHas w1 fMismatch = true ∨ ∃ w, w3 = some w ∧ cwHas w fMismatch = true; ¬mismatch ∧ cwHas w1 fHalt = true) ∧
    (∃ w1 : Nat, ∃ w3 : Option Nat, ∃ budget : Nat, ∃ a : Nat, let mismatch := cwHas w1 fMismatch = true ∨ ∃ w, w3 = some w ∧ cwHas w fMismatch = true; let fault := cwHas w1 fFault = true; let stale := cwHas w1 fStale = true; ¬mismatch ∧ cwHas w1 fHalt = false ∧ ((fault ∨ stale)) ∧ a < budget) ∧
    (∃ w1 : Nat, ∃ w3 : Option Nat, ∃ names : List NameRec, ∃ budget : Nat, ∃ a : Nat, let mismatch := cwHas w1 fMismatch = true ∨ ∃ w, w3 = some w ∧ cwHas w fMismatch = true; let fault := cwHas w1 fFault = true; let stale := cwHas w1 fStale = true; let named := (∃ r ∈ names, r.kind = 2) ∧ ∀ r ∈ names, r.kind ≠ 3; ¬mismatch ∧ cwHas w1 fHalt = false ∧ fault ∧ budget ≤ a ∧ ¬stale ∧ named) ∧
    (∃ w1 : Nat, ∃ w3 : Option Nat, ∃ names : List NameRec, ∃ budget : Nat, ∃ a : Nat, let mismatch := cwHas w1 fMismatch = true ∨ ∃ w, w3 = some w ∧ cwHas w fMismatch = true; let fault := cwHas w1 fFault = true; let stale := cwHas w1 fStale = true; let named := (∃ r ∈ names, r.kind = 2) ∧ ∀ r ∈ names, r.kind ≠ 3; ¬mismatch ∧ cwHas w1 fHalt = false ∧ fault ∧ budget ≤ a ∧ ((stale ∨ ¬named))) ∧
    (∃ w1 : Nat, ∃ w3 : Option Nat, ∃ budget : Nat, ∃ a : Nat, let mismatch := cwHas w1 fMismatch = true ∨ ∃ w, w3 = some w ∧ cwHas w fMismatch = true; let fault := cwHas w1 fFault = true; let stale := cwHas w1 fStale = true; ¬mismatch ∧ cwHas w1 fHalt = false ∧ ¬fault ∧ stale ∧ budget ≤ a) ∧
    (∃ w1 : Nat, ∃ w3 : Option Nat, let mismatch := cwHas w1 fMismatch = true ∨ ∃ w, w3 = some w ∧ cwHas w fMismatch = true; let fault := cwHas w1 fFault = true; let stale := cwHas w1 fStale = true; let dirty := ∃ w, w3 = some w ∧ cwHas w fDirty = true; ¬mismatch ∧ cwHas w1 fHalt = false ∧ ¬fault ∧ ¬stale ∧ dirty) ∧
    (∃ w1 : Nat, ∃ w3 : Option Nat, let mismatch := cwHas w1 fMismatch = true ∨ ∃ w, w3 = some w ∧ cwHas w fMismatch = true; let fault := cwHas w1 fFault = true; let stale := cwHas w1 fStale = true; let dirty := ∃ w, w3 = some w ∧ cwHas w fDirty = true; ¬mismatch ∧ cwHas w1 fHalt = false ∧ ¬fault ∧ ¬stale ∧ ¬dirty ∧ cwHas w1 fNonfinite = true) ∧
    (∃ w1 : Nat, ∃ w3 : Option Nat, ∃ replica : Nat, let mismatch := cwHas w1 fMismatch = true ∨ ∃ w, w3 = some w ∧ cwHas w fMismatch = true; let fault := cwHas w1 fFault = true; let stale := cwHas w1 fStale = true; let dirty := ∃ w, w3 = some w ∧ cwHas w fDirty = true; let counted := cwCount (w3.getD w1) ≠ 0 ∧ cwCount (w3.getD w1) % replica = 0; ¬mismatch ∧ cwHas w1 fHalt = false ∧ ¬fault ∧ ¬stale ∧ ¬dirty ∧ cwHas w1 fNonfinite = false ∧ cwHas w1 fDrop = true ∧ counted) ∧
    (∃ w1 : Nat, ∃ w3 : Option Nat, ∃ replica : Nat, let mismatch := cwHas w1 fMismatch = true ∨ ∃ w, w3 = some w ∧ cwHas w fMismatch = true; let fault := cwHas w1 fFault = true; let stale := cwHas w1 fStale = true; let dirty := ∃ w, w3 = some w ∧ cwHas w fDirty = true; let counted := cwCount (w3.getD w1) ≠ 0 ∧ cwCount (w3.getD w1) % replica = 0; ¬mismatch ∧ cwHas w1 fHalt = false ∧ ¬fault ∧ ¬stale ∧ ¬dirty ∧ cwHas w1 fNonfinite = false ∧ cwHas w1 fDrop = false ∧ counted) :=
  ⟨⟨fMismatch, none, by exact Or.inl (by decide)⟩,
   ⟨fHalt, none, by exact ⟨(by rintro (h | ⟨_, h, _⟩) <;> first | cases h | exact absurd h (by decide)), by decide⟩⟩,
   ⟨fStale, none, 1, 0, by exact ⟨(by rintro (h | ⟨_, h, _⟩) <;> first | cases h | exact absurd h (by decide)), by decide, by decide, by decide⟩⟩,
   ⟨fFault, none, [⟨0, 0, 0, 2⟩], 0, 0, by exact ⟨(by rintro (h | ⟨_, h, _⟩) <;> first | cases h | exact absurd h (by decide)), by decide, by decide, by decide, by decide, by decide⟩⟩,
   ⟨fFault, none, [], 0, 0, by exact ⟨(by rintro (h | ⟨_, h, _⟩) <;> first | cases h | exact absurd h (by decide)), by decide, by decide, by decide, by decide⟩⟩,
   ⟨fStale, none, 0, 0, by exact ⟨(by rintro (h | ⟨_, h, _⟩) <;> first | cases h | exact absurd h (by decide)), by decide, by decide, by decide, by decide⟩⟩,
   ⟨0, (some fDirty), by exact ⟨(by rintro (h | ⟨_, h, h2⟩) <;> first | (cases h; exact absurd h2 (by decide)) | exact absurd h (by decide)), by decide, by decide, by decide, ⟨_, rfl, by decide⟩⟩⟩,
   ⟨fNonfinite, none, by exact ⟨(by rintro (h | ⟨_, h, _⟩) <;> first | cases h | exact absurd h (by decide)), by decide, by decide, by decide, (by rintro ⟨_, h, _⟩; cases h), by decide⟩⟩,
   ⟨(cword fDrop 0 0 0 0xFFFFFFFF), none, 0xFFFFFFFF, by exact ⟨(by rintro (h | ⟨_, h, _⟩) <;> first | cases h | exact absurd h (by decide)), by decide, by decide, by decide, (by rintro ⟨_, h, _⟩; cases h), by decide, by decide, by decide⟩⟩,
   ⟨(cword 0 0 0 0 4), none, 2, by exact ⟨(by rintro (h | ⟨_, h, _⟩) <;> first | cases h | exact absurd h (by decide)), by decide, by decide, by decide, (by rintro ⟨_, h, _⟩; cases h), by decide, by decide, by decide⟩⟩⟩

/-- The hypotheses of each clause of Obligations.StepBoundaryAdvances are met together. -/
theorem witness_StepBoundaryAdvances :
    (∃ s : State, ∃ p : Nat, ∃ x : Part, let b := s.blk; p < 8 ∧ b.part p = some x ∧ b.atBoundary p = false) ∧
    (∃ s : State, ∃ p : Nat, ∃ x : Part, let b := s.blk; p < 8 ∧ b.part p = some x ∧ b.atBoundary p = true ∧ x.finLeft = [] ∧ b.boundaryWork p (x.s + 1) = false ∧ b.mbx.ops = [] ∧ b.units.badBlk = []) :=
  ⟨⟨(st (running (at_ 1))), 0, { part0 with loaded := true, last := some last0, step := at_ 1 }, by decide +kernel⟩,
   ⟨(st { ready with parts := [(0, { part0 with loaded := true, last := some last0, step := { at_ 3 with outcome := .apply } })] }), 0, { part0 with loaded := true, last := some last0, step := { at_ 3 with outcome := .apply } }, by decide +kernel⟩⟩

/-- The hypotheses of each clause of Obligations.CollectivesRun are met together. -/
theorem witness_CollectivesRun :
    (∃ s : State, ∃ p : Nat, ∃ q : Nat, ∃ op : Nat, ∃ i : Instr, ∃ x : CollAt, ∃ lf : Bool, let b := s.blk; p < 8 ∧ b.collAt p q = some x ∧ (i, op) ∈ ([(.allReduce p q lf, 1), (.reduceScatter p q lf, 2), (.allGather p q lf, 3), (.broadcast p q lf, 4), (.send p q lf, 5), (.recv p q lf, 6), (.a2aDispatch p q lf, 7), (.a2aCombine p q lf, 8), (.put p q lf, 9)] : List (Instr × Nat)) ∧ x.d.op = op ∧ b.mayColl x = true ∧ b.collAddrOk x = true ∧ lf = false) ∧
    (∃ s : State, ∃ p : Nat, ∃ q : Nat, ∃ op : Nat, ∃ i : Instr, ∃ x : CollAt, ∃ lf : Bool, let b := s.blk; p < 8 ∧ b.collAt p q = some x ∧ (i, op) ∈ ([(.allReduce p q lf, 1), (.reduceScatter p q lf, 2), (.allGather p q lf, 3), (.broadcast p q lf, 4), (.send p q lf, 5), (.recv p q lf, 6), (.a2aDispatch p q lf, 7), (.a2aCombine p q lf, 8), (.put p q lf, 9)] : List (Instr × Nat)) ∧ x.d.op = op ∧ b.mayColl x = true ∧ b.collAddrOk x = true ∧ lf = true) ∧
    (∃ s : State, ∃ p : Nat, ∃ q : Nat, ∃ t : Nat, ∃ op : Nat, ∃ i : Instr, ∃ x : CollAt, ∃ lf : Bool, let b := s.blk; p < 8 ∧ b.collAt p q = some x ∧ (i, op) ∈ ([(.allReduce p q lf, 1), (.reduceScatter p q lf, 2), (.allGather p q lf, 3), (.broadcast p q lf, 4), (.send p q lf, 5), (.recv p q lf, 6), (.a2aDispatch p q lf, 7), (.a2aCombine p q lf, 8), (.put p q lf, 9)] : List (Instr × Nat)) ∧ x.d.op = op ∧ b.mayColl x = true ∧ b.collAddrOk x = false ∧ ((∀ t ∈ x.d.sigs, tripOk t = false))) ∧
    (∃ s : State, ∃ p : Nat, ∃ q : Nat, ∃ op : Nat, ∃ i : Instr, ∃ x : CollAt, ∃ lf : Bool, let b := s.blk; p < 8 ∧ b.collAt p q = some x ∧ (i, op) ∈ ([(.allReduce p q lf, 1), (.reduceScatter p q lf, 2), (.allGather p q lf, 3), (.broadcast p q lf, 4), (.send p q lf, 5), (.recv p q lf, 6), (.a2aDispatch p q lf, 7), (.a2aCombine p q lf, 8), (.put p q lf, 9)] : List (Instr × Nat)) ∧ x.d.op = op ∧ b.mayColl x = false) ∧
    (∃ s : State, ∃ p : Nat, ∃ q : Nat, ∃ t : Nat, ∃ x : CollAt, let b := s.blk; p < 8 ∧ b.collAt p q = some x ∧ t < 4 ∧ tripOk (x.d.arms.getD t 0) = true ∧ (b.stepOf p).aborted = false ∧ b.ctr (tripCl (x.d.arms.getD t 0)) (tripCtr (x.d.arms.getD t 0)) = 0 ∧ b.fencing (b.leadOf q) = false ∧ b.partOf (tripCl (x.d.arms.getD t 0)) = some p) ∧
    (∃ s : State, ∃ p : Nat, ∃ q : Nat, ∃ t : Nat, ∃ x : CollAt, let b := s.blk; p < 8 ∧ b.collAt p q = some x ∧ t < 4 ∧ b.ctr (tripCl (x.d.arms.getD t 0)) (tripCtr (x.d.arms.getD t 0)) ≠ 0) ∧
    (∃ s : State, ∃ p : Nat, ∃ q : Nat, ∃ x : CollAt, let b := s.blk; p < 8 ∧ b.collAt p q = some x ∧ x.st.started = true ∧ x.st.complete = false ∧ b.collDone x = true) ∧
    (∃ s : State, ∃ p : Nat, ∃ q : Nat, ∃ x : CollAt, let b := s.blk; p < 8 ∧ b.collAt p q = some x ∧ b.collDone x = false) ∧
    (∃ s : State, ∃ p : Nat, ∃ q : Nat, ∃ x : CollAt, ∃ y : Part, let b := s.blk; p < 8 ∧ b.collAt p q = some x ∧ b.armed x = true ∧ x.st.started = false ∧ x.st.complete = false ∧ x.d.pred ≠ q ∧ b.part p = some y ∧ ((∀ c ∈ y.colls, c.cseq = x.d.pred → c.started = false))) ∧
    (∃ s : State, ∃ p : Nat, ∃ q : Nat, ∃ x : CollAt, ∃ w : Flow, let b := s.blk; p < 8 ∧ b.collAt p q = some x ∧ q ≠ 0xFFFF ∧ x.st.started = true ∧ x.st.complete = false ∧ ((b.flowsOf p q).find? (fun v => b.outstanding x v) = some w)) ∧
    (∃ s : State, ∃ p : Nat, ∃ q : Nat, ∃ x : CollAt, let b := s.blk; p < 8 ∧ b.collAt p q = some x ∧ b.drained = false) ∧
    (∃ s : State, ∃ p : Nat, ∃ q : Nat, ∃ x : CollAt, ∃ y : Part, let b := s.blk; ∃ o, ∃ z, p < 8 ∧ b.collAt p q = some x ∧ (b.opOn p (fun k => k == .reshard) = some o) ∧ b.part p = some y ∧ y.reshard = some z ∧ o.st = .running ∧ o.ended = false ∧ b.drained = true ∧ z.moves = []) :=
  ⟨⟨(collState reduce1 (coll0) []), 0, 0, 1, .allReduce 0 0 false, (theColl (collState reduce1 (coll0) [])), false, by exact ⟨by decide, by decide +kernel, List.Mem.head _, by decide +kernel, by decide +kernel, by decide +kernel, by decide +kernel⟩⟩,
   ⟨(collState reduce1 (coll0) []), 0, 0, 1, .allReduce 0 0 true, (theColl (collState reduce1 (coll0) [])), true, by exact ⟨by decide, by decide +kernel, List.Mem.head _, by decide +kernel, by decide +kernel, by decide +kernel, by decide +kernel⟩⟩,
   ⟨(collState (reduce1 + BitVec.ofNat 512 (8192 * 2 ^ 64)) (coll0) []), 0, 0, 0, 1, .allReduce 0 0 true, (theColl (collState (reduce1 + BitVec.ofNat 512 (8192 * 2 ^ 64)) (coll0) [])), true, by exact ⟨by decide, by decide +kernel, List.Mem.head _, by decide +kernel, by decide +kernel, by decide +kernel, by decide +kernel⟩⟩,
   ⟨(collState reduce1 ({ coll0 with started := true }) []), 0, 0, 1, .allReduce 0 0 true, (theColl (collState reduce1 ({ coll0 with started := true }) [])), true, by exact ⟨by decide, by decide +kernel, List.Mem.head _, by decide +kernel, by decide +kernel⟩⟩,
   ⟨(collState (reduce1 + BitVec.ofNat 512 (2 ^ 367)) (coll0) []), 0, 0, 0, (theColl (collState (reduce1 + BitVec.ofNat 512 (2 ^ 367)) (coll0) [])), by decide +kernel⟩,
   ⟨(st ((collState (reduce1 + BitVec.ofNat 512 (2 ^ 367)) (coll0) []).blk.wf (ctrReg 0 0) Fld.SEQ_CTR_VALUE 1)), 0, 0, 0, (theColl (st ((collState (reduce1 + BitVec.ofNat 512 (2 ^ 367)) (coll0) []).blk.wf (ctrReg 0 0) Fld.SEQ_CTR_VALUE 1))), by decide +kernel⟩,
   ⟨(collState send1 ({ coll0 with started := true }) []), 0, 0, (theColl (collState send1 ({ coll0 with started := true }) [])), by decide +kernel⟩,
   ⟨(collState reduce1 (coll0) []), 0, 0, (theColl (collState reduce1 (coll0) [])), by decide +kernel⟩,
   ⟨(collState (reduce1 + BitVec.ofNat 512 (2 ^ 48)) (coll0) []), 0, 0, (theColl (collState (reduce1 + BitVec.ofNat 512 (2 ^ 48)) (coll0) [])), (collPart (reduce1 + BitVec.ofNat 512 (2 ^ 48)) coll0 []), by decide +kernel⟩,
   ⟨(collState reduce1 ({ coll0 with started := true }) [flow0]), 0, 0, (theColl (collState reduce1 ({ coll0 with started := true }) [flow0])), flow0, by decide +kernel⟩,
   ⟨(collState reduce1 ({ coll0 with started := true }) []), 0, 0, (theColl (collState reduce1 ({ coll0 with started := true }) [])), by decide +kernel⟩,
   ⟨reshardState, 0, 0, (theColl reshardState), reshardPart, { runOp with kind := .reshard }, { last := last0, var := 0, moves := [], ident := 0, epoch := 1 }, by decide +kernel⟩⟩

/-- The hypotheses of each clause of Obligations.ChunksAreJudgedAndSummed are met together. -/
theorem witness_ChunksAreJudgedAndSummed :
    (∃ s : State, ∃ e : Nat, ∃ p : Nat, ∃ kind : Nat, ∃ m : Msg, ∃ i : Instr, ∃ x : CollAt, ∃ l : Last, let b := s.blk; e < 48 ∧ b.eyeExists e = true ∧ b.miswired e = false ∧ b.msgArrived e m = true ∧ b.partOfEye e = some p ∧ b.lastOf p = some l ∧ (l.cut.any (fun c => c.eye == e) = true) ∧ m.dst = l.rank ∧ (i, kind) ∈ ([(.contrib e m false, 1), (.partialSum e m false, 2), (.result e m false, 3), (.a2aRows e m false, 4)] : List (Instr × Nat)) ∧ m.kind = kind ∧ b.collAt p m.cseq = some x ∧ b.rxFlow x m = none) ∧
    (∃ s : State, ∃ e : Nat, ∃ p : Nat, ∃ kind : Nat, ∃ m : Msg, ∃ i : Instr, ∃ x : CollAt, ∃ l : Last, ∃ w : Flow, let b := s.blk; let age := chunkAge w.step w.attempt m.step m.attempt; e < 48 ∧ b.eyeExists e = true ∧ b.miswired e = false ∧ b.msgArrived e m = true ∧ b.partOfEye e = some p ∧ b.lastOf p = some l ∧ (l.cut.any (fun c => c.eye == e) = true) ∧ m.dst = l.rank ∧ (i, kind) ∈ ([(.contrib e m false, 1), (.partialSum e m false, 2), (.result e m false, 3), (.a2aRows e m false, 4)] : List (Instr × Nat)) ∧ m.kind = kind ∧ b.collAt p m.cseq = some x ∧ b.rxFlow x m = some w ∧ age = 1 ∧ b.epochAhead x m = false) ∧
    (∃ s : State, ∃ e : Nat, ∃ p : Nat, ∃ kind : Nat, ∃ m : Msg, ∃ i : Instr, ∃ x : CollAt, ∃ l : Last, ∃ w : Flow, let b := s.blk; let age := chunkAge w.step w.attempt m.step m.attempt; e < 48 ∧ b.eyeExists e = true ∧ b.miswired e = false ∧ b.msgArrived e m = true ∧ b.partOfEye e = some p ∧ b.lastOf p = some l ∧ (l.cut.any (fun c => c.eye == e) = true) ∧ m.dst = l.rank ∧ (i, kind) ∈ ([(.contrib e m false, 1), (.partialSum e m false, 2), (.result e m false, 3), (.a2aRows e m false, 4)] : List (Instr × Nat)) ∧ m.kind = kind ∧ b.collAt p m.cseq = some x ∧ b.rxFlow x m = some w ∧ age = 2) ∧
    (∃ s : State, ∃ e : Nat, ∃ p : Nat, ∃ kind : Nat, ∃ m : Msg, ∃ i : Instr, ∃ x : CollAt, ∃ l : Last, ∃ w : Flow, let b := s.blk; e < 48 ∧ b.eyeExists e = true ∧ b.miswired e = false ∧ b.msgArrived e m = true ∧ b.partOfEye e = some p ∧ b.lastOf p = some l ∧ (l.cut.any (fun c => c.eye == e) = true) ∧ m.dst = l.rank ∧ (i, kind) ∈ ([(.contrib e m false, 1), (.partialSum e m false, 2), (.result e m false, 3), (.a2aRows e m false, 4)] : List (Instr × Nat)) ∧ m.kind = kind ∧ b.collAt p m.cseq = some x ∧ b.rxFlow x m = some w ∧ b.epochAhead x m = true) ∧
    (∃ s : State, ∃ e : Nat, ∃ p : Nat, ∃ kind : Nat, ∃ m : Msg, ∃ i : Instr, ∃ x : CollAt, ∃ l : Last, ∃ w : Flow, let b := s.blk; let age := chunkAge w.step w.attempt m.step m.attempt; e < 48 ∧ b.eyeExists e = true ∧ b.miswired e = false ∧ b.msgArrived e m = true ∧ b.partOfEye e = some p ∧ b.lastOf p = some l ∧ (l.cut.any (fun c => c.eye == e) = true) ∧ m.dst = l.rank ∧ (i, kind) ∈ ([(.contrib e m false, 1), (.partialSum e m false, 2), (.result e m false, 3), (.a2aRows e m false, 4)] : List (Instr × Nat)) ∧ m.kind = kind ∧ b.collAt p m.cseq = some x ∧ b.rxFlow x m = some w ∧ age = 0 ∧ b.epochAhead x m = false ∧ x.st.complete = false) ∧
    (∃ s : State, ∃ e : Nat, ∃ p : Nat, ∃ kind : Nat, ∃ m : Msg, ∃ i : Instr, ∃ x : CollAt, ∃ l : Last, ∃ w : Flow, let b := s.blk; let age := chunkAge w.step w.attempt m.step m.attempt; e < 48 ∧ b.eyeExists e = true ∧ b.miswired e = false ∧ b.msgArrived e m = true ∧ b.partOfEye e = some p ∧ b.lastOf p = some l ∧ (l.cut.any (fun c => c.eye == e) = true) ∧ m.dst = l.rank ∧ (i, kind) ∈ ([(.contrib e m false, 1), (.partialSum e m false, 2), (.result e m false, 3), (.a2aRows e m false, 4)] : List (Instr × Nat)) ∧ m.kind = kind ∧ b.collAt p m.cseq = some x ∧ b.rxFlow x m = some w ∧ age = 0 ∧ b.epochAhead x m = false ∧ m.chunk < w.done) ∧
    (∃ s : State, ∃ e : Nat, ∃ p : Nat, ∃ m : Msg, ∃ x : CollAt, ∃ l : Last, ∃ w : Flow, let b := s.blk; let age := chunkAge w.step w.attempt m.step m.attempt; e < 48 ∧ b.eyeExists e = true ∧ b.miswired e = false ∧ b.msgArrived e m = true ∧ b.partOfEye e = some p ∧ b.lastOf p = some l ∧ (l.cut.any (fun c => c.eye == e) = true) ∧ m.dst = l.rank ∧ m.kind = 5 ∧ b.collAt p m.cseq = some x ∧ b.rxFlow x m = some w ∧ age = 1) ∧
    (∃ s : State, ∃ e : Nat, ∃ p : Nat, ∃ m : Msg, ∃ x : CollAt, ∃ l : Last, ∃ w : Flow, let b := s.blk; let age := chunkAge w.step w.attempt m.step m.attempt; e < 48 ∧ b.eyeExists e = true ∧ b.miswired e = false ∧ b.msgArrived e m = true ∧ b.partOfEye e = some p ∧ b.lastOf p = some l ∧ (l.cut.any (fun c => c.eye == e) = true) ∧ m.dst = l.rank ∧ m.kind = 5 ∧ b.collAt p m.cseq = some x ∧ b.rxFlow x m = some w ∧ age = 2) ∧
    (∃ s : State, ∃ e : Nat, ∃ p : Nat, ∃ m : Msg, ∃ x : CollAt, ∃ l : Last, ∃ w : Flow, let b := s.blk; let age := chunkAge w.step w.attempt m.step m.attempt; e < 48 ∧ b.eyeExists e = true ∧ b.miswired e = false ∧ b.msgArrived e m = true ∧ b.partOfEye e = some p ∧ b.lastOf p = some l ∧ (l.cut.any (fun c => c.eye == e) = true) ∧ m.dst = l.rank ∧ m.kind = 5 ∧ b.collAt p m.cseq = some x ∧ b.rxFlow x m = some w ∧ age = 0) ∧
    (∃ s : State, ∃ e : Nat, ∃ p : Nat, ∃ m : Msg, ∃ l : Last, ∃ w : Flow, let b := s.blk; let got := b.eyeTake e (b.takeVc e m.vc); e < 48 ∧ b.eyeExists e = true ∧ b.miswired e = false ∧ b.msgArrived e m = true ∧ b.partOfEye e = some p ∧ b.lastOf p = some l ∧ (l.cut.any (fun c => c.eye == e) = true) ∧ m.dst = l.rank ∧ m.kind = 6 ∧ m.cseq ≠ 0xFFFF ∧ ((got.flowsOf p m.cseq).find? (fun v => !v.recv && v.peer == m.src && decide (chunkAge v.step v.attempt m.step m.attempt = 0) && decide (v.acked < m.words.headD 0) && decide (m.words.headD 0 ≤ v.done)) = some w)) ∧
    (∃ s : State, ∃ e : Nat, ∃ p : Nat, ∃ m : Msg, ∃ l : Last, let b := s.blk; let got := b.eyeTake e (b.takeVc e m.vc); e < 48 ∧ b.eyeExists e = true ∧ b.miswired e = false ∧ b.msgArrived e m = true ∧ b.partOfEye e = some p ∧ b.lastOf p = some l ∧ (l.cut.any (fun c => c.eye == e) = true) ∧ m.dst = l.rank ∧ m.kind = 6 ∧ m.cseq ≠ 0xFFFF ∧ ((∀ v ∈ got.flowsOf p m.cseq, v.recv = false → v.peer = m.src → chunkAge v.step v.attempt m.step m.attempt ≠ 0))) ∧
    (∃ s : State, ∃ e : Nat, ∃ p : Nat, ∃ m : Msg, ∃ l : Last, let b := s.blk; ∃ y, let late := if m.cseq = 0xFFFF then 0 else chunkAge y.ctxOf.1 y.ctxOf.2 m.step m.attempt; e < 48 ∧ b.eyeExists e = true ∧ b.miswired e = false ∧ b.msgArrived e m = true ∧ b.partOfEye e = some p ∧ b.lastOf p = some l ∧ (l.cut.any (fun c => c.eye == e) = true) ∧ m.dst = l.rank ∧ m.kind = 7 ∧ b.part p = some y ∧ late = 1) ∧
    (∃ s : State, ∃ e : Nat, ∃ p : Nat, ∃ m : Msg, ∃ l : Last, let b := s.blk; ∃ y, let late := if m.cseq = 0xFFFF then 0 else chunkAge y.ctxOf.1 y.ctxOf.2 m.step m.attempt; e < 48 ∧ b.eyeExists e = true ∧ b.miswired e = false ∧ b.msgArrived e m = true ∧ b.partOfEye e = some p ∧ b.lastOf p = some l ∧ (l.cut.any (fun c => c.eye == e) = true) ∧ m.dst = l.rank ∧ m.kind = 7 ∧ b.part p = some y ∧ late = 2) ∧
    (∃ s : State, ∃ e : Nat, ∃ p : Nat, ∃ m : Msg, ∃ l : Last, let b := s.blk; ∃ y, let late := if m.cseq = 0xFFFF then 0 else chunkAge y.ctxOf.1 y.ctxOf.2 m.step m.attempt; e < 48 ∧ b.eyeExists e = true ∧ b.miswired e = false ∧ b.msgArrived e m = true ∧ b.partOfEye e = some p ∧ b.lastOf p = some l ∧ (l.cut.any (fun c => c.eye == e) = true) ∧ m.dst = l.rank ∧ m.kind = 7 ∧ b.part p = some y ∧ late = 0 ∧ m.src ≠ l.partner.1) ∧
    (∃ s : State, ∃ e : Nat, ∃ p : Nat, ∃ m : Msg, ∃ l : Last, let b := s.blk; let got := b.eyeTake e (b.takeVc e m.vc); ∃ y, let late := if m.cseq = 0xFFFF then 0 else chunkAge y.ctxOf.1 y.ctxOf.2 m.step m.attempt; e < 48 ∧ b.eyeExists e = true ∧ b.miswired e = false ∧ b.msgArrived e m = true ∧ b.partOfEye e = some p ∧ b.lastOf p = some l ∧ (l.cut.any (fun c => c.eye == e) = true) ∧ m.dst = l.rank ∧ m.kind = 7 ∧ b.part p = some y ∧ late = 0 ∧ m.src = l.partner.1 ∧ m.cseq ≠ 0xFFFF ∧ m.chunk < (got.putRx p m).done ∧ (m.chunk * (((l.putOf m.cseq).map (fun z => z.cblk)).getD 4) + m.blocks.length ≤ l.partner.2.2.2)) ∧
    (∃ s : State, ∃ e : Nat, ∃ p : Nat, ∃ m : Msg, ∃ l : Last, let b := s.blk; ∃ y, e < 48 ∧ b.eyeExists e = true ∧ b.miswired e = false ∧ b.msgArrived e m = true ∧ b.partOfEye e = some p ∧ b.lastOf p = some l ∧ (l.cut.any (fun c => c.eye == e) = true) ∧ m.dst = l.rank ∧ m.kind = 7 ∧ b.part p = some y ∧ m.src = l.partner.1 ∧ m.cseq = 0xFFFF ∧ m.chunk = 0 ∧ m.blocks = []) ∧
    (∃ s : State, ∃ e : Nat, ∃ p : Nat, ∃ m : Msg, ∃ l : Last, let b := s.blk; ∃ c : EyeCut, e < 48 ∧ b.eyeExists e = true ∧ b.miswired e = false ∧ b.msgArrived e m = true ∧ b.partOfEye e = some p ∧ b.lastOf p = some l ∧ (l.cut.any (fun c => c.eye == e) = true) ∧ m.dst = l.rank ∧ (l.cut.find? (fun z => z.eye == e) = some c) ∧ l.gens.getD c.peer 0 ≠ 0 ∧ c.peer ∈ childRanks l.rank l.members) ∧
    (∃ s : State, ∃ e : Nat, ∃ p : Nat, ∃ m : Msg, ∃ l : Last, let b := s.blk; ∃ c : EyeCut, e < 48 ∧ b.eyeExists e = true ∧ b.miswired e = false ∧ b.msgArrived e m = true ∧ b.partOfEye e = some p ∧ b.lastOf p = some l ∧ (l.cut.any (fun c => c.eye == e) = true) ∧ m.dst = l.rank ∧ (l.cut.find? (fun z => z.eye == e) = some c) ∧ l.gens.getD c.peer 0 ≠ 0 ∧ c.peer ∉ childRanks l.rank l.members ∧ c.peer ≠ 0) ∧
    (∃ s : Nat, ∃ s' : Nat, (s + 32768) % 65536 ≠ s' % 65536 ∧ s' < 65536 ∧ s < 65536) ∧
    (∃ k, 0 < k ∧ k < 32768) ∧
    (∃ xs : List (List Byte), ∃ ys : List (List Byte), xs ≠ [] ∧ xs.Perm ys) ∧
    (∃ k : Nat, ∃ xs : List (List Byte), xs ≠ [] ∧ k < 2048) :=
  ⟨⟨(collState reduce1 (coll0) []), 0, 0, 1, (msg 1 1), .contrib 0 (msg 1 1) false, (theColl (collState reduce1 (coll0) [])), (((collState reduce1 (coll0) []).blk.lastOf 0).getD last0), by exact ⟨by decide, by decide +kernel, by decide +kernel, by decide +kernel, by decide +kernel, by decide +kernel, by decide +kernel, by decide +kernel, List.Mem.head _, by decide +kernel, by decide +kernel, by decide +kernel⟩⟩,
   ⟨(collState reduce1 (coll0) [flow0]), 0, 0, 1, ({ msg 1 1 with step := 65535 }), .contrib 0 ({ msg 1 1 with step := 65535 }) false, (theColl (collState reduce1 (coll0) [flow0])), (((collState reduce1 (coll0) [flow0]).blk.lastOf 0).getD last0), flow0, by exact ⟨by decide, by decide +kernel, by decide +kernel, by decide +kernel, by decide +kernel, by decide +kernel, by decide +kernel, by decide +kernel, List.Mem.head _, by decide +kernel, by decide +kernel, by decide +kernel, by decide +kernel, by decide +kernel⟩⟩,
   ⟨(collState reduce1 (coll0) [flow0]), 0, 0, 1, ({ msg 1 1 with step := 1 }), .contrib 0 ({ msg 1 1 with step := 1 }) false, (theColl (collState reduce1 (coll0) [flow0])), (((collState reduce1 (coll0) [flow0]).blk.lastOf 0).getD last0), flow0, by exact ⟨by decide, by decide +kernel, by decide +kernel, by decide +kernel, by decide +kernel, by decide +kernel, by decide +kernel, by decide +kernel, List.Mem.head _, by decide +kernel, by decide +kernel, by decide +kernel, by decide +kernel⟩⟩,
   ⟨(collState reduce1 (coll0) [flow0]), 0, 0, 1, ({ msg 1 1 with aglets := true, blocks := [([], Aglet.pack { pcrc := 0, tag := 0, version := 0, format := 0, flags := 0, epoch := 1, kind := 0, samples := 0 })] }), .contrib 0 ({ msg 1 1 with aglets := true, blocks := [([], Aglet.pack { pcrc := 0, tag := 0, version := 0, format := 0, flags := 0, epoch := 1, kind := 0, samples := 0 })] }) false, (theColl (collState reduce1 (coll0) [flow0])), (((collState reduce1 (coll0) [flow0]).blk.lastOf 0).getD last0), flow0, by exact ⟨by decide, by decide +kernel, by decide +kernel, by decide +kernel, by decide +kernel, by decide +kernel, by decide +kernel, by decide +kernel, List.Mem.head _, by decide +kernel, by decide +kernel, by decide +kernel, by decide +kernel⟩⟩,
   ⟨(collState reduce1 (coll0) [flow0]), 0, 0, 1, (msg 1 1), .contrib 0 (msg 1 1) false, (theColl (collState reduce1 (coll0) [flow0])), (((collState reduce1 (coll0) [flow0]).blk.lastOf 0).getD last0), flow0, by exact ⟨by decide, by decide +kernel, by decide +kernel, by decide +kernel, by decide +kernel, by decide +kernel, by decide +kernel, by decide +kernel, List.Mem.head _, by decide +kernel, by decide +kernel, by decide +kernel, by decide +kernel, by decide +kernel, by decide +kernel⟩⟩,
   ⟨(collState reduce1 (coll0) [{ flow0 with done := 1 }]), 0, 0, 1, (msg 1 1), .contrib 0 (msg 1 1) false, (theColl (collState reduce1 (coll0) [{ flow0 with done := 1 }])), (((collState reduce1 (coll0) [{ flow0 with done := 1 }]).blk.lastOf 0).getD last0), { flow0 with done := 1 }, by exact ⟨by decide, by decide +kernel, by decide +kernel, by decide +kernel, by decide +kernel, by decide +kernel, by decide +kernel, by decide +kernel, List.Mem.head _, by decide +kernel, by decide +kernel, by decide +kernel, by decide +kernel, by decide +kernel, by decide +kernel⟩⟩,
   ⟨(collState reduce1 (coll0) [flow0]), 0, 0, ({ msg 5 1 with step := 65535 }), (theColl (collState reduce1 (coll0) [flow0])), (((collState reduce1 (coll0) [flow0]).blk.lastOf 0).getD last0), flow0, by decide +kernel⟩,
   ⟨(collState reduce1 (coll0) [flow0]), 0, 0, ({ msg 5 1 with step := 1 }), (theColl (collState reduce1 (coll0) [flow0])), (((collState reduce1 (coll0) [flow0]).blk.lastOf 0).getD last0), flow0, by decide +kernel⟩,
   ⟨(collState reduce1 (coll0) [flow0]), 0, 0, (msg 5 1), (theColl (collState reduce1 (coll0) [flow0])), (((collState reduce1 (coll0) [flow0]).blk.lastOf 0).getD last0), flow0, by decide +kernel⟩,
   ⟨(collState reduce1 (coll0) [{ flow0 with recv := false, done := 1 }]), 0, 0, (msg 6 1 [1]), (((collState reduce1 (coll0) [{ flow0 with recv := false, done := 1 }]).blk.lastOf 0).getD last0), { flow0 with recv := false, done := 1 }, by decide +kernel⟩,
   ⟨(collState reduce1 (coll0) [{ flow0 with recv := false, done := 1 }]), 0, 0, ({ msg 6 1 [1] with step := 1 }), (((collState reduce1 (coll0) [{ flow0 with recv := false, done := 1 }]).blk.lastOf 0).getD last0), by decide +kernel⟩,
   ⟨(st ((withOp (withPart ready { collPart reduce1 coll0 [] with puts := [] }) runOp).wf (unitReg (unitId 4 0)) Fld.AWL_UNIT_ROLE 0)), 0, 0, ({ msg 7 1 with step := 65535 }), (((st ((withOp (withPart ready { collPart reduce1 coll0 [] with puts := [] }) runOp).wf (unitReg (unitId 4 0)) Fld.AWL_UNIT_ROLE 0)).blk.lastOf 0).getD last0), (((st ((withOp (withPart ready { collPart reduce1 coll0 [] with puts := [] }) runOp).wf (unitReg (unitId 4 0)) Fld.AWL_UNIT_ROLE 0)).blk.part 0).getD part0), by decide +kernel⟩,
   ⟨(st ((withOp (withPart ready { collPart reduce1 coll0 [] with puts := [] }) runOp).wf (unitReg (unitId 4 0)) Fld.AWL_UNIT_ROLE 0)), 0, 0, ({ msg 7 1 with step := 1 }), (((st ((withOp (withPart ready { collPart reduce1 coll0 [] with puts := [] }) runOp).wf (unitReg (unitId 4 0)) Fld.AWL_UNIT_ROLE 0)).blk.lastOf 0).getD last0), (((st ((withOp (withPart ready { collPart reduce1 coll0 [] with puts := [] }) runOp).wf (unitReg (unitId 4 0)) Fld.AWL_UNIT_ROLE 0)).blk.part 0).getD part0), by decide +kernel⟩,
   ⟨(st ((withOp (withPart ready { collPart reduce1 coll0 [] with puts := [] }) runOp).wf (unitReg (unitId 4 0)) Fld.AWL_UNIT_ROLE 0)), 0, 0, (msg 7 1), (((st ((withOp (withPart ready { collPart reduce1 coll0 [] with puts := [] }) runOp).wf (unitReg (unitId 4 0)) Fld.AWL_UNIT_ROLE 0)).blk.lastOf 0).getD last0), (((st ((withOp (withPart ready { collPart reduce1 coll0 [] with puts := [] }) runOp).wf (unitReg (unitId 4 0)) Fld.AWL_UNIT_ROLE 0)).blk.part 0).getD part0), by decide +kernel⟩,
   ⟨(st ((withOp (withPart ready { collPart reduce1 coll0 [] with puts := [{ cseq := 0, step := 0, attempt := 0, done := 1, held := [] }] }) runOp).wf (unitReg (unitId 4 0)) Fld.AWL_UNIT_ROLE 0)), 0, 0, (msg 7 0), (((st ((withOp (withPart ready { collPart reduce1 coll0 [] with puts := [{ cseq := 0, step := 0, attempt := 0, done := 1, held := [] }] }) runOp).wf (unitReg (unitId 4 0)) Fld.AWL_UNIT_ROLE 0)).blk.lastOf 0).getD last0), (((st ((withOp (withPart ready { collPart reduce1 coll0 [] with puts := [{ cseq := 0, step := 0, attempt := 0, done := 1, held := [] }] }) runOp).wf (unitReg (unitId 4 0)) Fld.AWL_UNIT_ROLE 0)).blk.part 0).getD part0), by decide +kernel⟩,
   ⟨(st ((withOp (withPart ready { collPart reduce1 coll0 [] with puts := [] }) runOp).wf (unitReg (unitId 4 0)) Fld.AWL_UNIT_ROLE 0)), 0, 0, ({ msg 7 0 with cseq := 0xFFFF }), (((st ((withOp (withPart ready { collPart reduce1 coll0 [] with puts := [] }) runOp).wf (unitReg (unitId 4 0)) Fld.AWL_UNIT_ROLE 0)).blk.lastOf 0).getD last0), (((st ((withOp (withPart ready { collPart reduce1 coll0 [] with puts := [] }) runOp).wf (unitReg (unitId 4 0)) Fld.AWL_UNIT_ROLE 0)).blk.part 0).getD part0), by decide +kernel⟩,
   ⟨(collState reduce1 (coll0) []), 0, 0, (msg 0 0), (((collState reduce1 (coll0) []).blk.lastOf 0).getD last0), { eye := 0, peer := 1, axis := 0, alt := 0xFF, weights := 0, tmo := 0, ident := 0 }, by decide +kernel⟩,
   ⟨(st (running (at_ 1) runOp ({ last3 with members := 12, rank := 1, gens := [0, 0, 0, 1], cut := [{ eye := 0, peer := 3, axis := 0, alt := 0xFF, weights := 0, tmo := 0, ident := 0 }] }))), 0, 0, { msg 0 0 with dst := 1 }, ({ last3 with members := 12, rank := 1, gens := [0, 0, 0, 1], cut := [{ eye := 0, peer := 3, axis := 0, alt := 0xFF, weights := 0, tmo := 0, ident := 0 }] }), { eye := 0, peer := 3, axis := 0, alt := 0xFF, weights := 0, tmo := 0, ident := 0 }, by decide +kernel⟩,
   ⟨1, 0, by decide +kernel⟩,
   ⟨32767, by decide +kernel⟩,
   ⟨[[1], [2]], [[2], [1]], by exact ⟨by decide, List.Perm.swap _ _ _⟩⟩,
   ⟨2047, [[]], by decide +kernel⟩⟩

/-- The hypotheses of each clause of Obligations.FlitsAct are met together. -/
theorem witness_FlitsAct :
    (∃ s : State, ∃ e : Nat, ∃ raw : List Byte, ∃ fixed : List Nat, ∃ hd : RxHead, let b := s.blk; let x := b.eye e; e < 48 ∧ hd.ok = true ∧ b.eyeUp e = true ∧ raw.length = 256 ∧ flitDecode raw = (none, fixed) ∧ x.nakOut = false ∧ x.lostSeq = none) ∧
    (∃ s : State, ∃ e : Nat, ∃ raw : List Byte, ∃ ys : List Byte, ∃ fixed : List Nat, ∃ hd : RxHead, let b := s.blk; let h := FlitHead.parse (leNat (ys.take 8)); let b1 := (b.flitSeen e fixed).flitHeader e h.ack h.crVc h.crCnt; let x1 := b1.eye e; let ahead := (h.seq + 4096 - x1.rx) % 4096; e < 48 ∧ hd.ok = true ∧ b.eyeUp e = true ∧ raw.length = 256 ∧ flitDecode raw = (some ys, fixed) ∧ h.typ = 1 ∧ leNat (ys.take 8) < 2 ^ 43 ∧ 2048 ≤ ahead) ∧
    (∃ s : State, ∃ e : Nat, ∃ raw : List Byte, ∃ ys : List Byte, ∃ fixed : List Nat, ∃ hd : RxHead, let b := s.blk; let h := FlitHead.parse (leNat (ys.take 8)); let vc := b.wireVc e h.vc; let d : DataFlit := { vc := vc, som := h.som, eom := h.eom, pay := (ys.drop 8).take 236 }; let b1 := (b.flitSeen e fixed).flitHeader e h.ack h.crVc h.crCnt; let x1 := b1.eye e; let ahead := (h.seq + 4096 - x1.rx) % 4096; let room := x1.room.getD vc 0; let paused := b1.pausing e && bitOf (b1.pauseMask e) vc; e < 48 ∧ hd.ok = true ∧ b.eyeUp e = true ∧ raw.length = 256 ∧ flitDecode raw = (some ys, fixed) ∧ h.typ = 1 ∧ leNat (ys.take 8) < 2 ^ 43 ∧ ahead = 0 ∧ room ≠ 0 ∧ tooLong d = false ∧ ((bitOf x1.skip vc = false ∨ h.som = true)) ∧ paused = false) ∧
    (∃ s : State, ∃ e : Nat, ∃ raw : List Byte, ∃ ys : List Byte, ∃ fixed : List Nat, ∃ hd : RxHead, let b := s.blk; let h := FlitHead.parse (leNat (ys.take 8)); let vc := b.wireVc e h.vc; let d : DataFlit := { vc := vc, som := h.som, eom := h.eom, pay := (ys.drop 8).take 236 }; let b1 := (b.flitSeen e fixed).flitHeader e h.ack h.crVc h.crCnt; let x1 := b1.eye e; let ahead := (h.seq + 4096 - x1.rx) % 4096; let room := x1.room.getD vc 0; let paused := b1.pausing e && bitOf (b1.pauseMask e) vc; e < 48 ∧ hd.ok = true ∧ b.eyeUp e = true ∧ raw.length = 256 ∧ flitDecode raw = (some ys, fixed) ∧ h.typ = 1 ∧ leNat (ys.take 8) < 2 ^ 43 ∧ ahead = 0 ∧ room ≠ 0 ∧ tooLong d = false ∧ ((bitOf x1.skip vc = false ∨ h.som = true)) ∧ paused = true) ∧
    (∃ s : State, ∃ e : Nat, ∃ raw : List Byte, ∃ ys : List Byte, ∃ fixed : List Nat, ∃ hd : RxHead, let b := s.blk; let h := FlitHead.parse (leNat (ys.take 8)); let vc := b.wireVc e h.vc; let b1 := (b.flitSeen e fixed).flitHeader e h.ack h.crVc h.crCnt; let x1 := b1.eye e; let ahead := (h.seq + 4096 - x1.rx) % 4096; let room := x1.room.getD vc 0; e < 48 ∧ hd.ok = true ∧ b.eyeUp e = true ∧ raw.length = 256 ∧ flitDecode raw = (some ys, fixed) ∧ h.typ = 1 ∧ leNat (ys.take 8) < 2 ^ 43 ∧ ahead = 0 ∧ room = 0) ∧
    (∃ s : State, ∃ e : Nat, ∃ seq : Nat, ∃ hd : RxHead, let b := s.blk; let x := b.eye e; let back := ((b.setEye e { x with fresh := x.fresh && decide (seq ≠ 1) }).flitSeen e hd.fix).flitHeader e ((seq + 4095) % 4096) hd.crVc hd.crCnt; let k := (seq + 4096 - (back.eye e).base) % 4096; e < 48 ∧ hd.ok = true ∧ b.eyeUp e = true ∧ seq < 4096 ∧ k < (back.eye e).replay.length) ∧
    (∃ s : State, ∃ e : Nat, ∃ seq : Nat, ∃ hd : RxHead, let b := s.blk; let x := b.eye e; let back := ((b.setEye e { x with fresh := x.fresh && decide (seq ≠ 1) }).flitSeen e hd.fix).flitHeader e ((seq + 4095) % 4096) hd.crVc hd.crCnt; let k := (seq + 4096 - (back.eye e).base) % 4096; e < 48 ∧ hd.ok = true ∧ b.eyeUp e = true ∧ seq < 4096 ∧ (back.eye e).replay.length ≤ k) ∧
    (∃ s : State, ∃ e : Nat, ∃ hd : RxHead, let b := s.blk; let x := b.eye e; e < 48 ∧ hd.ok = true ∧ b.eyeUp e = true ∧ x.replay ≠ []) ∧
    (∃ s : State, ∃ e : Nat, ∃ hd : RxHead, let b := s.blk; let x := b.eye e; e < 48 ∧ hd.ok = true ∧ b.eyeUp e = true ∧ x.replay = []) ∧
    (∃ s : State, ∃ e : Nat, ∃ hd : RxHead, let b := s.blk; let x := b.eye e; ∃ j, e < 48 ∧ hd.ok = true ∧ b.eyeUp e = true ∧ b.coastReady e = false ∧ x.ctrl = [] ∧ x.again = j + 1 ∧ j < x.replay.length) ∧
    (∃ s : State, ∃ e : Nat, ∃ hd : RxHead, let b := s.blk; let x := b.eye e; ∃ c, ∃ cs, e < 48 ∧ hd.ok = true ∧ b.eyeUp e = true ∧ b.coastReady e = false ∧ x.again = 0 ∧ x.replay.length < 1024 ∧ x.ctrl = c :: cs ∧ c.unseq = false) ∧
    (∃ s : State, ∃ e : Nat, ∃ hd : RxHead, let b := s.blk; let x := b.eye e; ∃ f, e < 48 ∧ hd.ok = true ∧ b.eyeUp e = true ∧ b.coastReady e = false ∧ x.again = 0 ∧ x.replay.length < 1024 ∧ x.ctrl = [] ∧ b.ready e 0 = true ∧ (x.recent.filter id).length < 32 ∧ (x.queue.find? (fun g => g.vc == 0) = some f)) ∧
    (∃ s : State, ∃ e : Nat, ∃ hd : RxHead, let b := s.blk; let x := b.eye e; e < 48 ∧ hd.ok = true ∧ b.eyeUp e = true ∧ b.coastReady e = false ∧ x.again = 0 ∧ x.ctrl = [] ∧ x.queue = []) :=
  ⟨⟨(st (eyeBlk 47 5 .new)), 47, (List.replicate 256 1), [], ⟨0, 0, 0, 0, []⟩, by decide +kernel⟩,
   ⟨(st (eyeBlk 47 5 { Eye.new with rx := 2048 })), 47, flit0, flit0, [], ⟨0, 0, 0, 0, []⟩, by exact ⟨by decide, by decide, by decide +kernel, by decide +kernel, test_flit_sound, by decide +kernel, by decide +kernel, by decide +kernel⟩⟩,
   ⟨(st (eyeBlk 47 5 { Eye.new with room := [1] })), 47, flit0, flit0, [], ⟨0, 0, 0, 0, []⟩, by exact ⟨by decide, by decide, by decide +kernel, by decide +kernel, test_flit_sound, by decide +kernel, by decide +kernel, by decide +kernel, by decide +kernel, by decide +kernel, by decide +kernel, by decide +kernel⟩⟩,
   ⟨(st (((eyeBlk 47 6 { Eye.new with room := [1] }).wf ⟨.EYE_PAUSE, 47, 0⟩ Fld.EYE_PAUSE_MASK 1).wf (eyeReg 47) Fld.EYE_STATE_PAUSING 1)), 47, flit0, flit0, [], ⟨0, 0, 0, 0, []⟩, by exact ⟨by decide, by decide, by decide +kernel, by decide +kernel, test_flit_sound, by decide +kernel, by decide +kernel, by decide +kernel, by decide +kernel, by decide +kernel, by decide +kernel, by decide +kernel⟩⟩,
   ⟨(st (eyeBlk 47 5 .new)), 47, flit0, flit0, [], ⟨0, 0, 0, 0, []⟩, by exact ⟨by decide, by decide, by decide +kernel, by decide +kernel, test_flit_sound, by decide +kernel, by decide +kernel, by decide +kernel, by decide +kernel⟩⟩,
   ⟨(st (eyeBlk 47 5 { Eye.new with base := 4095, replay := [.ctrl .hold, .ctrl .hold] })), 47, 0, ⟨0, 0, 0, 0, []⟩, by decide +kernel⟩,
   ⟨(st (eyeBlk 47 5 .new)), 47, 0, ⟨0, 0, 0, 0, []⟩, by decide +kernel⟩,
   ⟨(st (eyeBlk 47 5 { Eye.new with replay := [.ctrl .hold] })), 47, ⟨0, 0, 0, 0, []⟩, by decide +kernel⟩,
   ⟨(st (eyeBlk 47 5 .new)), 47, ⟨0, 0, 0, 0, []⟩, by decide +kernel⟩,
   ⟨(st (eyeBlk 47 5 { Eye.new with again := 1, times := [7], replay := [.ctrl .hold] })), 47, ⟨0, 0, 0, 0, []⟩, 0, by decide +kernel⟩,
   ⟨(st (eyeBlk 47 5 { Eye.new with ctrl := [.hold] })), 47, ⟨0, 0, 0, 0, []⟩, .hold, [], by decide +kernel⟩,
   ⟨(st (eyeBlk 47 5 { Eye.new with queue := [⟨0, true, true, []⟩], cred := [1] })), 47, ⟨0, 0, 0, 0, []⟩, ⟨0, true, true, []⟩, by decide +kernel⟩,
   ⟨(st (eyeBlk 47 5 .new)), 47, ⟨0, 0, 0, 0, []⟩, by decide +kernel⟩⟩

/-- The hypotheses of Obligations.OneWrongByteIsCorrected are met together. -/
theorem witness_OneWrongByteIsCorrected :
    ∃ h : FlitHead, ∃ pay : List Byte, ∃ i : Nat, ∃ v : Byte, let f := flitBytes h pay; pay.length ≤ 236 ∧ i < 256 ∧ v ≠ f.getD i 0 :=
  ⟨flitHead0, (zeros 236), 255, 0, by decide +kernel⟩

/-- The hypotheses of each clause of Obligations.LinkHealthActs are met together. -/
theorem witness_LinkHealthActs :
    (∃ s : State, ∃ e : Nat, ∃ hd : RxHead, let b := s.blk; let g := (b.flitSeen e hd.fix).flitHeader e hd.ack hd.crVc hd.crCnt; let x := g.eye e; e < 48 ∧ hd.ok = true ∧ b.eyeUp e = true ∧ x.hbRx = none) ∧
    (∃ s : State, ∃ e : Nat, ∃ q : Nat, ∃ n : Nat, ∃ hd : RxHead, let b := s.blk; let g := (b.flitSeen e hd.fix).flitHeader e hd.ack hd.crVc hd.crCnt; let x := g.eye e; e < 48 ∧ hd.ok = true ∧ b.eyeUp e = true ∧ x.hbRx = some q ∧ n ≤ q) ∧
    (∃ s : State, ∃ e : Nat, ∃ q : Nat, ∃ n : Nat, ∃ hd : RxHead, let b := s.blk; let g := (b.flitSeen e hd.fix).flitHeader e hd.ack hd.crVc hd.crCnt; let x := g.eye e; e < 48 ∧ hd.ok = true ∧ b.eyeUp e = true ∧ x.hbRx = some q ∧ n = q + 1) ∧
    (∃ s : State, ∃ e : Nat, ∃ q : Nat, ∃ n : Nat, ∃ hd : RxHead, let b := s.blk; let g := (b.flitSeen e hd.fix).flitHeader e hd.ack hd.crVc hd.crCnt; let x := g.eye e; e < 48 ∧ hd.ok = true ∧ b.eyeUp e = true ∧ x.hbRx = some q ∧ q + 1 < n) ∧
    (∃ s : State, ∃ e : Nat, ∃ hd : RxHead, let b := s.blk; e < 48 ∧ hd.ok = true ∧ b.eyeUp e = true ∧ (b.eye e).hold = false) ∧
    (∃ s : State, ∃ e : Nat, ∃ hd : RxHead, let b := s.blk; e < 48 ∧ hd.ok = true ∧ b.eyeUp e = true ∧ (b.eye e).hold = true) ∧
    (∃ s : State, ∃ i : Instr, ∃ e : Nat, ∃ lane : Nat, ∃ mask : Nat, ∃ hd : RxHead, let b := s.blk; let f : RxFlit := ⟨e, hd⟩; let g := (b.flitSeen e hd.fix).flitHeader e hd.ack hd.crVc hd.crCnt; let x := g.eye e; let ahead := (hd.seq + 4096 - x.rx) % 4096; e < 48 ∧ hd.ok = true ∧ b.eyeUp e = true ∧ i ∈ [.pause f (mask % 256), .unpause f, .coastDone f, .hold f, .degrade f (lane % 4) false, .degrade f (lane % 4) true] ∧ 2048 ≤ ahead) ∧
    (∃ s : State, ∃ i : Instr, ∃ e : Nat, ∃ lane : Nat, ∃ mask : Nat, ∃ hd : RxHead, let b := s.blk; let f : RxFlit := ⟨e, hd⟩; let g := (b.flitSeen e hd.fix).flitHeader e hd.ack hd.crVc hd.crCnt; let x := g.eye e; let ahead := (hd.seq + 4096 - x.rx) % 4096; e < 48 ∧ hd.ok = true ∧ b.eyeUp e = true ∧ i ∈ [.pause f (mask % 256), .unpause f, .coastDone f, .hold f, .degrade f (lane % 4) false, .degrade f (lane % 4) true] ∧ 0 < ahead ∧ ahead < 2048 ∧ x.nakOut = false ∧ x.lostSeq = none) ∧
    (∃ s : State, ∃ e : Nat, ∃ lane : Nat, ∃ hd : RxHead, let b := s.blk; let r := eyeReg e; e < 48 ∧ hd.ok = true ∧ b.eyeUp e = true ∧ lane < 4 ∧ b.rf r Fld.EYE_STATE_RX_LANES = 15 ∧ b.rf r Fld.EYE_STATE_REV = 3) ∧
    (∃ s : State, ∃ e : Nat, ∃ lane : Nat, ∃ hd : RxHead, let b := s.blk; let r := eyeReg e; let g := (b.flitSeen e hd.fix).flitHeader e hd.ack hd.crVc hd.crCnt; let x := g.eye e; let ahead := (hd.seq + 4096 - x.rx) % 4096; e < 48 ∧ hd.ok = true ∧ b.eyeUp e = true ∧ ahead = 0 ∧ lane < 4 ∧ b.rf r Fld.EYE_STATE_TX_LANES = 15 ∧ b.rf r Fld.EYE_STATE_REV = 3) ∧
    (∃ s : State, ∃ e : Nat, ∃ lane : Nat, ∃ hd : RxHead, let b := s.blk; let r := eyeReg e; let g := (b.flitSeen e hd.fix).flitHeader e hd.ack hd.crVc hd.crCnt; let x := g.eye e; let ahead := (hd.seq + 4096 - x.rx) % 4096; e < 48 ∧ hd.ok = true ∧ b.eyeUp e = true ∧ ahead = 0 ∧ lane < 4 ∧ b.rf r Fld.EYE_STATE_TX_LANES = 15 ∧ b.rf r Fld.EYE_STATE_REV = 1) ∧
    (∃ s : State, ∃ e : Nat, ∃ mask : Nat, ∃ hd : RxHead, let b := s.blk; let g := (b.flitSeen e hd.fix).flitHeader e hd.ack hd.crVc hd.crCnt; let x := g.eye e; let ahead := (hd.seq + 4096 - x.rx) % 4096; e < 48 ∧ hd.ok = true ∧ b.eyeUp e = true ∧ ahead = 0 ∧ mask < 256) ∧
    (∃ s : State, ∃ e : Nat, ∃ hd : RxHead, let b := s.blk; let g := (b.flitSeen e hd.fix).flitHeader e hd.ack hd.crVc hd.crCnt; let x := g.eye e; let ahead := (hd.seq + 4096 - x.rx) % 4096; e < 48 ∧ hd.ok = true ∧ b.eyeUp e = true ∧ ahead = 0 ∧ b.pausing e = true) ∧
    (∃ s : State, ∃ e : Nat, ∃ hd : RxHead, let b := s.blk; let g := (b.flitSeen e hd.fix).flitHeader e hd.ack hd.crVc hd.crCnt; let x := g.eye e; let ahead := (hd.seq + 4096 - x.rx) % 4096; e < 48 ∧ hd.ok = true ∧ b.eyeUp e = true ∧ ahead = 0 ∧ b.pausing e = false) ∧
    (∃ s : State, ∃ e : Nat, ∃ hd : RxHead, let b := s.blk; let r := eyeReg e; e < 48 ∧ hd.ok = true ∧ b.pausing e = true ∧ b.rf r Fld.EYE_STATE_QUIESCED = 0 ∧ b.rf r Fld.EYE_STATE_PAUSE_TMO = 0) ∧
    (∃ s : State, ∃ e : Nat, ∃ hd : RxHead, let b := s.blk; let r := eyeReg e; e < 48 ∧ hd.ok = true ∧ b.rf r Fld.EYE_STATE_PAUSE_TMO = 1 ∧ b.rf r Fld.EYE_STATE_QUIESCED = 0) ∧
    (∃ s : State, ∃ e : Nat, ∃ hd : RxHead, let b := s.blk; let r := eyeReg e; e < 48 ∧ hd.ok = true ∧ b.pausing e = true ∧ b.rf r Fld.EYE_STATE_QUIESCED = 1) ∧
    (∃ s : State, ∃ e : Nat, ∃ hd : RxHead, let b := s.blk; e < 48 ∧ hd.ok = true ∧ b.eyeUsable e = true) ∧
    (∃ s : State, ∃ e : Nat, ∃ hd : RxHead, let b := s.blk; ∃ p, ∃ y, ∃ w, ∃ l, e < 48 ∧ hd.ok = true ∧ b.partOfEye e = some p ∧ b.eyeUsable e = false ∧ b.part p = some y ∧ y.last = some l ∧ (y.flows.filter (fun (v : Flow) => (decide (v.eye = e) || l.cut.any (fun c => c.eye == e && (c.peer == v.peer || l.relays.contains (v.peer, c.peer)))) && !v.relay && decide (v.state < 5)) = [w])) :=
  ⟨⟨(st (eyeBlk 47 5 .new)), 47, ⟨0, 0, 0, 0, []⟩, by decide +kernel⟩,
   ⟨(st (eyeBlk 47 5 { Eye.new with hbRx := some 3 })), 47, 3, 3, ⟨0, 0, 0, 0, []⟩, by decide +kernel⟩,
   ⟨(st (eyeBlk 47 5 { Eye.new with hbRx := some 3 })), 47, 3, 4, ⟨0, 0, 0, 0, []⟩, by decide +kernel⟩,
   ⟨(st (eyeBlk 47 5 { Eye.new with hbRx := some 3 })), 47, 3, 5, ⟨0, 0, 0, 0, []⟩, by decide +kernel⟩,
   ⟨(st (eyeBlk 47 5 .new)), 47, ⟨0, 0, 0, 0, []⟩, by decide +kernel⟩,
   ⟨(st (eyeBlk 47 5 { Eye.new with hold := true })), 47, ⟨0, 0, 0, 0, []⟩, by decide +kernel⟩,
   ⟨(st (eyeBlk 47 5 { Eye.new with rx := 2048 })), .hold ⟨47, ⟨0, 0, 0, 0, []⟩⟩, 47, 0, 0, ⟨0, 0, 0, 0, []⟩, by exact ⟨by decide, by decide, by decide +kernel, List.Mem.tail _ (List.Mem.tail _ (List.Mem.tail _ (List.Mem.head _))), by decide +kernel⟩⟩,
   ⟨(st (eyeBlk 47 5 { Eye.new with rx := 4095 })), .hold ⟨47, ⟨0, 0, 0, 0, []⟩⟩, 47, 0, 0, ⟨0, 0, 0, 0, []⟩, by exact ⟨by decide, by decide, by decide +kernel, List.Mem.tail _ (List.Mem.tail _ (List.Mem.tail _ (List.Mem.head _))), by decide +kernel, by decide +kernel, by decide +kernel, by decide +kernel⟩⟩,
   ⟨(st (((eyeBlk 47 5).wf (eyeReg 47) Fld.EYE_STATE_RX_LANES 15).wf (eyeReg 47) Fld.EYE_STATE_REV 3)), 47, 3, ⟨0, 0, 0, 0, []⟩, by decide +kernel⟩,
   ⟨(st (((eyeBlk 47 5).wf (eyeReg 47) Fld.EYE_STATE_TX_LANES 15).wf (eyeReg 47) Fld.EYE_STATE_REV 3)), 47, 3, ⟨0, 0, 0, 0, []⟩, by decide +kernel⟩,
   ⟨(st (((eyeBlk 47 5).wf (eyeReg 47) Fld.EYE_STATE_TX_LANES 15).wf (eyeReg 47) Fld.EYE_STATE_REV 1)), 47, 3, ⟨0, 0, 0, 0, []⟩, by decide +kernel⟩,
   ⟨(st (eyeBlk 47 5 .new)), 47, 255, ⟨0, 0, 0, 0, []⟩, by decide +kernel⟩,
   ⟨(st ((eyeBlk 47 5).wf (eyeReg 47) Fld.EYE_STATE_PAUSING 1)), 47, ⟨0, 0, 0, 0, []⟩, by decide +kernel⟩,
   ⟨(st (eyeBlk 47 5 .new)), 47, ⟨0, 0, 0, 0, []⟩, by decide +kernel⟩,
   ⟨(st ((eyeBlk 47 5).wf (eyeReg 47) Fld.EYE_STATE_PAUSING 1)), 47, ⟨0, 0, 0, 0, []⟩, by decide +kernel⟩,
   ⟨(st ((eyeBlk 47 5).wf (eyeReg 47) Fld.EYE_STATE_PAUSE_TMO 1)), 47, ⟨0, 0, 0, 0, []⟩, by decide +kernel⟩,
   ⟨(st (((eyeBlk 47 5).wf (eyeReg 47) Fld.EYE_STATE_PAUSING 1).wf (eyeReg 47) Fld.EYE_STATE_QUIESCED 1)), 47, ⟨0, 0, 0, 0, []⟩, by decide +kernel⟩,
   ⟨(st (eyeBlk 47 5 .new)), 47, ⟨0, 0, 0, 0, []⟩, by decide +kernel⟩,
   ⟨(st { ready with parts := [(0, collPart reduce1 coll0 [flow0])] }), 0, ⟨0, 0, 0, 0, []⟩, 0, (collPart reduce1 coll0 [flow0]), flow0, { last3 with colls := [reduce1], groups := [1 * 2 ^ 16] }, by decide +kernel⟩⟩

/-- The hypotheses of each clause of Obligations.EyeletsTrain are met together. -/
theorem witness_EyeletsTrain :
    (∃ s : State, ∃ e : Nat, ∃ rate : Nat, ∃ hd : RxHead, let b := s.blk; e < 48 ∧ hd.ok = true ∧ b.eyeArmed e = true ∧ ((b.eyeState e = 1 ∨ b.eyeState e = 9 ∨ b.eyeState e = 0)) ∧ rate ≤ 3) ∧
    (∃ s : State, ∃ e : Nat, ∃ rate : Nat, ∃ hd : RxHead, let b := s.blk; let r := eyeReg e; e < 48 ∧ hd.ok = true ∧ b.eyeArmed e = true ∧ b.eyeState e = 8 ∧ ((b.pwr.coolStop = false ∨ b.rf r Fld.EYE_STATE_HOLD_SENT = 0)) ∧ rate ≤ 3) ∧
    (∃ s : State, ∃ e : Nat, ∃ hd : RxHead, let b := s.blk; e < 48 ∧ hd.ok = true ∧ b.eyeState e = 2) ∧
    (∃ s : State, ∃ e : Nat, ∃ hd : RxHead, let b := s.blk; e < 48 ∧ hd.ok = true ∧ b.eyeState e = 3) ∧
    (∃ s : State, ∃ e : Nat, ∃ hd : RxHead, let b := s.blk; e < 48 ∧ hd.ok = true ∧ ((b.eyeState e = 3 ∨ b.eyeState e = 4))) ∧
    (∃ s : State, ∃ e : Nat, ∃ hd : RxHead, let b := s.blk; e < 48 ∧ hd.ok = true ∧ ((b.eyeState e = 3 ∨ b.eyeState e = 4 ∨ b.eyeState e = 7))) ∧
    (∃ s : State, ∃ e : Nat, ∃ tx : Nat, ∃ rx : Nat, ∃ hd : RxHead, let b := s.blk; let r := eyeReg e; e < 48 ∧ hd.ok = true ∧ tx < 16 ∧ rx < 16 ∧ b.eyeState e = 4 ∧ b.rf ⟨.EYE_CFG, e, 0⟩ Fld.EYE_CFG_LANE_OFF = 0 ∧ b.rf r Fld.EYE_STATE_REV = 3 ∧ tx = 15 ∧ rx = 15) ∧
    (∃ s : State, ∃ e : Nat, ∃ tx : Nat, ∃ rx : Nat, ∃ hd : RxHead, let b := s.blk; let r := eyeReg e; e < 48 ∧ hd.ok = true ∧ tx < 16 ∧ rx < 16 ∧ b.eyeState e = 4 ∧ b.rf ⟨.EYE_CFG, e, 0⟩ Fld.EYE_CFG_LANE_OFF = 0 ∧ b.rf r Fld.EYE_STATE_REV = 3 ∧ tx = 15 ∧ maskPop rx 4 = 3) ∧
    (∃ s : State, ∃ e : Nat, ∃ tx : Nat, ∃ rx : Nat, ∃ hd : RxHead, let b := s.blk; let x := b.eye e; let r := eyeReg e; e < 48 ∧ hd.ok = true ∧ tx < 16 ∧ rx < 16 ∧ b.eyeState e = 4 ∧ b.rf ⟨.EYE_CFG, e, 0⟩ Fld.EYE_CFG_LANE_OFF = 0 ∧ b.rf r Fld.EYE_STATE_REV = 3 ∧ maskPop tx 4 < 3 ∧ x.fails < 2) ∧
    (∃ s : State, ∃ e : Nat, ∃ hd : RxHead, let b := s.blk; e < 48 ∧ hd.ok = true ∧ b.eyeState e = 7) ∧
    (∃ s : State, ∃ e : Nat, ∃ hd : RxHead, let b := s.blk; let x := b.eye e; e < 48 ∧ hd.ok = true ∧ ((b.eyeState e = 2 ∨ b.eyeState e = 3 ∨ b.eyeState e = 4)) ∧ x.fails < 2) ∧
    (∃ s : State, ∃ e : Nat, ∃ hd : RxHead, let b := s.blk; let x := b.eye e; e < 48 ∧ hd.ok = true ∧ ((b.eyeState e = 2 ∨ b.eyeState e = 3 ∨ b.eyeState e = 4)) ∧ 2 ≤ x.fails) ∧
    (∃ e : Nat, ∃ n : Nat, ∃ hd : RxHead, e < 48 ∧ hd.ok = true ∧ n < 6) :=
  ⟨⟨(st (({ eyeBlk 47 9  with pins := { ready.pins with cable := [(5, 1)] } }).wf ⟨.EYE_CFG, 47, 0⟩ Fld.EYE_CFG_ENABLE 1)), 47, 3, ⟨0, 0, 0, 0, []⟩, by decide +kernel⟩,
   ⟨(st (({ eyeBlk 47 8 { Eye.new with hold := true } with pins := { ready.pins with cable := [(5, 1)] } }).wf ⟨.EYE_CFG, 47, 0⟩ Fld.EYE_CFG_ENABLE 1)), 47, 3, ⟨0, 0, 0, 0, []⟩, by decide +kernel⟩,
   ⟨(st (eyeBlk 47 2 .new)), 47, ⟨0, 0, 0, 0, []⟩, by decide +kernel⟩,
   ⟨(st (eyeBlk 47 3 .new)), 47, ⟨0, 0, 0, 0, []⟩, by decide +kernel⟩,
   ⟨(st (eyeBlk 47 3 { Eye.new with lock := 63 })), 47, ⟨0, 0, 0, 0, []⟩, by decide +kernel⟩,
   ⟨(st (eyeBlk 47 7 .new)), 47, ⟨0, 0, 0, 0, []⟩, by decide +kernel⟩,
   ⟨(st (((eyeBlk 47 5).wf (eyeReg 47) Fld.EYE_STATE_STATE 4).wf (eyeReg 47) Fld.EYE_STATE_REV 3)), 47, 15, 15, ⟨0, 0, 0, 0, []⟩, by decide +kernel⟩,
   ⟨(st (((eyeBlk 47 5).wf (eyeReg 47) Fld.EYE_STATE_STATE 4).wf (eyeReg 47) Fld.EYE_STATE_REV 3)), 47, 15, 14, ⟨0, 0, 0, 0, []⟩, by decide +kernel⟩,
   ⟨(st ((eyeBlk 47 4 { Eye.new with fails := 1 }).wf (eyeReg 47) Fld.EYE_STATE_REV 3)), 47, 3, 15, ⟨0, 0, 0, 0, []⟩, by decide +kernel⟩,
   ⟨(st (eyeBlk 47 7 .new)), 47, ⟨0, 0, 0, 0, []⟩, by decide +kernel⟩,
   ⟨(st (eyeBlk 47 2 { Eye.new with fails := 1 })), 47, ⟨0, 0, 0, 0, []⟩, by decide +kernel⟩,
   ⟨(st (eyeBlk 47 3 { Eye.new with fails := 2 })), 47, ⟨0, 0, 0, 0, []⟩, by decide +kernel⟩,
   ⟨47, 5, ⟨0, 0, 0, 0, []⟩, by decide +kernel⟩⟩

/-- The hypotheses of each clause of Obligations.DiesAreLostAndReturn are met together. -/
theorem witness_DiesAreLostAndReturn :
    (∃ s : State, ∃ d : Nat, ∃ o : Nat, let b := s.blk; d < 10 ∧ o < 10 ∧ b.up d = true ∧ b.pwr.doze = false ∧ b.pwr.coolStop = false ∧ o ∈ neighbours b.pkg.sku d ∧ b.fenceHeld d o = false ∧ (b.linkActive (fun q => bitOf b.pkg.answered q) d o = true)) ∧
    (∃ s : State, ∃ d : Nat, ∃ o : Nat, let b := s.blk; d < 10 ∧ o < 10 ∧ ((b.pwr.doze = true ∨ b.pwr.coolStop = true))) ∧
    (∃ s : State, ∃ d : Nat, ∃ o : Nat, ∃ n : Nat, ∃ tx : Bool, let b := s.blk; let r : RegRef := ⟨.WLT_MOD_STATE, d, n⟩; let f := if tx then Fld.WLT_MOD_STATE_REPAIRED_TX else Fld.WLT_MOD_STATE_REPAIRED_RX; d < 10 ∧ o < 10 ∧ n < 64 ∧ b.rf r Fld.WLT_MOD_STATE_STATE ≠ 4 ∧ b.rf r Fld.WLT_MOD_STATE_STATE ≠ 0 ∧ b.rf r f < 4) ∧
    (∃ s : State, ∃ d : Nat, ∃ o : Nat, ∃ n : Nat, ∃ tx : Bool, let b := s.blk; let r : RegRef := ⟨.WLT_MOD_STATE, d, n⟩; let f := if tx then Fld.WLT_MOD_STATE_REPAIRED_TX else Fld.WLT_MOD_STATE_REPAIRED_RX; d < 10 ∧ o < 10 ∧ n < 64 ∧ b.rf r Fld.WLT_MOD_STATE_STATE ≠ 4 ∧ b.rf r Fld.WLT_MOD_STATE_STATE ≠ 0 ∧ 4 ≤ b.rf r f) ∧
    (∃ s : State, ∃ d : Nat, ∃ o : Nat, let b := s.blk; d < 10 ∧ o < 10 ∧ b.up o = true ∧ o ≠ d ∧ d ∈ neighbours b.pkg.sku o ∧ b.fenceHeld o d = false ∧ b.pwr.doze = false ∧ b.pwr.coolStop = false ∧ bitOf b.pkg.answered d = true ∧ b.rf ⟨.WLT_HB_CFG, o, 0⟩ Fld.WLT_HB_CFG_MISSES ≤ Sp.get 0 b.pkg.missed (1024 + 16 * o + d)) ∧
    (∃ s : State, ∃ d : Nat, ∃ o : Nat, let b := s.blk; d < 10 ∧ o < 10 ∧ Sp.get 0 b.pkg.missed (1024 + 16 * o + d) < b.rf ⟨.WLT_HB_CFG, o, 0⟩ Fld.WLT_HB_CFG_MISSES) ∧
    (∃ s : State, ∃ d : Nat, ∃ o : Nat, let b := s.blk; d < 10 ∧ o < 10 ∧ o ≠ d ∧ b.up o = true ∧ b.fenceHeld o d = false ∧ ((∃ q, q < 10 ∧ q ≠ d ∧ b.fenceHeld q d = true))) ∧
    (∃ s : State, ∃ d : Nat, ∃ o : Nat, let b := s.blk; d < 10 ∧ o < 10 ∧ b.fenceHeld o d = true) ∧
    (∃ s : State, ∃ d : Nat, ∃ o : Nat, let b := s.blk; d < 10 ∧ o < 10 ∧ b.pkg.routeDue = false) ∧
    (∃ s : State, ∃ d : Nat, ∃ o : Nat, let b := s.blk; d < 10 ∧ o < 10 ∧ b.pkg.routeDue = true ∧ b.up o = true ∧ d ≠ o ∧ b.up d = false) ∧
    (∃ s : State, ∃ d : Nat, ∃ o : Nat, let b := s.blk; d < 10 ∧ o < 10 ∧ d < 4 ∧ bitOf b.pkg.lost d = true ∧ bitOf b.pkg.rejoined d = false ∧ b.master ≠ d) ∧
    (∃ s : State, ∃ d : Nat, ∃ o : Nat, let b := s.blk; d < 10 ∧ o < 10 ∧ ((4 ≤ d ∨ bitOf b.pkg.lost d = false))) ∧
    (∃ s : State, ∃ d : Nat, ∃ o : Nat, ∃ w : Nat, let b := s.blk; d < 10 ∧ o < 10 ∧ d < 4 ∧ bitOf b.pkg.lost d = true ∧ bitOf b.pkg.rejoined d = false ∧ b.identFits d w = true ∧ b.sec.loadsOk 5 = true) ∧
    (∃ s : State, ∃ d : Nat, ∃ o : Nat, ∃ w : Nat, let b := s.blk; d < 10 ∧ o < 10 ∧ d < 4 ∧ bitOf b.pkg.lost d = true ∧ bitOf b.pkg.rejoined d = false ∧ ((b.identFits d w = false ∨ b.sec.loadsOk 5 = false))) ∧
    (∃ s : State, ∃ d : Nat, ∃ o : Nat, let b := s.blk; d < 10 ∧ o < 10 ∧ b.mayAdmit d = true) ∧
    (∃ s : State, ∃ d : Nat, ∃ o : Nat, let b := s.blk; d < 10 ∧ o < 10 ∧ b.mayAdmit d = false) ∧
    (∃ s : State, ∃ d : Nat, ∃ o : Nat, let b := s.blk; d < 10 ∧ o < 10 ∧ d < 4 ∧ bitOf b.pkg.lost d = true ∧ bitOf b.pkg.rejoined d = false ∧ bitOf b.pkg.late d = false ∧ b.parts = []) ∧
    (∃ s : State, ∃ d : Nat, ∃ o : Nat, ∃ p : Nat, ∃ x : Part, let b := s.blk; d < 10 ∧ o < 10 ∧ d < 4 ∧ bitOf b.pkg.lost d = true ∧ bitOf b.pkg.rejoined d = false ∧ bitOf b.pkg.late d = false ∧ b.parts = [(p, x)] ∧ x.onDie d = true ∧ x.loaded = true ∧ x.step.state ≠ 0) ∧
    (∃ s : State, ∃ d : Nat, ∃ o : Nat, let b := s.blk; d < 10 ∧ o < 10 ∧ bitOf b.pkg.rejoined d = true) :=
  ⟨⟨(st ({ ((ready.wf ⟨.WLT_MOD_STATE, 9, 0⟩ Fld.WLT_MOD_STATE_STATE 2).wf ⟨.WLT_MOD_STATE, 1, 16⟩ Fld.WLT_MOD_STATE_STATE 2) with pkg := { ready.pkg with answered := 0x3FF } })), 9, 1, by decide +kernel⟩,
   ⟨(st { ready with pwr := { ready.pwr with doze := true } }), 0, 0, by decide +kernel⟩,
   ⟨(st (ready.wf ⟨.WLT_MOD_STATE, 9, 63⟩ Fld.WLT_MOD_STATE_STATE 1)), 9, 0, 63, false, by decide +kernel⟩,
   ⟨(st ((ready.wf ⟨.WLT_MOD_STATE, 9, 63⟩ Fld.WLT_MOD_STATE_STATE 1).wf ⟨.WLT_MOD_STATE, 9, 63⟩ Fld.WLT_MOD_STATE_REPAIRED_RX 4)), 9, 0, 63, false, by decide +kernel⟩,
   ⟨(st { ready with pkg := { ready.pkg with answered := 0x3FF, missed := [(1024 + 16 * 9 + 1, 15)] } }), 1, 9, by decide +kernel⟩,
   ⟨(st (ready.wf ⟨.WLT_HB_CFG, 9, 0⟩ Fld.WLT_HB_CFG_MISSES 1)), 8, 9, by decide +kernel⟩,
   ⟨(st (ready.wn ⟨.WLT_FENCE, 8, 0⟩ 1)), 0, 9, by exact ⟨by decide, by decide, by decide, by decide +kernel, by decide +kernel, 8, by decide, by decide, by decide +kernel⟩⟩,
   ⟨(st (ready.wn ⟨.WLT_FENCE, 9, 0⟩ 1)), 0, 9, by decide +kernel⟩,
   ⟨(st ready), 0, 0, by decide +kernel⟩,
   ⟨(st { few with pkg := { few.pkg with routeDue := true } }), 9, 4, by decide +kernel⟩,
   ⟨(st { ready with pkg := { ready.pkg with lost := 8 } }), 3, 0, by decide +kernel⟩,
   ⟨(st ready), 4, 0, by decide +kernel⟩,
   ⟨(st { ready with pkg := { ready.pkg with lost := 8, serials := [(3, 4)] } }), 3, 0, (bornIdent 3).toNat, by decide +kernel⟩,
   ⟨(st { ready with pkg := { ready.pkg with lost := 8 } }), 3, 0, 0, by decide +kernel⟩,
   ⟨(st { ready with pkg := { ready.pkg with lost := 8, rejoined := 8 } }), 3, 0, by decide +kernel⟩,
   ⟨(st ready), 3, 0, by decide +kernel⟩,
   ⟨(st { ready with parts := [], pkg := { ready.pkg with lost := 8 } }), 3, 0, by decide +kernel⟩,
   ⟨(st { running (at_ 1) with pkg := { ready.pkg with lost := 1 } }), 0, 0, 0, { part0 with loaded := true, last := some last0, step := at_ 1 }, by decide +kernel⟩,
   ⟨(st { ready with pkg := { ready.pkg with rejoined := 8 } }), 3, 0, by decide +kernel⟩⟩

/-- The hypotheses of each clause of Obligations.MasterAndSeat are met together. -/
theorem witness_MasterAndSeat :
    (∃ s : State, ∃ d : Nat, ∃ o : Nat, ∃ edge : Nat, let b := s.blk; d < 10 ∧ o < 10 ∧ edge < 4 ∧ b.fenced d = true) ∧
    (∃ s : State, ∃ d : Nat, ∃ o : Nat, ∃ edge : Nat, let b := s.blk; d < 10 ∧ o < 10 ∧ edge < 4 ∧ o ∈ b.liveDies ∧ o ≠ d ∧ b.fenced o = false ∧ b.fenced d = false) ∧
    (∃ s : State, ∃ d : Nat, ∃ o : Nat, ∃ edge : Nat, let b := s.blk; let silent : Blk := { b with pkg := { b.pkg with missed := Sp.set 0 b.pkg.missed (16 * o + d) 3 } }; let ahead := (discoveryOrder.take (discRank o)).filter (fun x => bitOf b.pkg.answered x && !b.fenced x); d < 10 ∧ o < 10 ∧ edge < 4 ∧ ((b.up o = false ∨ b.master = o ∨ silent.silentTo o b.master = false ∨ ∃ x ∈ ahead, silent.silentTo o x = false))) ∧
    (∃ s : State, ∃ d : Nat, ∃ o : Nat, ∃ edge : Nat, let b := s.blk; let silent : Blk := { b with pkg := { b.pkg with missed := Sp.set 0 b.pkg.missed (16 * o + d) 3 } }; let ahead := (discoveryOrder.take (discRank o)).filter (fun x => bitOf b.pkg.answered x && !b.fenced x); d < 10 ∧ o < 10 ∧ edge < 4 ∧ b.up o = true ∧ b.master ≠ o ∧ silent.silentTo o b.master = true ∧ ((∀ x ∈ ahead, silent.silentTo o x = true))) ∧
    (∃ s : State, ∃ d : Nat, ∃ o : Nat, ∃ edge : Nat, let b := s.blk; d < 10 ∧ o < 10 ∧ edge < 4 ∧ b.up d = true ∧ b.master ≠ d ∧ b.allAheadSilent d = true ∧ b.silentTo d b.master = true) ∧
    (∃ s : State, ∃ d : Nat, ∃ o : Nat, ∃ edge : Nat, let b := s.blk; ∃ e, d < 10 ∧ o < 10 ∧ edge < 4 ∧ b.up d = true ∧ b.master ≠ d ∧ b.allAheadSilent d = true ∧ b.silentTo d b.master = false ∧ b.pkg.claimed = e + 1 ∧ discRank d < discRank e) ∧
    (∃ s : State, ∃ d : Nat, ∃ o : Nat, ∃ edge : Nat, let b := s.blk; ∃ e, d < 10 ∧ o < 10 ∧ edge < 4 ∧ b.up d = true ∧ b.master ≠ d ∧ b.allAheadSilent d = true ∧ b.silentTo d b.master = false ∧ b.pkg.claimed = e + 1 ∧ discRank e < discRank d) ∧
    (∃ s : State, ∃ d : Nat, ∃ o : Nat, ∃ edge : Nat, let b := s.blk; d < 10 ∧ o < 10 ∧ edge < 4 ∧ b.allAheadSilent d = false) ∧
    (∃ s : State, ∃ d : Nat, ∃ o : Nat, ∃ edge : Nat, let b := s.blk; d < 10 ∧ o < 10 ∧ edge < 4 ∧ b.seatLive = false) ∧
    (∃ s : State, ∃ d : Nat, ∃ o : Nat, ∃ edge : Nat, ∃ a : Nat, ∃ xs : List Byte, let b := s.blk; d < 10 ∧ o < 10 ∧ edge < 4 ∧ b.seatLive = true ∧ b.inAperture a xs.length = false) ∧
    (∃ s : State, ∃ d : Nat, ∃ o : Nat, ∃ edge : Nat, ∃ a : Nat, ∃ n : Nat, let b := s.blk; d < 10 ∧ o < 10 ∧ edge < 4 ∧ b.seatLive = true ∧ b.inAperture a n = false) ∧
    (∃ s : State, ∃ d : Nat, ∃ o : Nat, ∃ edge : Nat, ∃ a : Nat, ∃ n : Nat, let b := s.blk; d < 10 ∧ o < 10 ∧ edge < 4 ∧ b.seatLive = true ∧ b.inAperture a n = true) ∧
    (∃ s : State, ∃ d : Nat, ∃ o : Nat, ∃ edge : Nat, ∃ n : Nat, let b := s.blk; d < 10 ∧ o < 10 ∧ edge < 4 ∧ b.seatLive = true ∧ 8 ≤ n) ∧
    (∃ s : State, ∃ d : Nat, ∃ o : Nat, ∃ edge : Nat, ∃ n : Nat, let b := s.blk; d < 10 ∧ o < 10 ∧ edge < 4 ∧ b.seatLive = true ∧ n < 8) ∧
    (∃ s : State, ∃ d : Nat, ∃ o : Nat, ∃ edge : Nat, ∃ a : Nat, ∃ xs : List Byte, let b := s.blk; d < 10 ∧ o < 10 ∧ edge < 4 ∧ b.seatLive = true ∧ b.inAperture a xs.length = true ∧ a % 4096 + xs.length ≤ 4096) :=
  ⟨⟨(st (ready.wf ⟨.IDENT_PRESENT, 0, 0⟩ Fld.IDENT_PRESENT_FENCED 512)), 9, 8, 3, by decide +kernel⟩,
   ⟨(st { ready with pkg := { ready.pkg with answered := 0x3FF } }), 9, 8, 3, by decide +kernel⟩,
   ⟨(st ready), 0, 4, 0, by decide +kernel⟩,
   ⟨(st ready), 4, 0, 0, by decide +kernel⟩,
   ⟨(st { ready with pkg := { ready.pkg with missed := [(16 * 9 + 4, 3)] } }), 9, 0, 0, by decide +kernel⟩,
   ⟨(st { (ready.wf ⟨.IDENT_MASTER, 0, 0⟩ Fld.IDENT_MASTER_POSITION 0) with pkg := { (ready.wf ⟨.IDENT_MASTER, 0, 0⟩ Fld.IDENT_MASTER_POSITION 0).pkg with missed := [], claimed := 10 } }), 4, 0, 0, 9, by decide +kernel⟩,
   ⟨(st { ready with pkg := { ready.pkg with missed := [], claimed := 5 } }), 9, 0, 0, 4, by decide +kernel⟩,
   ⟨(st { ready with pkg := { ready.pkg with answered := 0x3FF } }), 9, 0, 0, by decide +kernel⟩,
   ⟨(st ready), 0, 0, 0, by decide +kernel⟩,
   ⟨(st seated), 0, 0, 0, 0, [], by decide +kernel⟩,
   ⟨(st seated), 0, 0, 0, 4096, 4097, by decide +kernel⟩,
   ⟨(st seated), 0, 0, 0, 4096, 4096, by decide +kernel⟩,
   ⟨(st seated), 0, 0, 0, 8, by decide +kernel⟩,
   ⟨(st seated), 0, 0, 0, 7, by decide +kernel⟩,
   ⟨(st seated), 0, 0, 0, 8191, [1], by decide +kernel⟩⟩

/-- The hypotheses of each clause of Obligations.HbmCommandsAct are met together. -/
theorem witness_HbmCommandsAct :
    (∃ s : State, ∃ fw : Bool, ∃ blk : Nat, ∃ pay : List Byte, let b := s.blk; let at_ := mapBlock b.chanList (if fw then hbmD else 0) (if fw then 256 else hbmD) blk; at_ = none ∧ pay.length = 4096) ∧
    (∃ s : State, ∃ fw : Bool, ∃ blk : Nat, ∃ pc : Nat, ∃ loc : Nat, ∃ pay : List Byte, let b := s.blk; let at_ := mapBlock b.chanList (if fw then hbmD else 0) (if fw then 256 else hbmD) blk; at_ = some (pc, loc) ∧ b.pcFenced pc = true ∧ pay.length = 4096) ∧
    (∃ s : State, ∃ fw : Bool, ∃ blk : Nat, ∃ pc : Nat, ∃ loc : Nat, ∃ pay : List Byte, let b := s.blk; let at_ := mapBlock b.chanList (if fw then hbmD else 0) (if fw then 256 else hbmD) blk; at_ = some (pc, loc) ∧ b.pcFenced pc = false ∧ pc < 1536 ∧ loc < 2 ^ 18 ∧ pay.length = 4096) ∧
    (∃ s : State, ∃ pc : Nat, ∃ x : RepairRec, let b := s.blk; pc < 1536 ∧ (b.hbm.due.find? (fun z => rowPc z.row == pc) = some x) ∧ b.relayRunning = false ∧ b.pcFenced pc = false) ∧
    (∃ s : State, ∃ pc : Nat, let b := s.blk; pc < 1536 ∧ ((b.hbm.due.find? (fun z => rowPc z.row == pc) = none ∨ b.relayRunning = true))) ∧
    (∃ st : Nat, st < 24) ∧
    (∃ s : State, ∃ pc : Nat, let b := s.blk; b.rf ⟨.HBM_SCRUB_CFG, pcDie pc, 0⟩ Fld.HBM_SCRUB_CFG_ENABLE = 1 ∧ b.chanList.contains pc = true ∧ b.pcFenced pc = false) ∧
    (∃ s : State, ∃ pc : Nat, let b := s.blk; b.rf ⟨.HBM_SCRUB_CFG, pcDie pc, 0⟩ Fld.HBM_SCRUB_CFG_ENABLE = 0) ∧
    (∃ s : State, ∃ a : Nat, let b := s.blk; b.op a = none) ∧
    (∃ cl : Nat, ∃ a : Nat, cl < 36 ∧ a < 2 ^ 27) :=
  ⟨⟨(st ready), true, 2 ^ 40, (zeros 4096), by decide +kernel⟩,
   ⟨(st (ready.wf ⟨.IDENT_PRESENT, 0, 0⟩ Fld.IDENT_PRESENT_FENCED 16)), false, 0, 0, 0, (zeros 4096), by decide +kernel⟩,
   ⟨(st ready), false, 0, 0, 0, (zeros 4096), by decide +kernel⟩,
   ⟨(st { ready with hbm := { ready.hbm with due := [{ row := 0, action := 1, hard := false }] } }), 0, { row := 0, action := 1, hard := false }, by decide +kernel⟩,
   ⟨(st ready), 1535, by decide +kernel⟩,
   ⟨23, by decide +kernel⟩,
   ⟨(st (ready.wf ⟨.HBM_SCRUB_CFG, pcDie 0, 0⟩ Fld.HBM_SCRUB_CFG_ENABLE 1)), 0, by decide +kernel⟩,
   ⟨(st (ready.wf ⟨.HBM_SCRUB_CFG, pcDie 1535, 0⟩ Fld.HBM_SCRUB_CFG_ENABLE 0)), 1535, by decide +kernel⟩,
   ⟨(st ready), 256, by decide +kernel⟩,
   ⟨35, 2 ^ 27 - 1, by decide +kernel⟩⟩

/-- The hypotheses of each clause of Obligations.FaultManagementActs are met together. -/
theorem witness_FaultManagementActs :
    (∃ s : State, ∃ cl : Nat, ∃ u : Nat, let b := s.blk; cl < 36 ∧ unitNo u = true ∧ slotGet b.cores.samples cl = none) ∧
    (∃ s : State, ∃ cl : Nat, ∃ u : Nat, ∃ w : WitSign, ∃ x : WitSample, let b := s.blk; cl < 36 ∧ unitNo u = true ∧ slotGet b.cores.samples cl = some x ∧ w ≠ .residue ∧ x.closed = false) ∧
    (∃ s : State, ∃ cl : Nat, ∃ u : Nat, ∃ w : WitSign, ∃ x : WitSample, let b := s.blk; let done := (b.witEnd cl).bump ⟨.WIT_SAMPLED, cl, 0⟩; cl < 36 ∧ unitNo u = true ∧ slotGet b.cores.samples cl = some x ∧ w ≠ .residue ∧ x.closed = true ∧ done.witFails cl x = false) ∧
    (∃ s : State, ∃ cl : Nat, ∃ u : Nat, ∃ w : WitSign, ∃ x : WitSample, let b := s.blk; let done := (b.witEnd cl).bump ⟨.WIT_SAMPLED, cl, 0⟩; cl < 36 ∧ unitNo u = true ∧ slotGet b.cores.samples cl = some x ∧ w ≠ .residue ∧ x.closed = true ∧ done.witFails cl x = true) ∧
    (∃ s : State, ∃ cl : Nat, ∃ i : Nat, ∃ j : Nat, ∃ u : Nat, let b := s.blk; cl < 36 ∧ unitNo u = true ∧ i < 5 ∧ b.role (clUnit cl i) = roActive ∧ b.spareOf cl = some j) ∧
    (∃ s : State, ∃ cl : Nat, ∃ i : Nat, ∃ u : Nat, let b := s.blk; cl < 36 ∧ unitNo u = true ∧ i < 5 ∧ b.spareOf cl = none) ∧
    (∃ s : State, ∃ cl : Nat, ∃ u : Nat, let b := s.blk; cl < 36 ∧ unitNo u = true ∧ (b.units.queue.find? (fun z => z.unit == u) = none)) ∧
    (∃ s : State, ∃ cl : Nat, ∃ u : Nat, ∃ t : TestReq, let b := s.blk; cl < 36 ∧ unitNo u = true ∧ (b.units.queue.find? (fun z => z.unit == u) = some t) ∧ b.role u ≠ roFailed ∧ b.clusterWorks (unitCluster u) = false ∧ b.mustDefer t = false ∧ b.testMay t = true ∧ b.sec.loadsOk (awlSection u) = true) ∧
    (∃ s : State, ∃ cl : Nat, ∃ u : Nat, ∃ t : TestReq, let b := s.blk; cl < 36 ∧ unitNo u = true ∧ (b.units.queue.find? (fun z => z.unit == u) = some t) ∧ b.role u ≠ roFailed ∧ b.clusterWorks (unitCluster u) = false ∧ b.mustDefer t = false ∧ b.testMay t = true ∧ b.sec.loadsOk (awlSection u) = false) ∧
    (∃ s : State, ∃ cl : Nat, ∃ u : Nat, ∃ t : TestReq, let b := s.blk; cl < 36 ∧ unitNo u = true ∧ (b.units.queue.find? (fun z => z.unit == u) = some t) ∧ b.role u ≠ roFailed ∧ b.mustDefer t = true ∧ t.deferred = false) ∧
    (∃ s : State, ∃ cl : Nat, ∃ u : Nat, ∃ t : TestReq, let b := s.blk; cl < 36 ∧ unitNo u = true ∧ (b.units.queue.find? (fun z => z.unit == u) = some t) ∧ b.role u ≠ roFailed ∧ b.mustDefer t = true ∧ t.deferred = true) ∧
    (∃ s : State, ∃ cl : Nat, ∃ u : Nat, let b := s.blk; cl < 36 ∧ unitNo u = true ∧ (b.units.running.find? (fun z => z.unit == u) = none)) ∧
    (∃ s : State, ∃ cl : Nat, ∃ u : Nat, ∃ t : TestReq, let b := s.blk; cl < 36 ∧ unitNo u = true ∧ (b.units.running.find? (fun z => z.unit == u) = some t) ∧ 4 ≤ unitDie u ∧ t.prevRole ≠ roIdle) ∧
    (∃ s : State, ∃ cl : Nat, ∃ u : Nat, ∃ t : TestReq, let b := s.blk; cl < 36 ∧ unitNo u = true ∧ (b.units.running.find? (fun z => z.unit == u) = some t) ∧ b.role u ≠ roFailed) ∧
    (∃ s : State, ∃ cl : Nat, ∃ u : Nat, let b := s.blk; cl < 36 ∧ unitNo u = true ∧ 0 < b.rf (unitReg u) Fld.AWL_UNIT_FAULTS) ∧
    (∃ s : State, ∃ cl : Nat, ∃ u : Nat, let b := s.blk; cl < 36 ∧ unitNo u = true ∧ slotGet b.units.drain u = none) ∧
    (∃ s : State, ∃ cl : Nat, ∃ i : Nat, ∃ u : Nat, ∃ w1 : Nat, ∃ w2 : Nat, let b := s.blk; let table := Sp.get 6 b.units.table u; cl < 36 ∧ unitNo u = true ∧ slotGet b.units.drain u = some i ∧ (b.units.regWait.filter (fun z => z.1 == u) = []) ∧ w1 = w2 ∧ w1 = table ∧ b.unitBusy u = false) ∧
    (∃ s : State, ∃ cl : Nat, ∃ i : Nat, ∃ u : Nat, ∃ w1 : Nat, ∃ w2 : Nat, let b := s.blk; let table := Sp.get 6 b.units.table u; cl < 36 ∧ unitNo u = true ∧ slotGet b.units.drain u = some i ∧ (b.units.regWait.filter (fun z => z.1 == u) = []) ∧ w1 = w2 ∧ w1 = table ∧ b.unitBusy u = true) ∧
    (∃ s : State, ∃ cl : Nat, ∃ i : Nat, ∃ u : Nat, ∃ w1 : Nat, ∃ w2 : Nat, let b := s.blk; let table := Sp.get 6 b.units.table u; cl < 36 ∧ unitNo u = true ∧ slotGet b.units.drain u = some i ∧ (b.units.regWait.filter (fun z => z.1 == u) = []) ∧ ((w1 ≠ w2 ∨ w1 ≠ table))) ∧
    (∃ s : State, ∃ cl : Nat, ∃ i : Nat, ∃ j : Nat, ∃ u : Nat, ∃ g : RegRef, let b := s.blk; cl < 36 ∧ unitNo u = true ∧ slotGet b.units.drain u = some i ∧ b.unitBusy u = false ∧ (b.units.regWait.filter (fun z => z.1 == u) = [(u, g, j)]) ∧ b.rn g = j % 2 ^ g.name.row.width) ∧
    (∃ s : State, ∃ cl : Nat, ∃ i : Nat, ∃ j : Nat, ∃ u : Nat, ∃ g : RegRef, let b := s.blk; cl < 36 ∧ unitNo u = true ∧ slotGet b.units.drain u = some i ∧ b.unitBusy u = false ∧ (b.units.regWait.filter (fun z => z.1 == u) = [(u, g, j)]) ∧ b.rn g ≠ j % 2 ^ g.name.row.width) :=
  ⟨⟨(st ready), 35, 9, by decide +kernel⟩,
   ⟨(st { ready with cores := { ready.cores with samples := [(35, { closed with closed := false })] } }), 35, 9, .sound, { closed with closed := false }, by decide +kernel⟩,
   ⟨(st { ready with cores := { ready.cores with samples := [(35, closed)] } }), 35, 9, .sound, closed, by decide +kernel⟩,
   ⟨(st { ready with cores := { ready.cores with samples := [(35, { closed with arith := 3, final := [(0, 1)] })] } }), 35, 9, .sound, { closed with arith := 3, final := [(0, 1)] }, by decide +kernel⟩,
   ⟨(st ((ready.wf (unitReg (clUnit 35 0)) Fld.AWL_UNIT_ROLE 0).wf (unitReg (clUnit 35 4)) Fld.AWL_UNIT_ROLE 1)), 35, 0, 4, 9, by decide +kernel⟩,
   ⟨(st ready), 35, 4, 9, by decide +kernel⟩,
   ⟨(st ready), 0, 3 + 16 * 143, by decide +kernel⟩,
   ⟨(st { ready with units := { ready.units with queue := [⟨9, .command, 0, false, false⟩] } }), 0, 9, ⟨9, .command, 0, false, false⟩, by decide +kernel⟩,
   ⟨(st { ({ ready with sec := { ready.sec with booted := 0, nor := Mem.cells (slotBase 0 + 16) (leBytes 4 1) ++ Mem.cells (slotBase 0 + 32) (leBytes 8 6) ++ Mem.cells (slotBase 0 + 48) [1] } } : Blk) with units := { ({ ready with sec := { ready.sec with booted := 0, nor := Mem.cells (slotBase 0 + 16) (leBytes 4 1) ++ Mem.cells (slotBase 0 + 32) (leBytes 8 6) ++ Mem.cells (slotBase 0 + 48) [1] } } : Blk).units with queue := [⟨9, .command, 0, false, false⟩] } }), 0, 9, ⟨9, .command, 0, false, false⟩, by decide +kernel⟩,
   ⟨(st { deferring with units := { deferring.units with queue := [⟨clUnit 0 0, .command, 0, false, false⟩] } }), 0, clUnit 0 0, ⟨clUnit 0 0, .command, 0, false, false⟩, by decide +kernel⟩,
   ⟨(st { deferring with units := { deferring.units with queue := [⟨clUnit 0 0, .command, 0, true, false⟩] } }), 0, clUnit 0 0, ⟨clUnit 0 0, .command, 0, true, false⟩, by decide +kernel⟩,
   ⟨(st ready), 0, 9, by decide +kernel⟩,
   ⟨(st { ready with units := { ready.units with running := [⟨9, .command, 0, false, false⟩] } }), 0, 9, ⟨9, .command, 0, false, false⟩, by decide +kernel⟩,
   ⟨(st { ready with units := { ready.units with running := [⟨9, .command, 0, false, false⟩] } }), 0, 9, ⟨9, .command, 0, false, false⟩, by decide +kernel⟩,
   ⟨(st (ready.wf (unitReg 9) Fld.AWL_UNIT_FAULTS 1)), 0, 9, by decide +kernel⟩,
   ⟨(st ready), 0, 9, by decide +kernel⟩,
   ⟨(st { ready with units := { ready.units with drain := [(9, 0)] } }), 0, 0, 9, 6, 6, by decide +kernel⟩,
   ⟨(st { ready with units := { ready.units with drain := [(clUnit 0 0, 0)] }, seq := { ready.seq with flights := [flight 0] } }), 0, 0, clUnit 0 0, 6, 6, by decide +kernel⟩,
   ⟨(st { ready with units := { ready.units with drain := [(9, 0)] } }), 0, 0, 9, 6, 0, by decide +kernel⟩,
   ⟨(st { ready with units := { ready.units with drain := [(9, 0)], regWait := [(9, qReg 0 0, 0)] } }), 0, 0, 0, 9, (qReg 0 0), by decide +kernel⟩,
   ⟨(st { ready with units := { ready.units with drain := [(9, 0)], regWait := [(9, qReg 0 0, 1)] } }), 0, 0, 1, 9, (qReg 0 0), by decide +kernel⟩⟩

/-- The hypotheses of each clause of Obligations.TwinsAndSecuringAct are met together. -/
theorem witness_TwinsAndSecuringAct :
    (∃ s : State, ∃ e : Nat, ∃ p : Nat, ∃ m : Msg, ∃ l : Last, ∃ x : Part, let b := s.blk; let got := b.eyeTake e (b.takeVc e m.vc); let ver := m.words.headD 0; let ks := triples m.words.length (m.words.drop 1); let ours := e < 48 ∧ b.eyeExists e = true ∧ b.miswired e = false ∧ b.msgArrived e m = true ∧ b.partOfEye e = some p ∧ l.cut.any (fun c => c.eye == e) = true ∧ m.dst = l.rank; ∃ xs, p < 8 ∧ b.part p = some x ∧ x.last = some l ∧ ours ∧ m.kind = kindTwinAsk ∧ got.twinBlocks p ver ks = some xs) ∧
    (∃ s : State, ∃ e : Nat, ∃ p : Nat, ∃ m : Msg, ∃ l : Last, ∃ x : Part, let b := s.blk; let got := b.eyeTake e (b.takeVc e m.vc); let ver := m.words.headD 0; let ks := triples m.words.length (m.words.drop 1); let ours := e < 48 ∧ b.eyeExists e = true ∧ b.miswired e = false ∧ b.msgArrived e m = true ∧ b.partOfEye e = some p ∧ l.cut.any (fun c => c.eye == e) = true ∧ m.dst = l.rank; p < 8 ∧ b.part p = some x ∧ x.last = some l ∧ ours ∧ m.kind = kindTwinAsk ∧ got.twinBlocks p ver ks = none ∧ got.twinBlocks p ((ver + 65535) % 65536) ks = none) ∧
    (∃ s : State, ∃ e : Nat, ∃ p : Nat, ∃ m : Msg, ∃ l : Last, ∃ x : Part, let b := s.blk; let ours := e < 48 ∧ b.eyeExists e = true ∧ b.miswired e = false ∧ b.msgArrived e m = true ∧ b.partOfEye e = some p ∧ l.cut.any (fun c => c.eye == e) = true ∧ m.dst = l.rank; p < 8 ∧ b.part p = some x ∧ x.last = some l ∧ ours ∧ m.kind = kindTwin ∧ (x.twins.find? (fun (y : TwinAsk) => y.words == m.words.drop 1 && y.ranks.head? == some m.src) = none)) ∧
    (∃ s : State, ∃ e : Nat, ∃ p : Nat, ∃ m : Msg, ∃ l : Last, ∃ x : Part, ∃ a : TwinAsk, let b := s.blk; let got := b.eyeTake e (b.takeVc e m.vc); let ver := m.words.headD 0; let ys := m.blocks.map blockOf; let ours := e < 48 ∧ b.eyeExists e = true ∧ b.miswired e = false ∧ b.msgArrived e m = true ∧ b.partOfEye e = some p ∧ l.cut.any (fun c => c.eye == e) = true ∧ m.dst = l.rank; p < 8 ∧ b.part p = some x ∧ x.last = some l ∧ ours ∧ m.kind = kindTwin ∧ (x.twins.find? (fun (y : TwinAsk) => y.words == m.words.drop 1 && y.ranks.head? == some m.src) = some a) ∧ ver = 1 ∧ ys.length = a.items.length ∧ ((∀ z ∈ a.items.zip ys, (z.2.check (got.expectOf p z.1.2.1 z.1.2.2.1 a.ver)).1 = .ok))) ∧
    (∃ s : State, ∃ e : Nat, ∃ p : Nat, ∃ m : Msg, ∃ l : Last, ∃ x : Part, let b := s.blk; let ours := e < 48 ∧ b.eyeExists e = true ∧ b.miswired e = false ∧ b.msgArrived e m = true ∧ b.partOfEye e = some p ∧ l.cut.any (fun c => c.eye == e) = true ∧ m.dst = l.rank; p < 8 ∧ b.part p = some x ∧ x.last = some l ∧ ours ∧ m.kind = kindUnusable ∧ l.buddy = m.src) ∧
    (∃ s : State, ∃ e : Nat, ∃ p : Nat, ∃ m : Msg, ∃ l : Last, ∃ x : Part, let b := s.blk; let ours := e < 48 ∧ b.eyeExists e = true ∧ b.miswired e = false ∧ b.msgArrived e m = true ∧ b.partOfEye e = some p ∧ l.cut.any (fun c => c.eye == e) = true ∧ m.dst = l.rank; p < 8 ∧ b.part p = some x ∧ x.last = some l ∧ ours ∧ m.kind = kindUnusable ∧ l.buddy ≠ m.src) ∧
    (∃ s : State, ∃ e : Nat, ∃ p : Nat, ∃ m : Msg, ∃ l : Last, ∃ x : Part, let b := s.blk; let ours := e < 48 ∧ b.eyeExists e = true ∧ b.miswired e = false ∧ b.msgArrived e m = true ∧ b.partOfEye e = some p ∧ l.cut.any (fun c => c.eye == e) = true ∧ m.dst = l.rank; p < 8 ∧ b.part p = some x ∧ x.last = some l ∧ ours ∧ m.kind = kindReport) ∧
    (∃ s : State, ∃ p : Nat, ∃ l : Last, ∃ x : Part, let b := s.blk; p < 8 ∧ b.part p = some x ∧ x.last = some l ∧ x.securing = none) ∧
    (∃ s : State, ∃ p : Nat, ∃ l : Last, ∃ x : Part, ∃ q : Securing, let b := s.blk; p < 8 ∧ b.part p = some x ∧ x.last = some l ∧ x.securing = some q ∧ q.read = true ∧ q.layers % 2 = 1 ∧ q.partner = false ∧ q.pFail = false ∧ q.chunks ≤ q.acked ∧ ((q.op ≠ 0 ∨ x.secNext = []))) ∧
    (∃ s : State, ∃ p : Nat, ∃ l : Last, ∃ x : Part, ∃ q : Securing, let b := s.blk; p < 8 ∧ b.part p = some x ∧ x.last = some l ∧ x.securing = some q ∧ q.acked < q.chunks) ∧
    (∃ s : State, ∃ p : Nat, ∃ l : Last, ∃ x : Part, ∃ q : Securing, let b := s.blk; p < 8 ∧ b.part p = some x ∧ x.last = some l ∧ x.securing = some q ∧ q.read = true ∧ 2 ≤ q.layers ∧ q.flash = false ∧ q.fFail = false ∧ ((q.op ≠ 0 ∨ x.secNext = []))) ∧
    (∃ s : State, ∃ p : Nat, ∃ l : Last, ∃ x : Part, ∃ q : Securing, let b := s.blk; p < 8 ∧ b.part p = some x ∧ x.last = some l ∧ x.securing = some q ∧ q.read = false ∧ q.layers = 1 ∧ q.partner = false ∧ q.pFail = false ∧ ((∀ t ∈ l.secured, ∀ at_, b.tensorAt p t.2 = some at_ → ∀ i, i < at_.2 → ∀ y, b.hbmGet (at_.1 + i) = some y → (y.check (b.expectOf p t.1.tag t.1.kind (b.versionOf p t.1.tag))).1 = .ok))) :=
  ⟨⟨twinState, 0, 0, (msg kindTwinAsk 1 [0, 0, 0, 0]), lastT, (securing0 (none) [] lastT), [⟨zeros 4096, aglet0⟩], by exact ⟨by decide, by decide +kernel, rfl, by decide +kernel, rfl, twin_block⟩⟩,
   ⟨(st (withPart ready (securing0 (none) [] last3))), 0, 0, (msg kindTwinAsk 1 [0, 0, 0, 0]), last3, (securing0 (none) [] last3), by decide +kernel⟩,
   ⟨(st (withPart ready (securing0 (none) [] last3))), 0, 0, (msg kindTwin 1 [1]), last3, (securing0 (none) [] last3), by decide +kernel⟩,
   ⟨(st (withPart ready (securing0 (none) [twin0] last3))), 0, 0, (msg kindTwin 1 (1 :: twin0.words)), last3, (securing0 (none) [twin0] last3), twin0, by decide +kernel⟩,
   ⟨(st (withPart ready (securing0 (none) [] last3))), 0, 0, (msg kindUnusable 0), last3, (securing0 (none) [] last3), by decide +kernel⟩,
   ⟨(st (withPart ready (securing0 (none) [] last3))), 0, 0, (msg kindUnusable 1), last3, (securing0 (none) [] last3), by decide +kernel⟩,
   ⟨(st (withPart ready (securing0 (none) [] last3))), 0, 0, (msg kindReport 1), last3, (securing0 (none) [] last3), by decide +kernel⟩,
   ⟨(st (withPart ready (securing0 (none) [] last3))), 0, last3, (securing0 (none) [] last3), by decide +kernel⟩,
   ⟨(st (withPart ready (securing0 (some q0) [] last3))), 0, last3, (securing0 (some q0) [] last3), q0, by decide +kernel⟩,
   ⟨(st (withPart ready (securing0 (some { q0 with chunks := 1 }) [] last3))), 0, last3, (securing0 (some { q0 with chunks := 1 }) [] last3), { q0 with chunks := 1 }, by decide +kernel⟩,
   ⟨(st (withPart ready (securing0 (some q0) [] last3))), 0, last3, (securing0 (some q0) [] last3), q0, by decide +kernel⟩,
   ⟨(st (withPart ready (securing0 (some { q0 with read := false, layers := 1 }) [] last3))), 0, last3, (securing0 (some { q0 with read := false, layers := 1 }) [] last3), { q0 with read := false, layers := 1 }, by exact ⟨by decide, by decide +kernel, rfl, rfl, rfl, rfl, rfl, rfl, fun t ht => no_secured t ht _⟩⟩⟩

/-- The hypotheses of each clause of Obligations.InputAndCapperAct are met together. -/
theorem witness_InputAndCapperAct :
    (∃ s : State, let b := s.blk; (100 ≤ b.pwr.underUs ∨ 10 ≤ b.pwr.overUs)) ∧
    (∃ s : State, let b := s.blk; b.pwr.underUs < 100 ∧ b.pwr.overUs < 10) ∧
    (∃ s : State, let b := s.blk; b.setPoint ≠ 0) ∧
    (∃ s : State, ∃ avg : Nat, let b := s.blk; b.rf (pwrReg .PWR_CAP_CFG) Fld.PWR_CAP_CFG_TRIM = 1 ∧ b.capMw < avg ∧ b.pwr.trimOff + (avg - b.capMw) ≤ b.capBound) ∧
    (∃ s : State, ∃ avg : Nat, let b := s.blk; b.rf (pwrReg .PWR_CAP_CFG) Fld.PWR_CAP_CFG_TRIM = 1 ∧ avg * 100 ≤ b.capMw * 98) ∧
    (∃ s : State, ∃ avg : Nat, let b := s.blk; b.rf (pwrReg .PWR_CAP_CFG) Fld.PWR_CAP_CFG_TRIM = 1 ∧ b.capMw * 98 < avg * 100 ∧ avg ≤ b.capMw) ∧
    (∃ s : State, let b := s.blk; b.rf (pwrReg .PWR_CAP_CFG) Fld.PWR_CAP_CFG_TRIM = 0) ∧
    (∃ model : Nat, model ≠ 0) ∧
    (∃ core : Nat, core < 180) ∧
    (∃ k, k ≤ 64) :=
  ⟨⟨(st { ready with pwr := { ready.pwr with underUs := 100 } }), by decide +kernel⟩,
   ⟨(st { ready with pwr := { ready.pwr with underUs := 99, overUs := 9 } }), by decide +kernel⟩,
   ⟨(st { ready with pwr := { ready.pwr with inputMv := 54000 } }), by decide +kernel⟩,
   ⟨(st ({ ready with pwr := { ready.pwr with inputMv := 54000 } }.wf (pwrReg .PWR_CAP_CFG) Fld.PWR_CAP_CFG_TRIM 1)), 3800001, by decide +kernel⟩,
   ⟨(st ({ ready with pwr := { ready.pwr with inputMv := 54000 } }.wf (pwrReg .PWR_CAP_CFG) Fld.PWR_CAP_CFG_TRIM 1)), 3724000, by decide +kernel⟩,
   ⟨(st ({ ready with pwr := { ready.pwr with inputMv := 54000 } }.wf (pwrReg .PWR_CAP_CFG) Fld.PWR_CAP_CFG_TRIM 1)), 3800000, by decide +kernel⟩,
   ⟨(st (ready.wf (pwrReg .PWR_CAP_CFG) Fld.PWR_CAP_CFG_TRIM 0)), by decide +kernel⟩,
   ⟨1, by decide +kernel⟩,
   ⟨179, by decide +kernel⟩,
   ⟨64, by decide +kernel⟩⟩

/-- The hypotheses of each clause of Obligations.DroopsAndPoints are met together. -/
theorem witness_DroopsAndPoints :
    (∃ s : State, ∃ cl : Nat, ∃ d : Nat, let b := s.blk; cl < 36 ∧ d < 10 ∧ Sp.get 0 b.pwr.droop cl = 1) ∧
    (∃ s : State, ∃ cl : Nat, ∃ d : Nat, let b := s.blk; cl < 36 ∧ d < 10 ∧ Sp.get 0 b.pwr.droop cl ≠ 1) ∧
    (∃ s : State, ∃ cl : Nat, ∃ d : Nat, let b := s.blk; cl < 36 ∧ d < 10 ∧ Sp.get 0 b.pwr.droop cl = 2) ∧
    (∃ s : State, ∃ cl : Nat, ∃ d : Nat, let b := s.blk; cl < 36 ∧ d < 10 ∧ Sp.get 0 b.pwr.droop cl ≠ 2) ∧
    (∃ s : State, ∃ cl : Nat, ∃ d : Nat, let b := s.blk; let r := clkReg d; cl < 36 ∧ d < 10 ∧ ((b.dieDroops d = true ∨ b.up d = false ∨ b.rf r Fld.CLK_STATE_PLL_LOCK = 0))) ∧
    (∃ s : State, ∃ cl : Nat, ∃ d : Nat, let b := s.blk; let r := clkReg d; let moves := b.rf r Fld.CLK_STATE_CHANGING = 1 ∨ (b.rf r Fld.CLK_STATE_PENDING = 1 ∧ b.opMay d = true); cl < 36 ∧ d < 10 ∧ ¬ moves) ∧
    (∃ s : State, ∃ cl : Nat, ∃ d : Nat, let b := s.blk; let r := clkReg d; let f := b.rf r Fld.CLK_STATE_FREQ; let t := b.rf r Fld.CLK_STATE_TARGET; let moves := b.rf r Fld.CLK_STATE_CHANGING = 1 ∨ (b.rf r Fld.CLK_STATE_PENDING = 1 ∧ b.opMay d = true); cl < 36 ∧ d < 10 ∧ b.dieDroops d = false ∧ b.up d = true ∧ b.rf r Fld.CLK_STATE_PLL_LOCK = 1 ∧ moves ∧ f < opMhz t ∧ ((4 ≤ d ∨ opMv t ≤ b.mvOf d))) ∧
    (∃ s : State, ∃ cl : Nat, ∃ d : Nat, let b := s.blk; let r := clkReg d; let f := b.rf r Fld.CLK_STATE_FREQ; let t := b.rf r Fld.CLK_STATE_TARGET; let moves := b.rf r Fld.CLK_STATE_CHANGING = 1 ∨ (b.rf r Fld.CLK_STATE_PENDING = 1 ∧ b.opMay d = true); cl < 36 ∧ d < 10 ∧ b.dieDroops d = false ∧ b.up d = true ∧ b.rf r Fld.CLK_STATE_PLL_LOCK = 1 ∧ moves ∧ f < opMhz t ∧ d < 4 ∧ b.mvOf d < opMv t) ∧
    (∃ s : State, ∃ cl : Nat, ∃ d : Nat, let b := s.blk; let r := clkReg d; let f := b.rf r Fld.CLK_STATE_FREQ; let t := b.rf r Fld.CLK_STATE_TARGET; let moves := b.rf r Fld.CLK_STATE_CHANGING = 1 ∨ (b.rf r Fld.CLK_STATE_PENDING = 1 ∧ b.opMay d = true); cl < 36 ∧ d < 10 ∧ b.dieDroops d = false ∧ b.up d = true ∧ b.rf r Fld.CLK_STATE_PLL_LOCK = 1 ∧ moves ∧ opMhz t < f) ∧
    (∃ s : State, ∃ cl : Nat, ∃ d : Nat, let b := s.blk; let r := clkReg d; let f := b.rf r Fld.CLK_STATE_FREQ; let t := b.rf r Fld.CLK_STATE_TARGET; let moves := b.rf r Fld.CLK_STATE_CHANGING = 1 ∨ (b.rf r Fld.CLK_STATE_PENDING = 1 ∧ b.opMay d = true); cl < 36 ∧ d < 10 ∧ b.dieDroops d = false ∧ b.up d = true ∧ b.rf r Fld.CLK_STATE_PLL_LOCK = 1 ∧ moves ∧ f = opMhz t ∧ d < 4 ∧ opMv t < b.mvOf d) :=
  ⟨⟨(st { ready with pwr := { ready.pwr with droop := [(35, 1)] } }), 35, 0, by decide +kernel⟩,
   ⟨(st ready), 35, 0, by decide +kernel⟩,
   ⟨(st { ready with pwr := { ready.pwr with droop := [(35, 2)] } }), 35, 0, by decide +kernel⟩,
   ⟨(st { ready with pwr := { ready.pwr with droop := [(35, 1)] } }), 35, 0, by decide +kernel⟩,
   ⟨(st { ready with pwr := { ready.pwr with droop := [(35, 1)] } }), 0, 3, by decide +kernel⟩,
   ⟨(st ready), 0, 9, by decide +kernel⟩,
   ⟨(st (((((ready).wf (clkReg 9) Fld.CLK_STATE_FREQ 825).wf (clkReg 9) Fld.CLK_STATE_TARGET 0).wf (clkReg 9) Fld.CLK_STATE_CHANGING 1).wf (clkReg 9) Fld.CLK_STATE_PLL_LOCK 1)), 0, 9, by decide +kernel⟩,
   ⟨(st ((((({ ready with pwr := { ready.pwr with mv := [(3, 790)] } }).wf (clkReg 3) Fld.CLK_STATE_FREQ 825).wf (clkReg 3) Fld.CLK_STATE_TARGET 0).wf (clkReg 3) Fld.CLK_STATE_CHANGING 1).wf (clkReg 3) Fld.CLK_STATE_PLL_LOCK 1)), 0, 3, by decide +kernel⟩,
   ⟨(st (((((ready).wf (clkReg 3) Fld.CLK_STATE_FREQ 850).wf (clkReg 3) Fld.CLK_STATE_TARGET 4).wf (clkReg 3) Fld.CLK_STATE_CHANGING 1).wf (clkReg 3) Fld.CLK_STATE_PLL_LOCK 1)), 0, 3, by decide +kernel⟩,
   ⟨(st (((((ready).wf (clkReg 3) Fld.CLK_STATE_FREQ 350).wf (clkReg 3) Fld.CLK_STATE_TARGET 4).wf (clkReg 3) Fld.CLK_STATE_CHANGING 1).wf (clkReg 3) Fld.CLK_STATE_PLL_LOCK 1)), 0, 3, by decide +kernel⟩⟩

/-- The hypotheses of each clause of Obligations.ThermalPhasesAndGating are met together. -/
theorem witness_ThermalPhasesAndGating :
    (∃ xs : List (Nat × Nat), ∃ d : Nat, ∃ rail : Nat, ∃ cl : Nat, ∃ k, ∃ t, d < 10 ∧ rail < 4 ∧ cl < 36 ∧ (k, t) ∈ xs ∧ ((∀ y ∈ xs, y.1 = k → y.2 = t)) ∧ ((∀ y ∈ xs, y.1 < 82 ∧ y.2 < 256)) ∧ k < 48) ∧
    (∃ s : State, ∃ d : Nat, ∃ rail : Nat, ∃ cl : Nat, let b := s.blk; d < 10 ∧ rail < 4 ∧ cl < 36 ∧ b.tooHot = true) ∧
    (∃ s : State, ∃ d : Nat, ∃ rail : Nat, ∃ cl : Nat, let b := s.blk; d < 10 ∧ rail < 4 ∧ cl < 36 ∧ b.tooHot = false ∧ b.coolBy 5 = true) ∧
    (∃ s : State, ∃ d : Nat, ∃ rail : Nat, ∃ cl : Nat, let b := s.blk; d < 10 ∧ rail < 4 ∧ cl < 36 ∧ b.tooHot = false ∧ b.coolBy 5 = false) ∧
    (∃ s : State, ∃ d : Nat, ∃ rail : Nat, ∃ cl : Nat, let b := s.blk; d < 10 ∧ rail < 4 ∧ cl < 36 ∧ b.stage < 5) ∧
    (∃ s : State, ∃ d : Nat, ∃ rail : Nat, ∃ cl : Nat, let b := s.blk; d < 10 ∧ rail < 4 ∧ cl < 36 ∧ 5 ≤ b.stage ∧ b.pwr.coolStop = true) ∧
    (∃ s : State, ∃ d : Nat, ∃ rail : Nat, ∃ cl : Nat, let b := s.blk; d < 10 ∧ rail < 4 ∧ cl < 36 ∧ 5 ≤ b.stage ∧ b.pwr.coolStop = false) ∧
    (∃ s : State, ∃ d : Nat, ∃ rail : Nat, ∃ cl : Nat, let b := s.blk; d < 10 ∧ rail < 4 ∧ cl < 36 ∧ ((b.pwr.coolStop = false ∨ b.pwr.wait = true ∨ (b.pwr.tripped = true ∧ b.coolBy 10 = false)))) ∧
    (∃ s : State, ∃ d : Nat, ∃ rail : Nat, ∃ cl : Nat, let b := s.blk; d < 10 ∧ rail < 4 ∧ cl < 36 ∧ b.pwr.coolStop = true ∧ b.pwr.wait = false ∧ ((b.pwr.tripped = false ∨ b.coolBy 10 = true))) ∧
    (∃ s : State, ∃ d : Nat, ∃ rail : Nat, ∃ cl : Nat, let b := s.blk; let live := b.rf ⟨.PWR_PHASES, d, 0⟩ (railFld rail); d < 10 ∧ rail < 4 ∧ cl < 36 ∧ live = 0) ∧
    (∃ s : State, ∃ d : Nat, ∃ rail : Nat, ∃ cl : Nat, let b := s.blk; let live := b.rf ⟨.PWR_PHASES, d, 0⟩ (railFld rail); d < 10 ∧ rail < 4 ∧ cl < 36 ∧ 0 < live) ∧
    (∃ s : State, ∃ d : Nat, ∃ rail : Nat, ∃ cl : Nat, let b := s.blk; d < 10 ∧ rail < 4 ∧ cl < 36 ∧ b.up (clDie cl) = true ∧ b.rf ⟨.CLK_GATE_CFG, clDie cl, 0⟩ Fld.CLK_GATE_CFG_ENABLE = 1 ∧ b.clusterIdle cl = true) ∧
    (∃ s : State, ∃ d : Nat, ∃ rail : Nat, ∃ cl : Nat, let b := s.blk; d < 10 ∧ rail < 4 ∧ cl < 36 ∧ ((b.rf ⟨.CLK_GATE_CFG, clDie cl, 0⟩ Fld.CLK_GATE_CFG_ENABLE = 0 ∨ b.clusterIdle cl = false))) ∧
    (∃ s : State, ∃ d : Nat, ∃ rail : Nat, ∃ cl : Nat, let b := s.blk; d < 10 ∧ rail < 4 ∧ cl < 36 ∧ b.gated cl = true) ∧
    (∃ s : State, ∃ d : Nat, ∃ rail : Nat, ∃ cl : Nat, let b := s.blk; d < 10 ∧ rail < 4 ∧ cl < 36 ∧ b.gated cl = false) ∧
    (∃ s : State, ∃ d : Nat, ∃ rail : Nat, ∃ cl : Nat, let b := s.blk; d < 10 ∧ rail < 4 ∧ cl < 36 ∧ b.pwr.doze = true ∧ b.pwr.waking = true ∧ b.asleep = []) :=
  ⟨⟨[(47, 95)], 9, 3, 35, 47, 95, by decide +kernel⟩,
   ⟨(st (ready.wf (pwrReg .PWR_THERM_STAT) Fld.PWR_THERM_STAT_HOT_J 255)), 9, 3, 35, by decide +kernel⟩,
   ⟨(st ready), 9, 3, 35, by decide +kernel⟩,
   ⟨(st ((ready.wf (pwrReg .PWR_THERM_CFG) Fld.PWR_THERM_CFG_THROTTLE_C 100).wf (pwrReg .PWR_THERM_STAT) Fld.PWR_THERM_STAT_HOT_J 96)), 9, 3, 35, by decide +kernel⟩,
   ⟨(st (ready.setStage 4)), 9, 3, 35, by decide +kernel⟩,
   ⟨(st { ready with pwr := { ready.pwr with coolStop := true } }), 9, 3, 35, by decide +kernel⟩,
   ⟨(st ready), 9, 3, 35, by decide +kernel⟩,
   ⟨(st ready), 9, 3, 35, by decide +kernel⟩,
   ⟨(st { ready with pwr := { ready.pwr with coolStop := true } }), 9, 3, 35, by decide +kernel⟩,
   ⟨(st (ready.wf ⟨.PWR_PHASES, 9, 0⟩ (railFld 3) 0)), 9, 3, 35, by decide +kernel⟩,
   ⟨(st (ready.wf ⟨.PWR_PHASES, 9, 0⟩ (railFld 3) 1)), 9, 3, 35, by decide +kernel⟩,
   ⟨(st (ready.wf ⟨.CLK_GATE_CFG, 3, 0⟩ Fld.CLK_GATE_CFG_ENABLE 1)), 9, 3, 35, by decide +kernel⟩,
   ⟨(st (ready.wf ⟨.CLK_GATE_CFG, 3, 0⟩ Fld.CLK_GATE_CFG_ENABLE 0)), 9, 3, 35, by decide +kernel⟩,
   ⟨(st (ready.wn ⟨.CLK_GATED, 3, 0⟩ 256)), 9, 3, 35, by decide +kernel⟩,
   ⟨(st (ready.wn ⟨.CLK_GATED, 3, 0⟩ 0)), 9, 3, 35, by decide +kernel⟩,
   ⟨(st { ready with pwr := { ready.pwr with doze := true, waking := true } }), 9, 3, 35, by decide +kernel⟩⟩

/-- The hypotheses of each clause of Obligations.StartUpStages are met together. -/
theorem witness_StartUpStages :
    (∃ s : State, ∃ mv : Nat, let b := s.blk; b.pwr.vshank = false ∧ 44000 ≤ mv ∧ mv ≤ 60000) ∧
    (∃ s : State, ∃ mv : Nat, let b := s.blk; ((b.pwr.vshank = true ∨ mv < 44000 ∨ 60000 < mv))) ∧
    (∃ s : State, ∃ failed : List (Nat × Nat), let b := s.blk; let k := b.pkg.sku; ∃ d, b.stage = 0 ∧ b.pwr.vshank = true ∧ d < 10 ∧ k.populated d = true ∧ (((d, 0) ∈ failed ∨ (d, 1) ∈ failed ∨ (d, 2) ∈ failed))) ∧
    (∃ s : State, let b := s.blk; b.stage ≠ 0) ∧
    (∃ s : State, let b := s.blk; b.stage ≠ 1) ∧
    (∃ s : State, ∃ slot : Nat, ∃ fails : List (Nat × Nat × Nat), let b := s.blk; let start : RegRef := ⟨.IDENT_START, 0, 0⟩; let cold := decide (b.rf start Fld.IDENT_START_CAUSE < 3); b.stage = 1 ∧ bitOf b.pkg.answered iod0 = true ∧ (b.sec.candidates cold).head? = some slot ∧ (fails.find? (fun x => x.1 == slot) = none)) ∧
    (∃ s : State, let b := s.blk; let start : RegRef := ⟨.IDENT_START, 0, 0⟩; let cold := decide (b.rf start Fld.IDENT_START_CAUSE < 3); b.stage = 1 ∧ bitOf b.pkg.answered iod0 = true ∧ b.sec.candidates cold = []) ∧
    (∃ s : State, let b := s.blk; b.stage = 1 ∧ bitOf b.pkg.answered iod0 = false) ∧
    (∃ s : State, let b := s.blk; b.stage ≠ 2) ∧
    (∃ s : State, ∃ ans : Nat, let b := s.blk; let k := b.pkg.sku; b.stage = 2 ∧ ((∀ d, d < 10 → b.posCode d = d)) ∧ ((∀ d, d < 10 → k.populated d = true → bitOf ans d = true ∧ bitOf b.pkg.answered d = true ∧ idKind (b.identWord d) = kindOf d)) ∧ ((∀ d, d < 10 → bitOf ans d = k.populated d)) ∧ ((∀ d, d < 10 → k.populated d = true → idMajor (b.identWord d) = idMajor (b.identWord iod0)))) ∧
    (∃ s : State, ∃ ans : Nat, let b := s.blk; let k := b.pkg.sku; ∃ d, b.stage = 2 ∧ ((∀ d, d < 10 → b.posCode d = d)) ∧ ((∀ d, d < 10 → k.populated d = true → bitOf ans d = true ∧ bitOf b.pkg.answered d = true ∧ idKind (b.identWord d) = kindOf d)) ∧ ((∀ d, d < 10 → bitOf ans d = k.populated d)) ∧ d < 10 ∧ k.populated d = true ∧ idMajor (b.identWord d) ≠ idMajor (b.identWord iod0)) ∧
    (∃ s : State, ∃ ans : Nat, let b := s.blk; b.stage = 2 ∧ bitOf ans iod0 = false ∧ bitOf ans 0 = true ∧ bitOf b.pkg.answered 0 = true ∧ idKind (b.identWord 0) = 1) ∧
    (∃ s : State, let b := s.blk; b.stage ≠ 3) ∧
    (∃ s : State, let b := s.blk; b.stage = 3) ∧
    (∃ s : State, let b := s.blk; b.stage = 4 ∧ bitOf b.pkg.done 0 = false) ∧
    (∃ s : State, let b := s.blk; ((b.stage ≠ 4 ∨ bitOf b.pkg.done 0 = true))) ∧
    (∃ s : State, let b := s.blk; b.stage = 4 ∧ bitOf b.pkg.done 1 = false) ∧
    (∃ s : State, let b := s.blk; ((b.stage ≠ 4 ∨ bitOf b.pkg.done 1 = true))) ∧
    (∃ s : State, let b := s.blk; b.stage = 4 ∧ b.pkg.done = 3 ∧ b.pins.coolantOk = true) ∧
    (∃ s : State, let b := s.blk; ((b.stage ≠ 4 ∨ b.pkg.done ≠ 3))) ∧
    (∃ s : State, let b := s.blk; b.sec.watchdog = false) ∧
    (∃ s : State, let b := s.blk; b.sec.watchdog = true ∧ b.runLive = false) :=
  ⟨⟨(st (Blk.blank .c4s24)), 54000, by decide +kernel⟩,
   ⟨(st ready), 60001, by decide +kernel⟩,
   ⟨(st { (Blk.blank .c4s24) with pwr := { (Blk.blank .c4s24).pwr with vshank := true } }), [(9, 2)], 9, by decide +kernel⟩,
   ⟨(st ready), by decide +kernel⟩,
   ⟨(st ready), by decide +kernel⟩,
   ⟨(st { (Blk.blank .c4s24).setStage 1 with sec := { Sec.born with selA := { Selector.none with active := 0 } }, pkg := { (Blk.blank .c4s24).pkg with answered := 0x3FF } }), 0, [], by decide +kernel⟩,
   ⟨(st { (Blk.blank .c4s24).setStage 1 with pkg := { (Blk.blank .c4s24).pkg with answered := 0x3FF } }), by decide +kernel⟩,
   ⟨(st ((Blk.blank .c4s24).setStage 1)), by decide +kernel⟩,
   ⟨(st ready), by decide +kernel⟩,
   ⟨(st { (Blk.blank .c4s24).setStage 2 with pkg := { (Blk.blank .c4s24).pkg with answered := 0x3FF } }), 0x3FF, by decide +kernel⟩,
   ⟨(st { (Blk.blank .c4s24).setStage 2 with pkg := { (Blk.blank .c4s24).pkg with answered := 0x3FF, ident := (List.range 10).map (fun d => (d, if d = 9 then bornIdent 9 + 256 else bornIdent d)) } }), 0x3FF, 9, by decide +kernel⟩,
   ⟨(st { (Blk.blank .c4s24).setStage 2 with pkg := { (Blk.blank .c4s24).pkg with answered := 0x3FF } }), 1, by decide +kernel⟩,
   ⟨(st ready), by decide +kernel⟩,
   ⟨(st { (Blk.blank .c4s24).setStage 3 with pkg := { (Blk.blank .c4s24).pkg with answered := 0x3FF } }), by decide +kernel⟩,
   ⟨(st { (Blk.blank .c4s24).setStage 4 with pkg := { (Blk.blank .c4s24).pkg with answered := 0x3FF } }), by decide +kernel⟩,
   ⟨(st ready), by decide +kernel⟩,
   ⟨(st { (Blk.blank .c4s24).setStage 4 with pkg := { (Blk.blank .c4s24).pkg with answered := 0x3FF } }), by decide +kernel⟩,
   ⟨(st ready), by decide +kernel⟩,
   ⟨(st { (Blk.blank .c4s24).setStage 4 with pins := { (Blk.blank .c4s24).pins with coolantOk := true }, pkg := { (Blk.blank .c4s24).pkg with answered := 0x3FF, done := 3 } }), by decide +kernel⟩,
   ⟨(st ready), by decide +kernel⟩,
   ⟨(st ready), by decide +kernel⟩,
   ⟨(st { ready with sec := { ready.sec with watchdog := true } }), by decide +kernel⟩⟩

/-- The hypotheses of each clause of Obligations.ResetsAndHostLink are met together. -/
theorem witness_ResetsAndHostLink :
    (∃ s : State, ∃ cl : Nat, ∃ f : Nat, let b := s.blk; let due2 := b.pwr.inputFlt = true ∧ b.pwr.vshank = false ∧ 44000 ≤ b.pwr.inputMv ∧ b.pwr.inputMv ≤ 58000; cl < 36 ∧ f < 9 ∧ (due2 ∨ b.pkg.resetDue = 1)) ∧
    (∃ s : State, ∃ cl : Nat, ∃ f : Nat, let b := s.blk; let due2 := b.pwr.inputFlt = true ∧ b.pwr.vshank = false ∧ 44000 ≤ b.pwr.inputMv ∧ b.pwr.inputMv ≤ 58000; cl < 36 ∧ f < 9 ∧ ¬ due2 ∧ b.pkg.resetDue ≠ 1) ∧
    (∃ s : State, ∃ cl : Nat, ∃ f : Nat, let b := s.blk; cl < 36 ∧ f < 9 ∧ 3 ≤ b.pkg.resetDue ∧ b.pkg.resetDue ≤ 5 ∧ b.regs.wf = true) ∧
    (∃ s : State, ∃ cl : Nat, ∃ f : Nat, let b := s.blk; cl < 36 ∧ f < 9 ∧ ((b.pkg.resetDue < 3 ∨ 5 < b.pkg.resetDue))) ∧
    (∃ s : State, ∃ cl : Nat, ∃ f : Nat, let b := s.blk; cl < 36 ∧ f < 9 ∧ b.flightsOf cl = [] ∧ b.attemptOn cl = false) ∧
    (∃ s : State, ∃ cl : Nat, ∃ f : Nat, let b := s.blk; cl < 36 ∧ f < 9 ∧ ((b.flightsOf cl ≠ [] ∨ b.attemptOn cl = true))) ∧
    (∃ s : State, ∃ cl : Nat, ∃ f : Nat, let b := s.blk; let trains := b.pins.perst = false ∧ b.stage ≠ 0 ∧ b.pins.linkHeld = false ∧ bitOf b.pkg.lost iod0 = false ∧ bitOf b.pkg.answered iod0 = true; cl < 36 ∧ f < 9 ∧ ¬ trains) ∧
    (∃ s : State, ∃ cl : Nat, ∃ f : Nat, ∃ rate : Nat, ∃ best : Nat, let b := s.blk; let top := if b.stage = 8 then 16 else best; let trains := b.pins.perst = false ∧ b.stage ≠ 0 ∧ b.pins.linkHeld = false ∧ bitOf b.pkg.lost iod0 = false ∧ bitOf b.pkg.answered iod0 = true; cl < 36 ∧ f < 9 ∧ trains ∧ 16 ≤ min rate top) ∧
    (∃ s : State, ∃ cl : Nat, ∃ f : Nat, ∃ rate : Nat, ∃ best : Nat, let b := s.blk; let top := if b.stage = 8 then 16 else best; let trains := b.pins.perst = false ∧ b.stage ≠ 0 ∧ b.pins.linkHeld = false ∧ bitOf b.pkg.lost iod0 = false ∧ bitOf b.pkg.answered iod0 = true; cl < 36 ∧ f < 9 ∧ trains ∧ min rate top < 16) :=
  ⟨⟨(st { ready with pwr := { ready.pwr with inputFlt := true, inputMv := 58000 } }), 35, 8, by decide +kernel⟩,
   ⟨(st ready), 35, 8, by decide +kernel⟩,
   ⟨(st { ready with pkg := { ready.pkg with resetDue := 3 } }), 35, 8, by decide +kernel⟩,
   ⟨(st { ready with pkg := { ready.pkg with resetDue := 6 } }), 35, 8, by decide +kernel⟩,
   ⟨(st ready), 35, 8, by decide +kernel⟩,
   ⟨(st { ready with seq := { ready.seq with flights := [{ flight 0 with cl := 35 }] } }), 35, 8, by decide +kernel⟩,
   ⟨(st ready), 35, 8, by decide +kernel⟩,
   ⟨(st { ready with pkg := { ready.pkg with answered := 0x3FF }, pins := { ready.pins with perst := false } }), 35, 8, 32, 32, by decide +kernel⟩,
   ⟨(st { ready with pkg := { ready.pkg with answered := 0x3FF }, pins := { ready.pins with perst := false } }), 35, 8, 15, 32, by decide +kernel⟩⟩

/-- The hypotheses of each clause of Obligations.RecorderAndI3cAct are met together. -/
theorem witness_RecorderAndI3cAct :
    (∃ s : State, ∃ r : RecIn, ∃ d : Nat, ∃ addr : Nat, ∃ a : Nat, ∃ st : Nat, let b := s.blk; let o := b.recd.owner; let q : RegRef := ⟨.REC_STATE, o, 0⟩; r.die < 10 ∧ d < 10 ∧ addr < 128 ∧ a < 128 ∧ st < 128 ∧ b.recReach r.die = true ∧ b.rf q Fld.REC_STATE_DEV0_OK = 1 ∧ b.rf q Fld.REC_STATE_DEV1_OK = 1) ∧
    (∃ s : State, ∃ r : RecIn, ∃ d : Nat, ∃ addr : Nat, ∃ a : Nat, ∃ st : Nat, let b := s.blk; let o := b.recd.owner; let q : RegRef := ⟨.REC_STATE, o, 0⟩; r.die < 10 ∧ d < 10 ∧ addr < 128 ∧ a < 128 ∧ st < 128 ∧ b.recReach r.die = true ∧ b.rf q Fld.REC_STATE_DEV0_OK = 1 ∧ o < 10) ∧
    (∃ s : State, ∃ r : RecIn, ∃ d : Nat, ∃ addr : Nat, ∃ a : Nat, ∃ st : Nat, let b := s.blk; r.die < 10 ∧ d < 10 ∧ addr < 128 ∧ a < 128 ∧ st < 128 ∧ b.recReach r.die = false ∧ ((slotGet b.recd.held r.die).getD []).length < 64) ∧
    (∃ s : State, ∃ r : RecIn, ∃ d : Nat, ∃ addr : Nat, ∃ a : Nat, ∃ st : Nat, let b := s.blk; r.die < 10 ∧ d < 10 ∧ addr < 128 ∧ a < 128 ∧ st < 128 ∧ b.recReach r.die = false ∧ 64 ≤ ((slotGet b.recd.held r.die).getD []).length) ∧
    (∃ s : State, ∃ r : RecIn, ∃ d : Nat, ∃ addr : Nat, ∃ a : Nat, ∃ st : Nat, let b := s.blk; r.die < 10 ∧ d < 10 ∧ addr < 128 ∧ a < 128 ∧ st < 128 ∧ b.recReach d = false) ∧
    (∃ s : State, ∃ r : RecIn, ∃ d : Nat, ∃ addr : Nat, ∃ a : Nat, ∃ st : Nat, let b := s.blk; r.die < 10 ∧ d < 10 ∧ addr < 128 ∧ a < 128 ∧ st < 128 ∧ b.recReach d = true) ∧
    (∃ s : State, ∃ r : RecIn, ∃ d : Nat, ∃ addr : Nat, ∃ off : Nat, ∃ a : Nat, ∃ st : Nat, let b := s.blk; let reached (v : Nat) : Prop := b.pwr.inputMv ≠ 0 ∧ v = b.pins.i3cDyn.getD 0x5A; r.die < 10 ∧ d < 10 ∧ addr < 128 ∧ a < 128 ∧ st < 128 ∧ reached addr ∧ off ≠ 16) ∧
    (∃ s : State, ∃ r : RecIn, ∃ d : Nat, ∃ addr : Nat, ∃ a : Nat, ∃ st : Nat, let b := s.blk; let reached (v : Nat) : Prop := b.pwr.inputMv ≠ 0 ∧ v = b.pins.i3cDyn.getD 0x5A; r.die < 10 ∧ d < 10 ∧ addr < 128 ∧ a < 128 ∧ st < 128 ∧ ¬ reached addr) ∧
    (∃ s : State, ∃ r : RecIn, ∃ d : Nat, ∃ addr : Nat, ∃ a : Nat, ∃ st : Nat, let b := s.blk; r.die < 10 ∧ d < 10 ∧ addr < 128 ∧ a < 128 ∧ st < 128 ∧ b.pwr.inputMv ≠ 0 ∧ b.pins.i3cDyn = none) ∧
    (∃ s : State, ∃ r : RecIn, ∃ d : Nat, ∃ addr : Nat, ∃ a : Nat, ∃ st : Nat, let b := s.blk; r.die < 10 ∧ d < 10 ∧ addr < 128 ∧ a < 128 ∧ st < 128 ∧ b.pins.i3cDyn ≠ none) ∧
    (∃ r : RecIn, ∃ d : Nat, ∃ addr : Nat, ∃ a : Nat, ∃ st : Nat, r.die < 10 ∧ d < 10 ∧ addr < 128 ∧ a < 128 ∧ st < 128 ∧ st ≠ 0x5A) :=
  ⟨⟨(st { (((ready.wf ⟨.REC_STATE, 4, 0⟩ Fld.REC_STATE_OWNER 1).wf ⟨.REC_STATE, 4, 0⟩ Fld.REC_STATE_DEV0_OK 1).wf ⟨.REC_STATE, 4, 0⟩ Fld.REC_STATE_DEV1_OK 1) with pkg := { ready.pkg with answered := 0x3FF } }), { code := 1, die := 9 }, 9, 0x5A, 127, 0x5A, by decide +kernel⟩,
   ⟨(st { (((ready.wf ⟨.REC_STATE, 4, 0⟩ Fld.REC_STATE_OWNER 1).wf ⟨.REC_STATE, 4, 0⟩ Fld.REC_STATE_DEV0_OK 1).wf ⟨.REC_STATE, 4, 0⟩ Fld.REC_STATE_DEV1_OK 1) with pkg := { ready.pkg with answered := 0x3FF } }), { code := 1, die := 9 }, 9, 0x5A, 127, 0x5A, by decide +kernel⟩,
   ⟨(st (ready.wf ⟨.IDENT_PRESENT, 0, 0⟩ Fld.IDENT_PRESENT_FENCED 512)), { code := 1, die := 9 }, 9, 0x5A, 127, 0x5A, by decide +kernel⟩,
   ⟨(st { (ready.wf ⟨.IDENT_PRESENT, 0, 0⟩ Fld.IDENT_PRESENT_FENCED 512) with recd := { ready.recd with held := [(9, List.replicate 64 { seq := 0, shank := 0, code := 1, die := 9, late := false, holder := false, unit := 0, part := 0, s := 0, data := [], boot := 0 })] } }), { code := 1, die := 9 }, 9, 0x5A, 127, 0x5A, by decide +kernel⟩,
   ⟨(st (ready.wf ⟨.IDENT_PRESENT, 0, 0⟩ Fld.IDENT_PRESENT_FENCED 512)), { code := 1, die := 9 }, 9, 0x5A, 127, 0x5A, by decide +kernel⟩,
   ⟨(st { (((ready.wf ⟨.REC_STATE, 4, 0⟩ Fld.REC_STATE_OWNER 1).wf ⟨.REC_STATE, 4, 0⟩ Fld.REC_STATE_DEV0_OK 1).wf ⟨.REC_STATE, 4, 0⟩ Fld.REC_STATE_DEV1_OK 1) with pkg := { ready.pkg with answered := 0x3FF } }), { code := 1, die := 9 }, 9, 0x5A, 127, 0x5A, by decide +kernel⟩,
   ⟨(st { ready with pwr := { ready.pwr with inputMv := 54000 }, pins := { ready.pins with i3cDyn := some 9 } }), { code := 1, die := 9 }, 9, 9, 15, 127, 0x5A, by decide +kernel⟩,
   ⟨(st { ready with pwr := { ready.pwr with inputMv := 54000 }, pins := { ready.pins with i3cDyn := some 9 } }), { code := 1, die := 9 }, 9, 0x5A, 127, 0x5A, by decide +kernel⟩,
   ⟨(st { ready with pwr := { ready.pwr with inputMv := 54000 } }), { code := 1, die := 9 }, 9, 0x5A, 127, 0x5A, by decide +kernel⟩,
   ⟨(st { ready with pwr := { ready.pwr with inputMv := 54000 }, pins := { ready.pins with i3cDyn := some 9 } }), { code := 1, die := 9 }, 9, 0x5A, 127, 0x5A, by decide +kernel⟩,
   ⟨{ code := 1, die := 9 }, 9, 0x5A, 127, 0x5B, by decide +kernel⟩⟩

/-- The hypotheses of Obligations.ResetStands are met together. -/
theorem witness_ResetStands :
    ∃ g : RegRef, regOk g = true ∧ g.name ≠ .PWR_CAP ∧ g.name ≠ .PWR_I3C_ID :=
  ⟨⟨.PWR_PHASES, 9, 0⟩, by decide +kernel⟩

/-- The hypotheses of each clause of Obligations.EveryCommandRuns are met together. -/
theorem witness_EveryCommandRuns :
    (∃ c : Instr, c.wf = true) ∧
    (∃ c : Instr, c.wf = false) ∧
    (∃ s : State, ∃ core : Nat, ∃ cls : Nat, ∃ op : Nat, ∃ f : VOps, ∃ i : Instr, let b := s.blk; ((i, cls, op) ∈ ([(.fadd core f, 1, 0), (.fsub core f, 1, 1), (.fmul core f, 1, 2), (.ffma core f, 1, 3), (.fmax core f, 1, 4), (.fmin core f, 1, 5), (.fabs core f, 1, 6), (.fneg core f, 1, 7), (.fmov core f, 1, 8), (.cvtfi core f, 1, 9), (.cvtif core f, 1, 10), (.rcp core f, 3, 0), (.rsqrt core f, 3, 1), (.sqrt core f, 3, 2), (.exp2 core f, 3, 3), (.log2 core f, 3, 4), (.tanh core f, 3, 5), (.erf core f, 3, 6), (.lperm core f, 5, 0), (.rperm core f, 5, 1), (.lbcast core f, 5, 2), (.rbcast core f, 5, 3), (.lrot core f, 5, 4)] : List (Instr × Nat × Nat))) ∧ CoreReady b core ⟨cls, op, f⟩) :=
  ⟨⟨.perstNAssert, by decide +kernel⟩,
   ⟨(.clusterReset 36), by decide +kernel⟩,
   ⟨(st ready), 179, 1, 0, (vops 2 3 32), .fadd 179 (vops 2 3 32), by exact ⟨List.Mem.head _, by unfold CoreReady; decide +kernel⟩⟩⟩

/-- The hypotheses of each clause of Obligations.IdentityAndTrustStand are met together. -/
theorem witness_IdentityAndTrustStand :
    (∃ s : State, ∃ t : State, step s = .next t ∧ s.blk.genuine) ∧
    (∃ s : State, ∃ t : State, step s = .next t ∧ ((∀ c rest, s.pending = c :: rest → (∀ f m, c ≠ .fwUpdate f m) ∧ (∀ f m, c ≠ .cancel f m) ∧ (∀ h, c ≠ .opCompletionCommit h)))) :=
  ⟨⟨State.reset, State.reset, by exact ⟨rfl, by unfold Blk.genuine; decide +kernel⟩⟩,
   ⟨State.reset, State.reset, by exact ⟨rfl, fun c rest h => by cases h⟩⟩⟩

/-! ### Well-formedness refuses every kind of ill-formed command -/

/-- R461, R462: a function that does not exist, and a mailbox that a physical or a virtual function does not have. -/
theorem test_wf_mailbox : [Instr.identify 9 0, .identify 0 16, .identify 1 4, .mbxLockRead 0 0 9].all (fun c => !c.wf) = true := by decide +kernel

/-- Places of the package that do not exist (R1 to R3, R255, R377, R487). -/
theorem test_wf_places :
    [Instr.dieReset 10, .clusterReset 36, .arrayNop 0 16, .vecBankTimeout 180, .heartbeatSend 48, .closeTimeout 8, .faultWindowExpiry 10, .faultWindowExpiry (16 * 144), .faultWindowExpiry (4 + 16), .hbmRowRepair 1536 [],
      .cableRemoved 6, .rowTrackerExpiry 24 0, .droopOnset 36, .i3cEnergyRead 128, .evgMaskWrite 5 1 0 0, .evgMaskWrite 4 10 0 0].all (fun c => !c.wf) = true := by decide +kernel

/-- Bytes and words of another length than the manual gives. -/
theorem test_wf_lengths :
    [Instr.hostRequest 0 0 (List.replicate 255 0), .dblResetCold (2 ^ 32), .mbxLockBreak (2 ^ 64), .eyePauseWrite 0 256, .dieDoorbell 0 32, .seatDoorbell 4 0,
      .phaseShutoff 0 4, .handover 0 5 true, .eventRaise 0 2048 .event].all (fun c => !c.wf) = true := by decide +kernel

/-- Operand fields of a vector instruction that its encoding (R141) cannot hold, and a register, or a part of it, that does not exist. -/
theorem test_wf_fields :
    [Instr.fadd 0 (vops 0 0 0 0 32), .fadd 0 (vops 128 0 0), .fadd 0 (vops 0 0 0 (2 ^ 24)), .rclRead ⟨.IDENT_DIE, 0, 10⟩ 0 1 0, .rclRead ⟨.IDENT_START, 0, 0⟩ 1000 64 0].all
      (fun c => !c.wf) = true := by decide +kernel

/-- The same commands on places that exist. -/
theorem test_wf_accepts :
    [Instr.identify 8 3, .identify 0 15, .dieReset 9, .clusterReset 35, .arrayNop 35 15, .vecBankTimeout 179, .heartbeatSend 47, .faultWindowExpiry (3 + 16 * 143), .hbmRowRepair 1535 [], .cableRemoved 5,
      .fadd 179 (vops 127 127 127 (2 ^ 24 - 1) 31), .rclRead ⟨.IDENT_DIE, 0, 9⟩ 0 1 0].all (fun c => c.wf) = true := by decide +kernel

/-- The table gives no command any bits. -/
theorem test_no_word_spells_a_command : decodeTableWord 32 0 = none := rfl

/-! ### The manual's own examples -/

/-- R22: CD0 reaches IOD3 over CD1 and CD3, and IOD2 over CD2. -/
theorem test_route_example : routeOf (ready.adj (fun _ _ => true) (fun _ => true)) 0 7 = some [1, 3, 7] ∧ routeOf (ready.adj (fun _ _ => true) (fun _ => true)) 0 6 = some [2, 6] := by decide +kernel

/-- R56, R57: one rounding per band; two products of 2^-24 added to 1.0. -/
theorem test_band_example :
    accTile 0 0x3F800000#32 (FVal.fin false (1 / 2 ^ 24) :: FVal.fin false (1 / 2 ^ 24) :: List.replicate 30 (FVal.fin false 0)) = (0x3F800001#32, false) := by decide +kernel

/-- R101: the worked example of rounding into BF16, with the fields 0x3A7 and 0x9C2, and a residue below 2^-12 of an ulp. -/
theorem test_bf16_example :
    (Fmt.bf16.conv (.stoch 0x3A7) (.fin false (1 + 1 / 512 + 1 / 2048))).1 = 0x3F81 ∧ (Fmt.bf16.conv (.stoch 0x9C2) (.fin false (1 + 1 / 512 + 1 / 2048))).1 = 0x3F80 ∧
      (Fmt.bf16.conv (.stoch 0) (.fin false (1 + 1 / 2 ^ 20))).1 = 0x3F80 := by decide +kernel

/-- R107: the worked example of one E4M3 block: its scale, and its elements at either end of the random field. -/
theorem test_e4m3_example :
    let xs : List FVal := [.fin false 1000, .fin false 300, .fin false (1 / 100), .fin true (5 / 2)] ++ List.replicate 28 (.fin false 0)
    (castMx .e4m3 xs (fun _ => .stoch 0)).1 = 0x81 ∧ (castMx .e4m3 xs (fun _ => .stoch 0)).2.1.take 5 = [0x78, 0x6A, 0x02, 0xB2, 0] ∧
      (castMx .e4m3 xs (fun _ => .stoch 4095)).2.1.take 5 = [0x77, 0x69, 0x01, 0xB2, 0] := by decide +kernel

/-- R441: the flagship capped at 3400 W with gains of 2 and 4 (GAIN is held in quarters). -/
theorem test_capper_example : slots64 (capF 8 3650000 2174500 3400000 0) = 10 ∧ slots64 (capF 16 3650000 2174500 3400000 0) = 19 := by decide +kernel

/-- Queues 0 to 3 of a cluster, bound to the arrays of cores 0 to 3. -/
def bound4 (cl : Nat) : Blk := (List.range 4).foldl (fun b q => (b.wf (qReg cl q) Fld.SEQ_Q_LENGTH 1).wf (qReg cl q) Fld.SEQ_Q_BIND q) ready

/-- R447: array A3 of the core of rank 3 in K2 of CD0 is in wave 15; 1612 cycles after the edge wave 31 starts. -/
theorem test_wave_example :
    (bound4 2).waveOf 13 3 = 15 ∧ rampF 52 31 1611 = 1 ∧ rampF 52 31 1612 = 3 / 4 ∧ rampF 52 31 1867 = 3 / 16 ∧ rampF 52 31 1868 = 0 := by decide +kernel

/-! ### One step -/

/-- An empty queue idles; an ill-formed command faults; a well-formed one runs and leaves the rest of the queue. -/
theorem test_step_idles : step State.reset = .next State.reset := rfl
theorem test_step_faults : step { State.reset with pending := [.dieReset 10] } = .fault .illFormed := rfl
theorem test_step_takes_front :
    (match step { State.reset with pending := [.entdaa 9, .rstdaa] } with | .next t => t.pending | _ => []) = [.rstdaa] := by decide +kernel

/-- R471: IDENTIFY at READY is answered OK, its response naming the request's code. -/
theorem test_identify_answers :
    (match step { asks ready 0x01 [] with pending := [.identify 0 0] } with | .next t => t.blk.mbx.rsp.read 0 2 | _ => []) = leBytes 2 0x01 := by decide +kernel


end Sys2Proof.Tests
end

section
/-!
SUPPORT. Proofs of the statements of spec/00_scope.md: that every command runs, what an issued vector instruction leaves alone, and accesses to registers without a
row of their own.
-/
namespace Sys2Proof.Machine

/-! ### Every command is one effect, guarded by its operands -/

/-- A command's outcome is an effect on the module for operands that name existing places, and the fault for all others. -/
theorem exec_eq_go (c : Instr) : ∃ effect : Blk → Blk, ∀ s, exec c s = s.go c.wf effect := by
  cases c with
  | idleFlit e ack credit fix => simp only [Instr.wf, exec, execIdleFlit]; exact ⟨_, fun _ => rfl⟩
  | _ => simp only [Instr.wf, exec]; exact ⟨_, fun _ => rfl⟩

theorem exec_of_wf (c : Instr) (s : State) (h : c.wf = true) : ∃ b, exec c s = .next { s with blk := b } := by
  obtain ⟨effect, he⟩ := exec_eq_go c
  exact ⟨effect s.blk, (he s).trans (State.go_ok _ _ _ h)⟩

theorem exec_of_not_wf (c : Instr) (s : State) (h : c.wf = false) : exec c s = .fault .illFormed := by
  obtain ⟨effect, he⟩ := exec_eq_go c
  exact (he s).trans (State.go_bad _ _ _ h)

/-! ### Runs of keys and vector tiles -/

/-- A filter that keeps every entry of a key does not change what is found at the key. -/
theorem find_kept {α : Type} (m : List (Nat × α)) (q : Nat × α → Bool) (k : Nat) (h : ∀ p, p.1 = k → q p = true) :
    (m.filter q).find? (fun p => p.1 == k) = m.find? (fun p => p.1 == k) := by
  rw [List.find?_filter]
  congr 1
  funext p
  by_cases hp : p.1 = k <;> simp [hp, h]

/-- What a listed run of keys reads as at a key of the run. -/
theorem find_run {α : Type} [DecidableEq α] (d : α) (lo n : Nat) (f : Nat → α) (i : Nat) (hi : i < n) :
    ((((List.range n).map (fun j => (lo + j, f j))).filter (fun p => decide (p.2 ≠ d))).find? (fun p => p.1 == lo + i)) =
      if f i = d then none else some (lo + i, f i) := by
  rw [List.find?_filter, List.find?_map]
  split
  next hd =>
    rw [Option.map_eq_none_iff, List.find?_range_eq_none]
    intro j _
    by_cases e : j = i <;> simp [e, hd]
  next hd =>
    rw [Option.map_eq_some_iff]
    refine ⟨i, ?_, rfl⟩
    rw [List.find?_range_eq_some]
    exact ⟨by simp [hd], by simpa using hi, fun j hj => by simp; omega⟩

/-- A key read after a run of keys has been replaced: the new value inside the run, the old one outside. -/
theorem Sp.get_spFill {α : Type} [DecidableEq α] (d : α) (m : List (Nat × α)) (lo n : Nat) (f : Nat → α) (k : Nat) :
    Sp.get d (spFill d m lo n f) k = if lo ≤ k ∧ k < lo + n then f (k - lo) else Sp.get d m k := by
  rw [Sp.get_eq, Sp.get_eq, spFill, List.find?_append, List.find?_append]
  by_cases hk : lo ≤ k ∧ k < lo + n
  · obtain ⟨i, rfl⟩ : ∃ i, k = lo + i := ⟨k - lo, by omega⟩
    rw [if_pos hk, find_run d lo n f i (by omega), find_none _ _ _ (by intro p hp; simp at hp; omega),
      find_none _ _ _ (by intro p hp; simp at hp; omega), Nat.add_sub_cancel_left]
    split <;> simp [*]
  · have mid : (((List.range n).map (fun j => (lo + j, f j))).filter (fun p => decide (p.2 ≠ d))).find? (fun p => p.1 == k) = none := by
      simp only [List.find?_eq_none, List.mem_filter, List.mem_map, List.mem_range]
      rintro p ⟨⟨j, hj, rfl⟩, -⟩
      simp; omega
    rw [if_neg hk, mid, Option.or_none]
    by_cases below : k < lo
    · rw [find_kept _ _ _ (by intro p hp; simp; omega), find_none _ _ _ (by intro p hp; simp at hp; omega), Option.or_none]
    · rw [find_none _ _ _ (by intro p hp; simp at hp; omega), Option.none_or, find_kept _ _ _ (by intro p hp; simp; omega)]

theorem tileKey_in_tile (core t r l core' t' : Nat) (hr : r < 16) (hl : l < 128) (ht : t < 32) (ht' : t' < 32) :
    tileKey core t 0 0 ≤ tileKey core' t' r l ∧ tileKey core' t' r l < tileKey core t 0 0 + 2048 ↔ core' = core ∧ t' = t := by
  unfold tileKey; omega

/-- A tile element after a tile has been written: new at an active element of that tile, the old one anywhere else. -/
theorem Blk.tile_vwrite (b : Blk) (x : VCtx) (act : Nat → Nat → Bool) (t : Nat) (v : Nat → Nat → BitVec 32) (p : Nat → Bool)
    (core' t' r l : Nat) (hr : r < 16) (hl : l < 128) (ht : t < 32) (ht' : t' < 32) :
    (b.vwrite x act t v p).vec.tile core' t' r l =
      if (core' = x.core ∧ t' = t) ∧ act r l = true then v r l else b.vec.tile core' t' r l := by
  unfold Vec.tile Blk.vwrite
  simp only [Sp.get_spFill, tileKey_in_tile _ _ _ _ _ _ hr hl ht ht']
  by_cases here : core' = x.core ∧ t' = t
  · obtain ⟨rfl, rfl⟩ := here
    have off : tileKey x.core t' r l - tileKey x.core t' 0 0 = 128 * r + l := by unfold tileKey; omega
    have row : (128 * r + l) / 128 = r := by omega
    have lane : (128 * r + l) % 128 = l := by omega
    simp [off, row, lane, Vec.tile]
  · simp [here]

/-! ### What the bookkeeping of an issue leaves alone -/

theorem sane_coreReg {core : Nat} (n : RegName) (hcore : core < 180) : (⟨n, core, 0⟩ : RegRef).sane := ⟨by simp; omega, by simp⟩

/-- The registers that the bookkeeping after an instruction writes: those of the core's state, of its record, and of its descriptors. -/
def RegName.issueShown (n : RegName) : Bool := n == .SEQ_VEC_STATE || n == .SEQ_VEC_FAULT || n == .SEQ_VEC_DESC_CNT

/-- From `b` to `c` only what follows an instruction may differ: runs, the present shape, what the core shows, and the results of descriptors. -/
structure IssueKeeps (b c : Blk) : Prop where
  tiles : c.vec.tiles = b.vec.tiles
  pois : c.vec.pois = b.vec.pois
  mrow : c.vec.mrow = b.vec.mrow
  preds : c.vec.preds = b.vec.preds
  cores : c.cores = b.cores
  ins : c.ins = b.ins
  hbm : c.hbm = b.hbm
  parts : c.parts = b.parts
  units : c.units = b.units
  hostMem : c.hostMem = b.hostMem
  mbx : c.mbx = b.mbx
  regs : ∀ g : RegRef, g.sane → g.name.issueShown = false → c.rd g = b.rd g

namespace IssueKeeps

theorem refl (b : Blk) : IssueKeeps b b := by constructor <;> intros <;> rfl

theorem trans {b c d : Blk} (h : IssueKeeps b c) (k : IssueKeeps c d) : IssueKeeps b d where
  tiles := k.tiles.trans h.tiles
  pois := k.pois.trans h.pois
  mrow := k.mrow.trans h.mrow
  preds := k.preds.trans h.preds
  cores := k.cores.trans h.cores
  ins := k.ins.trans h.ins
  hbm := k.hbm.trans h.hbm
  parts := k.parts.trans h.parts
  units := k.units.trans h.units
  hostMem := k.hostMem.trans h.hostMem
  mbx := k.mbx.trans h.mbx
  regs g hs hn := (k.regs g hs hn).trans (h.regs g hs hn)

theorem wr (b : Blk) (r : RegRef) (v : RegVal) (hr : r.sane) (hn : r.name.issueShown = true) : IssueKeeps b (b.wr r v) := by
  refine ⟨rfl, rfl, rfl, rfl, rfl, rfl, rfl, rfl, rfl, rfl, rfl, fun g hg hgn => ?_⟩
  exact Blk.rd_wr_other b r g v hr hg (by rintro rfl; simp [hn] at hgn)

theorem setRun (b : Blk) (core : Nat) (r : Vrun) : IssueKeeps b (b.setRun core r) := by constructor <;> intros <;> rfl

theorem tick (b : Blk) : IssueKeeps b b.tick := by constructor <;> intros <;> rfl

theorem setFlight (b : Blk) (f : Flight) : IssueKeeps b (b.setFlight f) := by constructor <;> intros <;> rfl

theorem vKeep (b : Blk) (core : Nat) : IssueKeeps b (b.vKeep core) := by
  unfold Blk.vKeep
  split
  · exact setRun _ _ _
  · exact refl b

section
variable {core : Nat} (hcore : core < 180)
include hcore

theorem coreReg (n : RegName) (b : Blk) (v : RegVal) (hn : n.issueShown = true) : IssueKeeps b (b.wr ⟨n, core, 0⟩ v) :=
  wr b _ v (sane_coreReg n hcore) hn

theorem state (b : Blk) (f : Fld) (x : Nat) : IssueKeeps b (b.wf ⟨.SEQ_VEC_STATE, core, 0⟩ f x) := coreReg hcore _ b _ rfl

theorem vShow (b : Blk) : IssueKeeps b (b.vShow core) := by
  have shape := (state hcore b Fld.SEQ_VEC_STATE_PVL_M1 (b.vec.pvl1 core - 1)).trans (state hcore _ Fld.SEQ_VEC_STATE_PRC_M1 (b.vec.prc1 core - 1))
  unfold Blk.vShow
  split
  · exact ((shape.trans (state hcore _ _ _)).trans (state hcore _ _ _)).trans (state hcore _ _ _)
  · exact shape.trans (state hcore _ _ _)

theorem vFinish (b : Blk) (st : VStat) : IssueKeeps b (b.vFinish core st) := by
  unfold Blk.vFinish
  split
  · split
    · exact refl b
    · exact (setRun _ _ _).trans (vShow hcore _)
  · exact refl b

theorem vRecord (b : Blk) (kind flag row lane : Nat) : IssueKeeps b (b.vRecord core kind flag row lane) :=
  (coreReg hcore .SEQ_VEC_FAULT b _ rfl).trans (tick _)

theorem vAdvance (b : Blk) (ended : Bool) : IssueKeeps b (b.vAdvance core ended) := by
  unfold Blk.vAdvance
  split
  · split
    · exact setRun _ _ _
    · split
      · constructor <;> intros <;> rfl
      · exact vFinish hcore _ _
  · exact refl b

/-- A descriptor of the core's own queue is counted on that core. -/
theorem descCount (b : Blk) (f : Flight) (hcl : f.cl = core / 5) (hbind : b.bindOf f = 8 + core % 5) : IssueKeeps b (b.descCount f) := by
  have hkind : bindKind (b.bindOf f) = 1 := by
    unfold bindKind
    rw [hbind, if_neg (by omega), if_pos (by omega)]
  have hreg : 5 * f.cl + b.bindOf f % 8 = core := by omega
  have counted : b.descCount f = b.bump ⟨.SEQ_VEC_DESC_CNT, core, 0⟩ := by
    unfold Blk.descCount
    dsimp only
    rw [hreg, hkind, if_neg (by decide), if_pos rfl]
  rw [counted]
  exact coreReg hcore .SEQ_VEC_DESC_CNT b _ rfl

theorem returned (b : Blk) (f : Flight) (res idx : Nat) (hcl : f.cl = core / 5) (hbind : b.bindOf f = 8 + core % 5) : IssueKeeps b (b.returned f res idx) :=
  (setFlight b _).trans (descCount hcore _ f hcl hbind)

theorem vSync (b : Blk) : IssueKeeps b (b.vSync core) := by
  unfold Blk.vSync
  split
  · split
    next r _ res f _ hf =>
      have hown := List.find?_some hf
      simp only [Bool.and_eq_true, beq_iff_eq, decide_eq_true_eq] at hown
      obtain ⟨⟨⟨hcl, hbind⟩, -⟩, -⟩ := hown
      exact returned hcore b _ res 0 hcl hbind
    · exact refl b
  · exact refl b

end

end IssueKeeps

/-! ### One instruction that its core issues -/

@[simp] theorem Blk.vctx_core (b : Blk) (core : Nat) : (b.vctx core).core = core := by
  unfold Blk.vctx; split <;> rfl

/-- What an issued instruction leaves before its trap and its advance: its effect, the issue counted and its flags raised on the core. -/
def Blk.issued (o : VOut) (core : Nat) : Blk :=
  let counted := o.b.bump ⟨.SEQ_VEC_INSTR_CNT, core, 0⟩
  counted.wn ⟨.SEQ_VEC_FLAGS, core, 0⟩ (counted.rn ⟨.SEQ_VEC_FLAGS, core, 0⟩ ||| (Raised.all o.fl ||| (if o.pois || o.wpois then flPoison else 0)))

theorem IssueKeeps.vRaise (o : VOut) (core : Nat) : IssueKeeps (Blk.issued o core) (Blk.vRaise o core) := by
  unfold Blk.vRaise Blk.issued
  dsimp only
  generalize (if o.pois || o.wpois then flPoison else 0) = poisonFlag
  split
  · exact IssueKeeps.setRun _ _ _
  · exact IssueKeeps.refl _

/-- An instruction that its core issues and that does not stop is its effect, counted and with its flags raised, and bookkeeping after it. -/
theorem vOne_of_ready {b : Blk} {core cls op : Nat} {f : VOps} (ready : CoreReady b core ⟨cls, op, f⟩)
    (nostop : (b.vDo (b.vctx core) ⟨cls, op, f⟩).stop = none) :
    IssueKeeps (Blk.issued (b.vDo (b.vctx core) ⟨cls, op, f⟩) core) (b.vOne core cls op f) := by
  obtain ⟨hcore, -, hfence, hok, hwait⟩ := ready
  unfold Blk.vOne Blk.vIssue
  simp only [hcore, if_true, hfence, hok, hwait, nostop, Bool.not_true, Bool.false_eq_true, if_false, Nat.zero_ne_one]
  refine (IssueKeeps.vRaise _ core).trans (IssueKeeps.trans ?_ (IssueKeeps.vSync hcore _))
  split
  · split
    · exact (((IssueKeeps.vKeep _ _).trans (.vRecord hcore _ _ _ _ _)).trans (.state hcore _ _ _)).trans (.vFinish hcore _ _)
    · exact .vShow hcore _
  · exact (IssueKeeps.vAdvance hcore _ _).trans (.vShow hcore _)

section
variable {b c : Blk} {o : VOut} {core : Nat} (keeps : IssueKeeps (Blk.issued o core) c)
include keeps

theorem tile_of_issued (core' t r l : Nat) : c.vec.tile core' t r l = o.b.vec.tile core' t r l := by
  unfold Vec.tile; rw [keeps.tiles]; rfl

theorem predsSame_of_issued (h : o.b.vec.preds = b.vec.preds) : PredsSame b c := by
  intro core' p r l
  have e : c.vec.preds = b.vec.preds := keeps.preds.trans h
  unfold Vec.pred; rw [e]

theorem instrCnt_of_issued (hcore : core < 180) (h : o.b.regs = b.regs) :
    c.rd ⟨.SEQ_VEC_INSTR_CNT, core, 0⟩ = (b.bump ⟨.SEQ_VEC_INSTR_CNT, core, 0⟩).rd ⟨.SEQ_VEC_INSTR_CNT, core, 0⟩ := by
  have sane (n : RegName) := sane_coreReg n hcore
  rw [keeps.regs _ (sane _) rfl, Blk.issued, Blk.rd_wn_other _ _ _ _ (sane _) (sane _) (by simp)]
  simp only [Blk.rd, Blk.rn, Blk.bump, Blk.wn, Blk.wr, h]

theorem vecOnly_of_issued (hcore : core < 180) (h : VecOnly b o.b) : VecOnly b c := by
  obtain ⟨hcores, hins, hhbm, hparts, hunits, hhost, hmbx, hregs⟩ := h
  refine ⟨keeps.cores.trans hcores, keeps.ins.trans hins, keeps.hbm.trans hhbm, keeps.parts.trans hparts, keeps.units.trans hunits,
    keeps.hostMem.trans hhost, keeps.mbx.trans hmbx, fun g hg hstate hflags hfault hcnt hdesc hrng => ?_⟩
  have sane (n : RegName) := sane_coreReg n hcore
  have hs := RegRef.sane_of_ok g hg
  rw [keeps.regs g hs (by simp [RegName.issueShown, hstate, hfault, hdesc]), Blk.issued, Blk.rd_wn_other _ _ _ _ (sane _) hs (by rintro rfl; exact hflags rfl),
    Blk.rd_bump_other _ _ _ _ (sane _) hs (by rintro rfl; exact hcnt rfl)]
  exact hregs g hg hstate hflags hfault hcnt hdesc hrng

end

/-! ### Instructions that write the active elements of one tile -/

/-- The marks of masked rows are all that `vMarks` changes. -/
theorem vMarks_b (b : Blk) (x : VCtx) (w : VWord) (o : VOut) : ∃ m, (b.vMarks x w o).b = { o.b with vec := { o.b.vec with mrow := m } } := by
  unfold Blk.vMarks
  split <;> exact ⟨_, rfl⟩

@[simp] theorem vMarks_stop (b : Blk) (x : VCtx) (w : VWord) (o : VOut) : (b.vMarks x w o).stop = o.stop := by
  unfold Blk.vMarks; split <;> rfl

/-- The classes FALU, SFU and PERM (R142): each writes the active elements of its destination tile. -/
def writesTile (cls : Nat) : Bool := cls == 1 || cls == 3 || cls == 5

theorem writesTile_iff (cls : Nat) : writesTile cls = true ↔ cls = 1 ∨ cls = 3 ∨ cls = 5 := by
  simp only [writesTile, Bool.or_eq_true, beq_iff_eq, or_assoc]

theorem vElem_writes_tile (b : Blk) (x : VCtx) (w : VWord) :
    (b.vElem x w).stop = none ∧ ∃ v p, (b.vElem x w).b = b.vwrite x (b.vactive x w.f) w.f.dst v p := by
  unfold Blk.vElem
  dsimp only
  exact ⟨rfl, _, _, rfl⟩

theorem vPerm_writes_tile (b : Blk) (x : VCtx) (w : VWord) :
    (b.vPerm x w).stop = none ∧ ∃ v p, (b.vPerm x w).b = b.vwrite x (b.vactive x w.f) w.f.dst v p := by
  unfold Blk.vPerm
  dsimp only
  exact ⟨rfl, _, _, rfl⟩

theorem vAct_writes_tile (b : Blk) (x : VCtx) (w : VWord) (h : writesTile w.cls = true) :
    (b.vAct x w).stop = none ∧ ∃ v p, (b.vAct x w).b = b.vwrite x (b.vactive x w.f) w.f.dst v p := by
  unfold Blk.vAct
  obtain e | e | e := (writesTile_iff _).mp h <;> rw [e]
  · exact vElem_writes_tile b x w
  · exact vElem_writes_tile b x w
  · exact vPerm_writes_tile b x w

theorem vDo_writes_tile (b : Blk) (x : VCtx) (w : VWord) (h : writesTile w.cls = true) :
    (b.vDo x w).stop = none ∧ ∃ v p m, (b.vDo x w).b =
      { b.vwrite x (b.vactive x w.f) w.f.dst v p with vec := { (b.vwrite x (b.vactive x w.f) w.f.dst v p).vec with mrow := m } } := by
  obtain ⟨hstop, v, p, hb⟩ := vAct_writes_tile b x w h
  obtain ⟨m, hm⟩ := vMarks_b b x w (b.vAct x w)
  exact ⟨(vMarks_stop _ _ _ _).trans hstop, v, p, m, by rw [← hb]; exact hm⟩

theorem CoreReady.core_lt {b : Blk} {core : Nat} {w : VWord} (ready : CoreReady b core w) : core < 180 := ready.1

theorem CoreReady.fields {b : Blk} {core : Nat} {w : VWord} (ready : CoreReady b core w) : vOpsOk w.f = true := ready.2.1

theorem VOps.dst_lt {f : VOps} (fields : vOpsOk f = true) : f.dst < 32 := by
  simp only [vOpsOk, Bool.and_eq_true, decide_eq_true_eq] at fields
  omega

/-- Of an instruction that writes active elements of a tile, once its core issues it: the inactive elements, the count, and all it leaves alone. -/
theorem vOne_writes_active_only {b : Blk} {core cls op : Nat} {f : VOps} (hcls : writesTile cls = true) (ready : CoreReady b core ⟨cls, op, f⟩) :
    (∀ r l, r < 16 → l < 128 → b.vactive (b.vctx core) f r l = false → (b.vOne core cls op f).vec.tile core f.dst r l = b.vec.tile core f.dst r l) ∧
    (b.vOne core cls op f).rd ⟨.SEQ_VEC_INSTR_CNT, core, 0⟩ = (b.bump ⟨.SEQ_VEC_INSTR_CNT, core, 0⟩).rd ⟨.SEQ_VEC_INSTR_CNT, core, 0⟩ ∧
    TilesBut b (b.vOne core cls op f) core f.dst ∧ PredsSame b (b.vOne core cls op f) ∧ VecOnly b (b.vOne core cls op f) := by
  obtain ⟨nostop, v, p, m, effect⟩ := vDo_writes_tile b (b.vctx core) ⟨cls, op, f⟩ hcls
  have keeps := vOne_of_ready ready nostop
  have hcore := ready.core_lt
  have hdst : f.dst < 32 := VOps.dst_lt ready.fields
  have tile (core' t r l : Nat) (hr : r < 16) (hl : l < 128) (ht : t < 32) : (b.vOne core cls op f).vec.tile core' t r l =
      if (core' = core ∧ t = f.dst) ∧ b.vactive (b.vctx core) f r l = true then v r l else b.vec.tile core' t r l := by
    rw [tile_of_issued keeps, effect]
    exact (Blk.tile_vwrite b (b.vctx core) _ f.dst v p core' t r l hr hl hdst ht).trans (by rw [Blk.vctx_core])
  refine ⟨fun r l hr hl inactive => ?_, instrCnt_of_issued keeps hcore (by rw [effect]; rfl), fun core' t r l _ ht hr hl other => ?_,
    predsSame_of_issued keeps (by rw [effect]; rfl), vecOnly_of_issued keeps hcore ?_⟩
  · rw [tile _ _ r l hr hl hdst, if_neg (by simp [inactive])]
  · rw [tile _ _ r l hr hl ht, if_neg (by omega)]
  · rw [effect]; exact ⟨rfl, rfl, rfl, rfl, rfl, rfl, rfl, fun _ _ _ _ _ _ _ _ => rfl⟩

/-- The float, special-function and permutation instructions with their class and operation (R142). -/
def tileInstrs (core : Nat) (f : VOps) : List (Instr × Nat × Nat) :=
  [(.fadd core f, 1, 0), (.fsub core f, 1, 1), (.fmul core f, 1, 2), (.ffma core f, 1, 3), (.fmax core f, 1, 4), (.fmin core f, 1, 5),
    (.fabs core f, 1, 6), (.fneg core f, 1, 7), (.fmov core f, 1, 8), (.cvtfi core f, 1, 9), (.cvtif core f, 1, 10), (.rcp core f, 3, 0), (.rsqrt core f, 3, 1),
    (.sqrt core f, 3, 2), (.exp2 core f, 3, 3), (.log2 core f, 3, 4), (.tanh core f, 3, 5), (.erf core f, 3, 6), (.lperm core f, 5, 0), (.rperm core f, 5, 1),
    (.lbcast core f, 5, 2), (.rbcast core f, 5, 3), (.lrot core f, 5, 4)]

theorem tileInstrs_run (core : Nat) (f : VOps) : ∀ e ∈ tileInstrs core f,
    writesTile e.2.1 = true ∧ ∀ s, exec e.1 s = s.go (coreNo core && vOpsOk f) (fun b => b.vOne core e.2.1 e.2.2 f) := by
  intro e listed
  simp only [tileInstrs, List.mem_cons, List.not_mem_nil, or_false] at listed
  rcases listed with rfl | rfl | rfl | rfl | rfl | rfl | rfl | rfl | rfl | rfl | rfl | rfl | rfl | rfl | rfl | rfl | rfl | rfl | rfl | rfl | rfl | rfl | rfl <;>
    exact ⟨rfl, fun _ => rfl⟩

/-- Settles O59, by the effect that every command is, and by what an issued instruction writes and what its bookkeeping leaves alone. -/
theorem everyCommandRuns : Obligations.EveryCommandRuns := by
  unfold Obligations.EveryCommandRuns
  refine ⟨fun c s => ⟨exec_of_wf c s, exec_of_not_wf c s⟩, fun s core cls op f i => ?_⟩
  intro b listed ready
  obtain ⟨hcls, hexec⟩ := tileInstrs_run core f (i, cls, op) listed
  have hops : (coreNo core && vOpsOk f) = true := by simp [coreNo, ready.core_lt, ready.fields]
  exact ⟨b.vOne core cls op f, (hexec s).trans (State.go_ok _ _ _ hops), vOne_writes_active_only hcls ready⟩

/-! ### Registers that have no row of their own (R7 to R9) -/

/-- The queue base of a die's event port: bits that are plainly read-write or read-only. -/
abbrev evgQBase (d : Nat) : RegRef := ⟨.EVG_Q_BASE, d * 16, 0⟩

/-- The dry count of a core's arrays: an RCL register. -/
abbrev arrDry (core : Nat) : RegRef := ⟨.SEQ_ARR_DRY, core, 0⟩

theorem Blk.rd_wr_key (b : Blk) (r g : RegRef) (v : RegVal) (h : g.key ≠ r.key) : (b.wr r v).rd g = b.rd g := RegFile.get_set_key _ _ _ _ h

/-- A write to a queue base has no clamp and no side effect: it is the write by access codes alone. -/
theorem registerWrite_evgQBase (b : Blk) (d : Nat) (v : RegVal) :
    b.registerWrite (evgQBase d) v = b.wr (evgQBase d) (accessWrite RegName.EVG_Q_BASE.row (b.rd (evgQBase d)) v RegName.EVG_Q_BASE.row.mask) := rfl

theorem exec_registerWrite_evgQBase (s : State) (d : Nat) (v : RegVal) (hd : d < 10) :
    exec (.registerWrite (evgQBase d) v) s = .next { s with blk := s.blk.registerWrite (evgQBase d) v } := by
  have ok : (regOk (evgQBase d) && !ownRow (evgQBase d).name) = true := by
    have die : d * 16 / 16 = d := by omega
    simp [regOk, Scope.has, RegName.row, evPortNo, dieNo, ownRow, die, hd]
  exact State.go_ok s _ (fun b => b.registerWrite (evgQBase d) v) ok

/-- Refutes O13: nothing bounds what `regs` lists for a register by the register's width, while every write cuts to it. Where the 64-bit queue base of die 0 is
listed with bit 64 set, the access codes keep that bit as they keep every read-only bit, and the write of the register drops it. -/
theorem not_registerAccess : ¬ Obligations.RegisterAccess := by
  unfold Obligations.RegisterAccess
  intro h
  obtain ⟨c, hexec, hrd, -⟩ := (h { State.reset with blk := { State.reset.blk with regs := [(evgQBase 0, BitVec.ofNat 256 (2 ^ 64))] } } 0 0 0 0).1 (by decide)
  rw [exec_registerWrite_evgQBase _ 0 0 (by decide), registerWrite_evgQBase] at hexec
  cases hexec
  rw [Blk.rd_wr_same] at hrd
  exact absurd hrd (by decide)

theorem accessWrite_within (w : RegRow) (old v : RegVal) (fits : old &&& w.mask = old) : accessWrite w old v w.mask &&& w.mask = accessWrite w old v w.mask := by
  apply BitVec.eq_of_getLsbD_eq
  intro i hi
  have bit : (old.getLsbD i && w.mask.getLsbD i) = old.getLsbD i := by rw [← BitVec.getLsbD_and, fits]
  simp only [accessWrite, BitVec.getLsbD_and, BitVec.getLsbD_or, BitVec.getLsbD_not, hi, decide_true, Bool.true_and]
  cases hm : w.mask.getLsbD i
  · simp [hm] at bit; simp [bit]
  · simp

/-- The write's clause of O13 holds wherever the queue base lies within its width. -/
theorem registerWrite_evgQBase_of_fits (s : State) (d : Nat) (v : RegVal) (hd : d < 10)
    (fits : s.blk.rd (evgQBase d) &&& RegName.EVG_Q_BASE.row.mask = s.blk.rd (evgQBase d)) :
    Yields (.registerWrite (evgQBase d) v) s (fun c =>
      c.rd (evgQBase d) = accessWrite RegName.EVG_Q_BASE.row (s.blk.rd (evgQBase d)) v RegName.EVG_Q_BASE.row.mask ∧
      ∀ r : RegRef, r.key ≠ (evgQBase d).key → c.rd r = s.blk.rd r) := by
  refine ⟨_, exec_registerWrite_evgQBase s d v hd, ?_, fun r hr => Blk.rd_wr_key _ _ _ _ hr⟩
  rw [registerWrite_evgQBase, Blk.rd_wr_same]
  exact accessWrite_within _ _ _ fits

theorem evgQBase_fits_at_reset : ∀ d < 10, State.reset.blk.rd (evgQBase d) &&& RegName.EVG_Q_BASE.row.mask = State.reset.blk.rd (evgQBase d) := by
  decide

theorem regView_arrDry (b : Blk) (core : Nat) : b.regView (arrDry core) = b.rd (arrDry core) := by
  have own : ¬ (RegName.SEQ_ARR_DRY.row.blk = .recorder ∧ core ≠ b.recd.owner) := fun h => absurd h.1 (by decide)
  have all : ~~~ RegName.SEQ_ARR_DRY.row.wo = BitVec.allOnes 256 := by decide
  simp only [Blk.regView, own, if_false, all, BitVec.and_allOnes]

/-- The module after a read of the dry count: its bytes are read and the count is cleared. -/
def Blk.dryRead (b : Blk) (core : Nat) : Blk :=
  { b.wr (arrDry core) 0#256 with readData := (leBytes 32 (b.rn (arrDry core))).take 4 }

theorem arrDry_mask : RegName.SEQ_ARR_DRY.row.mask = 0xFFFFFFFF := by decide

/-- Every bit of the dry count is RCL: what a read writes back is 0 within the register's width. -/
theorem wr_arrDry_cleared (b : Blk) (core : Nat) :
    b.wr (arrDry core) ((b.rd (arrDry core) &&& ~~~ 0xFFFFFFFF) ||| ((arrDry core).reset &&& 0xFFFFFFFF)) = b.wr (arrDry core) 0#256 := by
  have reset : (arrDry core).reset = 0#256 := rfl
  have apart : ~~~ (0xFFFFFFFF : RegVal) &&& 0xFFFFFFFF = 0#256 := by decide
  have cleared (x : RegVal) : ((x &&& ~~~ 0xFFFFFFFF) ||| (0#256 &&& 0xFFFFFFFF)) &&& 0xFFFFFFFF = 0#256 &&& 0xFFFFFFFF := by
    rw [BitVec.zero_and, BitVec.or_zero, BitVec.and_assoc, apart, BitVec.and_zero]
  rw [Blk.wr, Blk.wr, arrDry_mask, reset, cleared]

theorem rclRead_arrDry (b : Blk) (core upd : Nat) :
    b.rclRead (arrDry core) 0 32 upd = if upd = 0 then b.dryRead core else (b.dryRead core).bumpFld (arrDry core) ⟨0, 32⟩ upd := by
  have bytes : (RegName.SEQ_ARR_DRY.row.width + 7) / 8 = 4 := by decide
  have clr : RegName.SEQ_ARR_DRY.row.rcl &&& byteMask 0 4 = 0xFFFFFFFF := by decide
  have nonzero : ¬ (0xFFFFFFFF : RegVal) = 0 := by decide
  have whole : (upd = 0 ∨ 32 = 0 ∨ BitVec.ofNat 256 ((2 ^ 32 - 1) * 2 ^ 0) &&& ~~~ RegName.SEQ_ARR_DRY.row.rcl ≠ 0) ↔ upd = 0 :=
    ⟨fun h => h.resolve_right (by decide), .inl⟩
  simp only [Blk.rclRead, Blk.regRead, bytes, regView_arrDry, clr, nonzero, if_false, wr_arrDry_cleared, whole]
  rfl

/-- The read's clause of O13 holds from every state. -/
theorem rclRead_arrDry_yields (s : State) (core upd : Nat) (hcore : core < 180) (hupd : upd < 2 ^ 32) :
    Yields (.rclRead (arrDry core) 0 32 upd) s (fun c =>
      c.readData = (leBytes 32 (s.blk.rn (arrDry core))).take 4 ∧ c.rn (arrDry core) = upd ∧
      ∀ r : RegRef, r.key ≠ (arrDry core).key → c.rd r = s.blk.rd r) := by
  have ok : (regOk (arrDry core) && decide (0 + 32 ≤ (arrDry core).name.row.width)) = true := by
    simp [regOk, Scope.has, RegName.row, coreNo, hcore]
  have cleared : (s.blk.dryRead core).rd (arrDry core) = 0 := (Blk.rd_wr_same s.blk (arrDry core) 0).trans BitVec.zero_and
  have others (r : RegRef) (hr : r.key ≠ (arrDry core).key) : (s.blk.dryRead core).rd r = s.blk.rd r := Blk.rd_wr_key _ _ _ _ hr
  refine ⟨_, State.go_ok s _ (fun b => b.rclRead (arrDry core) 0 32 upd) ok, ?_⟩
  rw [rclRead_arrDry]
  split
  next h => exact ⟨rfl, by rw [Blk.rn, cleared, h]; rfl, others⟩
  next h =>
    refine ⟨rfl, ?_, fun r hr => (Blk.rd_wr_key _ _ _ _ hr).trans (others r hr)⟩
    have added : satAdd 32 ((s.blk.dryRead core).rf (arrDry core) ⟨0, 32⟩) upd = upd := by
      rw [Blk.rf, cleared]; simp [satAdd, Fld.get]; omega
    rw [Blk.bumpFld, added, Blk.wf, cleared, Blk.rn, Blk.rd_wr_same, RegRow.mask, mask_toNat _ _ (RegName.width_le _)]
    simp [Fld.set, RegName.row]
    omega

end Sys2Proof.Machine
end

section
/-!
SUPPORT. Proofs of the statements of spec/06_memory.md: the host's windows and the power mirror.
-/
namespace Sys2Proof.Machine

/-- A command without a condition on its operands leaves its effect on the module. -/
theorem does_of_effect {c : Instr} {s : State} {effect : Blk → Blk} (h : exec c s = s.go true effect) : Does c s (effect s.blk) :=
  h.trans (State.go_ok s true effect rfl)

/-! ### The BAR2 window (R231, R573) -/

theorem does_bar2Write (s : State) (x : Nat) (xs : List Byte) : Does (.bar2Write x xs) s (s.blk.bar2Write x xs) :=
  does_of_effect (effect := fun b => b.bar2Write x xs) rfl

@[simp] theorem Blk.bar2Block_parts (b : Blk) (blk off : Nat) (xs : List Byte) : (b.bar2Block blk off xs).parts = b.parts := by
  unfold Blk.bar2Block
  split
  · rfl
  · split <;> rfl

/-- Bytes that end within the block they start in are one piece. -/
theorem splitBlocks_within (f a : Nat) (xs : List Byte) (nonempty : xs ≠ []) (within : a % 4096 + xs.length ≤ 4096) :
    splitBlocks (f + 1) a xs = [(a / 4096, a % 4096, xs)] := by
  have whole : min xs.length (4096 - a % 4096) = xs.length := by omega
  have rest (g a' : Nat) : splitBlocks g a' [] = [] := by cases g <;> rfl
  simp [splitBlocks, nonempty, whole, rest]

theorem last_block_within (a : Nat) (xs : List Byte) (nonempty : xs ≠ []) (within : a % 4096 + xs.length ≤ 4096) :
    (a + xs.length - 1) / 4096 = a / 4096 := by
  have len := List.length_pos_iff.mpr nonempty
  omega

theorem bar2Write_discarded (b : Blk) (x : Nat) (xs : List Byte) (nonempty : xs ≠ [])
    (h : b.runLive = true ∨ b.dataBlock ((b.bar2Base + x + xs.length - 1) / 4096) = none) :
    b.bar2Write x xs = b.bump ⟨.HBM_BAR2_DROP, (match b.dataBlock ((b.bar2Base + x) / 4096) with | some p => pcDie p.1 | none => iod0), 0⟩ := by
  have drop : (b.runLive || (b.dataBlock ((b.bar2Base + x + xs.length - 1) / 4096)).isNone) = true := by
    rcases h with live | beyond
    · simp [live]
    · simp [beyond]
  unfold Blk.bar2Write
  exact (if_neg nonempty).trans (if_pos drop)

theorem bar2Write_one_block (b : Blk) (x : Nat) (xs : List Byte) (nonempty : xs ≠ []) (within : (b.bar2Base + x) % 4096 + xs.length ≤ 4096)
    (idle : b.runLive = false) (held : (b.dataBlock ((b.bar2Base + x) / 4096)).isSome = true) (parts : b.parts = []) :
    b.bar2Write x xs = b.bar2Block ((b.bar2Base + x) / 4096) ((b.bar2Base + x) % 4096) xs := by
  have taken : (b.runLive || (b.dataBlock ((b.bar2Base + x + xs.length - 1) / 4096)).isNone) = false := by
    simp [idle, last_block_within _ xs nonempty within, held]
  have noparts := (b.bar2Block_parts ((b.bar2Base + x) / 4096) ((b.bar2Base + x) % 4096) xs).trans parts
  simp only [Blk.bar2Write, nonempty, taken, if_false, Bool.false_eq_true, splitBlocks_within _ _ xs nonempty within, List.foldl_cons, List.foldl_nil,
    noparts, List.map_nil]
  rw [← noparts]

/-! ### The debug window (R533) -/

theorem does_debugWindow (s : State) (a : Nat) (w : Option Word) : Does (.debugWindowAccess a w) s (s.blk.debugWindow a w) :=
  does_of_effect (effect := fun b => b.debugWindow a w) rfl

theorem debugWindow_closed (b : Blk) (a : Nat) (w : Option Word) (closed : bitOf b.sec.scopes 0 = false) :
    b.debugWindow a w = ({ b with readData := if w.isNone then zeros 4 else b.readData } : Blk).bump ⟨.SEC_DBG_DENY_CNT, iod0, 0⟩ := by
  simp [Blk.debugWindow, closed]

section
variable {b : Blk} {a d k off : Nat} {q : RegBlk} (opened : bitOf b.sec.scopes 0 = true) (place : windowAt (a / 4 * 4) = some (d, q, k, off))
include opened place

theorem debugWindow_read : b.debugWindow a none = { (b.blockRead d q k 1 off).2 with readData := (b.blockRead d q k 1 off).1 } := by
  simp [Blk.debugWindow, opened, place]

theorem debugWindow_write (v : Word) {g : RegRef} {o : Nat} (up : b.up d = true) (found : regFind d q k off = some (g, o)) :
    b.debugWindow a (some v) = if ownRow g.name then b.clearFinOnly.ownWrite g (v.toNat * 2 ^ (8 * o))
      else b.clearFinOnly.regWrite g (BitVec.ofNat 256 (v.toNat * 2 ^ (8 * o))) (byteMask o 4) := by
  simp [Blk.debugWindow, opened, place, up, found]

end

/-! ### The power mirror (R443, R458) -/

theorem Blk.rn_wn_other (b : Blk) (r g : RegRef) (x : Nat) (hr : r.sane) (hg : g.sane) (h : g ≠ r) : (b.wn r x).rn g = b.rn g :=
  congrArg BitVec.toNat (Blk.rd_wn_other b r g x hr hg h)

theorem sane_packageReg (n : RegName) : (⟨n, 0, 0⟩ : RegRef).sane := ⟨by simp, by simp⟩

/-- A package register keeps its number where another package register is written. -/
theorem Blk.rn_wn_package (b : Blk) (n m : RegName) (x : Nat) (h : m ≠ n) : (b.wn ⟨n, 0, 0⟩ x).rn ⟨m, 0, 0⟩ = b.rn ⟨m, 0, 0⟩ :=
  b.rn_wn_other _ _ x (sane_packageReg n) (sane_packageReg m) (fun e => h (congrArg RegRef.name e))

theorem mirrorRefresh_energy (b : Blk) (avgMw avgK : Nat) : (b.mirrorRefresh avgMw avgK).rn ⟨.PWR_MIR_ENERGY, 0, 0⟩ = b.pwr.energyMj % 2 ^ 64 :=
  Blk.rn_wn_same _ _ _

theorem mirrorRefresh_temp (b : Blk) (avgMw avgK : Nat) :
    (b.mirrorRefresh avgMw avgK).rn ⟨.PWR_MIR_TEMP, 0, 0⟩ = b.rn (pwrReg .PWR_THERM_STAT) % 2 ^ 32 :=
  (Blk.rn_wn_package _ _ _ _ (by decide)).trans (Blk.rn_wn_same _ _ _)

theorem mirrorRefresh_input (b : Blk) (avgMw avgK : Nat) :
    (b.mirrorRefresh avgMw avgK).rn ⟨.PWR_MIR_INPUT, 0, 0⟩ = min 0xFFFF (b.pwr.inputMv / 10) + 2 ^ 16 * min 0xFFFF (avgMw / 1000) := by
  have fits : min 0xFFFF (b.pwr.inputMv / 10) + 2 ^ 16 * min 0xFFFF (avgMw / 1000) < 2 ^ 32 := by omega
  unfold Blk.mirrorRefresh
  dsimp only
  rw [Blk.rn_wn_package _ _ _ _ (by decide), Blk.rn_wn_package _ _ _ _ (by decide), Blk.rn_wn_package _ _ _ _ (by decide),
    Blk.rn_wn_package _ _ _ _ (by decide), Blk.rn_wn_same]
  exact Nat.mod_eq_of_lt fits

/-- Settles O15: each access by what its window's operation answers in the case, and the mirror by reading each of its registers after the writes that follow it. -/
theorem windowsAndMirror : Obligations.WindowsAndMirror := by
  unfold Obligations.WindowsAndMirror
  intro s x n a avgMw avgK off k xs d q w v g o b at_
  refine ⟨does_of_effect (effect := fun b => b.bar2Read x n) rfl, fun nonempty dropped => ?_, fun nonempty within idle held parts => ?_, fun closed => ?_,
    fun opened place => ?_, fun opened place up found => ?_,
    ⟨_, does_of_effect (effect := fun b => b.mirrorRefresh avgMw avgK) rfl, mirrorRefresh_energy b avgMw avgK, mirrorRefresh_temp b avgMw avgK,
      mirrorRefresh_input b avgMw avgK⟩,
    does_of_effect (effect := Blk.mirrorEnergy) rfl⟩
  · have h := does_bar2Write s x xs
    rw [bar2Write_discarded b x xs nonempty dropped] at h
    exact h
  · exact bar2Write_one_block b x xs nonempty within idle held parts ▸ does_bar2Write s x xs
  · exact debugWindow_closed b a w closed ▸ does_debugWindow s a w
  · exact debugWindow_read opened place ▸ does_debugWindow s a none
  · exact debugWindow_write opened place v up found ▸ does_debugWindow s a (some v)

end Sys2Proof.Machine
end
